-- ==== Sys2Proof/Word.lean ====
section
/-! DEFINITION. The word types of the T9 model. Everything a test could show wrong (byte order, fields, arithmetic) lies in
Machine/. -/

namespace Sys2Proof

/-- A byte of a memory structure, a frame or a register (spec/00_scope.md section 0.5: multi-byte fields are little-endian). -/
abbrev Byte := BitVec 8

/-- A 32-bit word: a coach-core register (spec/11_coach_cores.md section 11.2). -/
abbrev Word := BitVec 32

end Sys2Proof
end

