-- ==== Sys2Proof/Syntax.lean ====
section
/-! DEFINITION. The commands of the T9: one constructor of Instr per row of spec/opcode_table.json, in the table's order.
The table gives the rows no bits; the operands are what the rule of the row says the step is about. Measured values (a sensor
reading, an ECC outcome, which candidates are timing-legal) are operands, since they come from outside the rules. -/

namespace Sys2Proof

/-- Link A carries lanes 0-7, or the whole port when it is not bifurcated; link B carries lanes 8-15 (R165). -/
inductive LinkId where
  | a
  | b
  deriving DecidableEq, Repr

/-- Who makes a dictionary access (R206): a sessionless frame from a source address, a frame of an open session, or a link's mailbox. -/
inductive Door where
  | field (src : Nat)
  | session (id : Nat)
  | infield (port : Nat) (link : LinkId)
  deriving DecidableEq, Repr

/-- The fields of a Welair frame (Table 9.5) but OP, which the command names; src is the source address of the datagram. -/
structure Frame where
  src : Nat
  srcPort : Nat
  dst : List Byte
  dstPort : Nat
  magic : Nat
  version : Nat
  flags : Byte
  status : Byte
  length : Nat
  session : Nat
  seq : Nat
  index : Nat
  sub : Nat
  type : Nat
  offset : Nat
  body : List Byte
  tag : List Byte
  deriving DecidableEq, Repr

/-- A DRAM data bus: a distance channel (R135) or a sprint pseudo-channel (R157). -/
inductive DramUnit where
  | dist (chan : Nat)
  | pc (stack pc : Nat)
  deriving DecidableEq, Repr

/-- What ECC says of a burst (spec/07_dram_tiers.md section 7.7, R161). -/
inductive Ecc where
  | clean
  | corrected
  | uncorrectable
  deriving DecidableEq, Repr

/-- How a DMA read of the T9 ends (R179). -/
inductive DmaStatus where
  | ok
  | unsupportedRequest
  | completerAbort
  | poisoned
  deriving DecidableEq, Repr

/-- The SPD facts of one RDIMM (R135, R150, R151). -/
structure Dimm where
  /-- It answers at the code of R288. -/
  codeOk : Bool
  /-- Capacity in GiB, device width, device density in Gb, ranks. -/
  gib : Nat
  width : Nat
  density : Nat
  ranks : Nat
  /-- Highest rate it supports, MT/s. -/
  rate : Nat
  serial : Nat
  /-- Its times in ps and its cycle counts for the members of CHAN_TIMING, in the order of Table 7.6; 0 where it gives none. -/
  times : List Nat
  cycles : List Nat
  deriving DecidableEq, Repr

/-- One run of steps 2 to 8 of Table 7.4: the read and write eyes of every lane in 1/128 UI, and whether the verify found no error
(R149). -/
structure TrainRun where
  eyes : List Nat
  verified : Bool
  deriving DecidableEq, Repr

/-- The SPD facts and training of one channel at a start (R135, R149, R150). -/
structure ChanTrain where
  /-- The RDIMMs found on the channel, 0-2. -/
  dimms : List Dimm
  /-- The step 8 verify with the stored values finds no error (R150). -/
  verifyOk : Bool
  /-- Steps 2 to 8, with the repetitions of a failing step (R149). -/
  runs : List TrainRun
  deriving DecidableEq, Repr

/-- The commands. The docstring of each is its row's rule. -/
inductive Instr where
  -- CXL.mem and BAR2 (R17, R173, R176)
  | memRd (p : Nat) (l : LinkId) (tag hpa : Nat)
  | memWr (p : Nat) (l : LinkId) (tag hpa : Nat) (data : List Byte) (poison : Bool)
  | memWrPtl (p : Nat) (l : LinkId) (tag hpa : Nat) (data : List Byte) (mask : BitVec 64) (poison : Bool)
  | memSpecRd (p : Nat) (l : LinkId) (tag hpa : Nat)
  | memInv (p : Nat) (l : LinkId) (tag hpa : Nat)
  | bar2Read (p : Nat) (l : LinkId) (tag off len : Nat)
  | bar2Write (p : Nat) (l : LinkId) (off : Nat) (data : List Byte) (relaxed poison : Bool)
  | bar2AtomicOp (p : Nat) (l : LinkId) (tag off : Nat)
  -- BAR0 and work queues (R94, R95, R170)
  | bar0AccessOther (p : Nat) (l : LinkId) (write : Bool) (tag off width value : Nat)
  | qtail (p : Nat) (l : LinkId) (q value : Nat)
  | qctrlEnable (p : Nat) (l : LinkId) (q : Nat) (enable : Bool)
  | descriptorRead (p q : Nat)
  -- descriptors (R102-R111)
  | attend (job : Nat)
  | gatherAttend (job : Nat)
  | gatherAttendResume (job : Nat)
  | sealRange (job : Nat)
  | prefetch (job : Nat)
  | copyInRaw (job : Nat)
  | copyInImage (job : Nat)
  | copyOutRaw (job : Nat)
  | copyOutImage (job : Nat)
  | baton (job : Nat)
  | catchPass (job : Nat)
  | batonTimeout (job : Nat)
  | batonSwap (token : Nat)
  | codebookBuild (job : Nat)
  | fence (job : Nat)
  -- legs (R93, R103, R118)
  | legDispatch
  | legNearWait (leg : Nat)
  | legComplete (leg : Nat)
  | strideEngineFailure (e : Nat)
  | finishStoreParity (job head : Nat)
  -- ATS and DMA (R117, R178, R179)
  | atsTranslationCompletion (p : Nat) (l : LinkId) (addr size : Nat) (r w : Bool)
  | dmaReadCompletion (p : Nat) (l : LinkId) (id : Nat) (status : DmaStatus) (data : List Byte)
  | dmaCompletionTimeout (p : Nat) (l : LinkId) (id : Nat)
  | invalidationRequest (p : Nat) (l : LinkId) (tag addr size : Nat)
  | invalidationCompletion (p : Nat) (l : LinkId) (tag : Nat)
  -- links (R166-R191)
  | configWrite (p : Nat) (l : LinkId) (off value : Nat)
  | atsEnableClear (p : Nat) (l : LinkId)
  | msixUnmask (p : Nat) (l : LinkId) (vec : Nat)
  | msixEnableClear (p : Nat) (l : LinkId)
  | functionLevelReset (p : Nat) (l : LinkId)
  | hotReset (p : Nat) (l : LinkId)
  | perstAssert (p : Nat)
  | perstRelease (p : Nat)
  | d3hotEntry (p : Nat) (l : LinkId)
  | d0Return (p : Nat) (l : LinkId)
  | pmeTurnOff (p : Nat) (l : LinkId)
  | linkUp (p : Nat) (l : LinkId) (hostSpeed hostWidth : Nat) (partnerFlit ask68 : Bool)
  | linkLoss (p : Nat) (l : LinkId)
  | fatalAerError (p : Nat) (l : LinkId)
  | ioDieInternalError (p : Nat)
  | portDrained (p : Nat)
  | portRelease (p : Nat) (via : Option Door)
  | l1IdleExpiry (p : Nat) (l : LinkId)
  | l1Exit (p : Nat) (l : LinkId)
  | l0pNarrow (p : Nat)
  | l0pWiden (p : Nat)
  | l0pHostRequest (p width : Nat)
  | hdmDecoderCommit (p : Nat) (l : LinkId) (d base size ways gran skip pos : Nat) (commit : Bool)
  | identifyMemoryDevice (p : Nat) (l : LinkId)
  | getPoisonList (p : Nat) (l : LinkId)
  | clearPoison (p : Nat) (l : LinkId) (dpa : Nat)
  | unsupportedMailboxCommand (p : Nat) (l : LinkId) (opcode : Nat)
  -- infield door (R218)
  | dictRead (p : Nat) (l : LinkId) (payload : List Byte)
  | dictWrite (p : Nat) (l : LinkId) (payload : List Byte)
  | dictReadBlock (p : Nat) (l : LinkId) (payload : List Byte)
  | dictWriteBlock (p : Nat) (l : LinkId) (payload : List Byte)
  | dictReadStaged (p : Nat) (l : LinkId) (payload : List Byte)
  | dictCommit (p : Nat) (l : LinkId) (payload : List Byte)
  | dictDiscard (p : Nat) (l : LinkId) (payload : List Byte)
  | dictContext (p : Nat) (l : LinkId) (payload : List Byte)
  | dictReservedOpcode (p : Nat) (l : LinkId) (opcode : Nat)
  -- field door (R196-R216)
  | read (f : Frame)
  | write (f : Frame)
  | readBlock (f : Frame)
  | writeBlock (f : Frame)
  | readStaged (f : Frame)
  | commit (f : Frame)
  | discard (f : Frame)
  | wake (f : Frame)
  | discover (f : Frame)
  | discoverReplyDelay
  | sessionOpen (f : Frame)
  | sessionClose (f : Frame)
  | neighborSolicitation (src : Nat) (target : List Byte)
  | echoRequest (src : Nat) (payload : List Byte)
  | fieldLinkUp (duplicate : Bool)
  | sessionIdleExpiry (id : Nat)
  | stageTimeoutExpiry (d : Door) (group : Option Nat)
  -- dictionary objects with behaviour of their own
  | wonceWrite (d : Door) (index sub : Nat) (value : List Byte)
  | wonceStoreDone (index sub : Nat)
  | dictObjectWrite (d : Door) (index sub : Nat) (value : List Byte)
  | persistStoreStart
  | persistStoreDone
  | persistSync (d : Door) (value : Nat)
  | extentRelease (d : Door) (handle : Nat)
  | extentReleaseDone (handle : Nat)
  | provisionRatio (d : Door) (value : Nat)
  | provisionSettleMove (lpn : Nat)
  | vaultKey (d : Door) (region : Nat) (key : List Byte)
  | cbRetire (d : Door) (region slot : Nat)
  | versionRetired (region slot : Nat)
  | runRequestPause (d : Door)
  | runRequestPauseForced (d : Door)
  | runRequestGo (d : Door)
  | softResetCore (d : Door) (core : Nat)
  | softResetPort (d : Door) (p : Nat)
  | softResetDevice (d : Door)
  | softResetDeviceForced (d : Door)
  | evtAck (d : Door) (value : Nat)
  | telemetryClear (d : Door) (value : Nat)
  | bibMonClear (d : Door) (b value : Nat)
  | probePage (d : Door) (lpn : Nat)
  | probeWindow (d : Door) (value : Nat)
  | sessionKey (d : Door) (slot : Nat) (key : List Byte)
  | infieldTrust (d : Door) (value : Nat)
  | azmorUpdate (d : Door) (image : List Byte)
  | policyImage (d : Door) (image : List Byte)
  | policyEnable (d : Door) (value : Nat)
  | lapRun (d : Door) (engine : Nat)
  | trackUnlock (d : Door) (value : List Byte)
  | trackLock (d : Door) (value : Nat)
  | trackGroup (d : Door) (value : Nat)
  | injectArm (d : Door) (value : Nat)
  | chanMapOut (d : Door) (c value : Nat)
  | stackPcMapOut (d : Door) (st pc : Nat)
  | chanSrPolicy (d : Door) (c value : Nat)
  | regionBib (d : Door) (region b : Nat)
  | windowLog2 (d : Door) (p value : Nat)
  | trnRun (d : Door) (c value : Nat)
  | trnSweepDone (c : Nat) (errors passMap : List Byte)
  -- relay engines and tiering (R30, R64-R91)
  | itemStart (e : Nat)
  | expandDone (item : Nat)
  | xtsDone (item : Nat)
  | bypassDone (item : Nat)
  | unsealDone (item : Nat)
  | sealClose (move : Nat)
  | sealCloseLimit (move : Nat)
  | sealIdleTimer (lpn : Nat)
  | moveSwitch (move : Nat)
  | spaceFreed (ticket : Nat)
  | buildDone (item : Nat)
  | relayEngineFailure (e : Nat)
  | lastRelayEngineFailure (e : Nat)
  | promoteSlotWait (req : Nat)
  | slotCreditGrant (req : Nat)
  | backingTimeout (req : Nat)
  | demotionChoice (lpns : List Nat)
  | slotReclaim (lpn : Nat)
  | counterEpoch
  | rebuildRequest (region : Nat)
  | policyHookCall (hook : Nat) (lpns : List Nat) (base : Nat)
  | policyHookReply (value : Nat)
  | policyHookDeadline
  -- pacer (R128-R131)
  | pacerIdleDecay (b : Nat) (leg : Bool)
  | urgChange (p value : Nat)
  | urgSlice
  -- tiers (R137-R163, R282)
  | refresh (c : Nat)
  | thermalPoll (temps : List (Option Int))
  | srIdleEntry (c : Nat)
  | srExitDone (c : Nat)
  | dramBurstDone (u : DramUnit) (legal rowHits : List Nat) (ecc : Ecc)
  | patrolScrub (u : DramUnit) (place : Nat)
  | backgroundFill (c : Nat)
  | channelUnresponsive (c : Nat) (retrain : Bool)
  | evacuationDrained (c : Nat)
  | pseudoChannelFailure (st pc reason : Nat) (readable : Bool)
  | pseudoChannelDrained (st pc : Nat)
  | sprintRefresh (st pc : Nat)
  | stackTempChange (st : Nat) (temp : Int)
  | marchTestStart (u : DramUnit)
  | marchTestDone (u : DramUnit) (pass : Bool)
  -- laps (R278-R281)
  | lapDue
  | lapAgeForced (e : Nat)
  | lapDrained
  | lapDrainTimeout
  | lapDone (pass : Bool)
  | readmissionLap (e : Nat) (pass : Bool)
  -- coach cores (R238-R252)
  | callw (n : Nat) (offset : BitVec 26)
  | retw (n : Nat)
  | trap (n number : Nat)
  | savectx (n : Nat) (mask : BitVec 4)
  | loadctx (n : Nat) (mask : BitVec 4)
  | dropctx (n : Nat)
  | reti (n : Nat)
  | cutw (n reg : Nat)
  | halt (n : Nat)
  | tallyInstruction (n : Nat)
  | csrAccess (n csr : Nat) (write : Bool) (reg : Nat)
  | illegalInstruction (n : Nat)
  | interruptEntry (n line : Nat)
  | spill (n : Nat)
  | spillDone (n : Nat)
  | fillDone (n : Nat) (uncorrectable : Bool)
  | coreWatchdog (n : Nat)
  | coreRestart (n : Nat)
  -- power, clocks, start (R255-R272, R293-R296)
  | trackPowerOn
  | trackPowerLoss
  | sysRstAssert
  | sysRstRelease (node : BitVec 4) (bankOk otherBankOk flashFound crcA crcB : Bool)
  | trainingDone (chans : List ChanTrain)
  | fieldPgRise
  | fieldPgTimeout
  | fieldPgFall
  | sprintInitDone (pcBad : List (Nat × Nat)) (perst : BitVec 4)
  | pauseDemotionsDone
  | pllLockLoss (hub : Bool)
  | ddrPllLockLoss (q : Nat)
  | dieSensorPoll (hub io : List Int)
  | throttleInterval (peak : Int) (avgPower trackPower : Nat)
  | thermtrip
  | debugEnFall
  | tapReset
  | legReachesPage (leg : Nat)
  | wrongPathFetch (n : Nat) (inRegion fills : Bool)
  | loadStore (n : Nat) (store : Bool) (addr width reg : Nat)
  | tckCycle (tms tdi : Bool)
  | debugEnRise
  | azmorImageStored
  | policyImageStored
  deriving DecidableEq, Repr

end Sys2Proof
end

