-- ==== Sys2Proof/Decode.lean ====
section
/-! DEFINITION. spec/opcode_table.json gives no row any bits, so no word of the table spells a command. Chapter 11 gives the window,
trap and context instructions of a coach core encodings of their own (R250): they are decoded here. -/

namespace Sys2Proof

/-- The command a word spells by the table's bits: the table gives none, so there is none. -/
def decodeTableWord (nbits w : Nat) : Option Instr :=
  match nbits, w with
  | _, _ => none

/-- Every bit of a word outside a mask is zero (R250: instruction bits that Table 11.8 does not name). -/
def onlyBits (w mask : BitVec 32) : Bool := w &&& ~~~mask == 0

/-- An instruction whose unnamed bits are zero; another word is ILLEGAL on the core (R250). -/
def decoded (n : Nat) (w mask : BitVec 32) (i : Instr) : Instr := if onlyBits w mask then i else .illegalInstruction n

/-- The word of a core whose MAJOR is 0x3E: FUNC of Table 11.9 in bits 2 to 0, 011 and 111 Reserved. -/
def decodeContext (n : Nat) (w : BitVec 32) : Instr :=
  match (w.extractLsb' 0 3).toNat with
  | 0 => decoded n w 0xFC0000F7 (.savectx n (w.extractLsb' 4 4))
  | 1 => decoded n w 0xFC0000F7 (.loadctx n (w.extractLsb' 4 4))
  | 2 => decoded n w 0xFC000007 (.dropctx n)
  | 4 => decoded n w 0xFC000007 (.reti n)
  | 5 => decoded n w 0xFFE00007 (.cutw n (w.extractLsb' 21 5).toNat)
  | 6 => decoded n w 0xFC000007 (.halt n)
  | _ => .illegalInstruction n

/-- What a word of core n's instruction stream stands for, when its MAJOR is one of Table 11.8; the other majors belong to the ordinary
instructions, which section 11.1 leaves to the Zhono kit. A FUNC of 0x3D that the table does not give is ILLEGAL, as the Reserved ones
of 0x3E are (DEDUCED, log entry 18). -/
def decodeCoreWord (n : Nat) (w : BitVec 32) : Option Instr :=
  match (w.extractLsb' 26 6).toNat with
  | 0x3C => some (.callw n (w.extractLsb' 0 26))
  | 0x3D => some (match (w.extractLsb' 8 3).toNat with
    | 0 => decoded n w 0xFC000700 (.retw n)
    | 1 => decoded n w 0xFC0007FF (.trap n (w.extractLsb' 0 8).toNat)
    | _ => .illegalInstruction n)
  | 0x3E => some (decodeContext n w)
  | _ => none

end Sys2Proof
end

