-- ==== Sys2Proof/Config.lean ====
section
/-! DEFINITION. What the manual leaves open: free values (constants with no body, so nothing can be proved of their value) and
the fixed figures of the part. A free value that is drawn afresh is applied to the counter freeCtr of the state. -/

namespace Sys2Proof.Config

/-- Which free slot, run, engine-independent choice an allocator takes among those the rules allow (R12, R36). DESIGN CHOICE, log entry 9. -/
opaque freePick : Nat → Nat

/-- Time in ns from the moment the model completes a read to its completion leaving the pins (R127); Table 0.2 gives it only
without competing traffic. DESIGN CHOICE, log entry 10. -/
opaque egressNs : Nat → Nat

/-- A 16-byte nonce (R215 step 2). DESIGN CHOICE, log entry 11. -/
opaque nonce : Nat → List Byte

/-- A session id; R215 says random and non-zero, so the model maps 0 to another value. DESIGN CHOICE, log entry 11. -/
opaque sessionId : Nat → BitVec 32

/-- The channel that holds the first copy of the stripe of a metadata entry (R138 does not say which). DESIGN CHOICE, log entry 12. -/
opaque stripe : Nat → Nat

/-- Where the reserve keeps its copy of a granule of the maps (R158 gives no layout): which pseudo-channel comes first, and the granule
within it. DESIGN CHOICE, log entry 12. -/
opaque reservePlace : Nat → Nat
opaque reserveGranule : Nat → Nat

/-- Whether an Azmor image passes its signature check against the key hash (R229 gives no image format). DESIGN CHOICE, log entry 13. -/
opaque azmorOk : List Byte → List Byte → Bool

/-- AZMOR_VERSION of an image (Table 10.13 gives no place for it in the image). DESIGN CHOICE, log entry 13. -/
opaque azmorVersion : List Byte → BitVec 32

/-- The Azmor entry address of a core (R246). DESIGN CHOICE, log entry 14. -/
opaque azmorEntry : Nat → Word

/-- Which 256 KiB of its 32-bit address space hold the data SRAM of a core (section 11.1 gives no address). DESIGN CHOICE, log entry 14. -/
opaque sramSlot : Nat → BitVec 14

/-- First address of the 256 KiB of data SRAM of a core, aligned to its size. DESIGN CHOICE, log entry 14. -/
def sramBase (n : Nat) : Nat := 0x40000 * (sramSlot n).toNat

/-- Whether a load (false) or store (true) at an address outside the regions chapter 11 describes is permitted, by core and
mode (supervisor true). DESIGN CHOICE, log entry 14. -/
opaque permitted : Nat → Bool → Bool → Nat → Bool

/-- What a permitted load outside the memories of chapter 11 returns. DESIGN CHOICE, log entry 14. -/
opaque loadValue : Nat → Word

/-- The tally state (V0-V7 then TSTATUS, 132 bytes) after a tally instruction, whose own effect the manual does not give
(section 11.1). DESIGN CHOICE, log entry 15. -/
opaque tallyAfter : Nat → List Byte

/-- CORE_BUSY of a core (Table 10.13 gives a gauge that no step states). DESIGN CHOICE, log entry 16. -/
opaque coreBusy : Nat → Nat

/-- TRN_DELAYS of a channel after its training (Table 7.5 gives no default). DESIGN CHOICE, log entry 16. -/
opaque trnDelays : Nat → List Byte

/-- Bits [13:2] of the PC of a wrong-path fetch group, which its command does not name (R252, R284). DESIGN CHOICE, log entry 79. -/
opaque wrongPathPc : Nat → Nat

/-- Length of the boundary register (R285 gives none). DESIGN CHOICE, log entry 17. -/
opaque boundaryLength : Nat

/-- What SAMPLE/PRELOAD captures of a boundary cell (R285). DESIGN CHOICE, log entry 17. -/
opaque boundarySample : Nat → Nat → Bool

/-- Bits 4 to 2 of what the TAP captures into its instruction register (IEEE 1149.1 fixes bits 1 and 0). DESIGN CHOICE, log entry 17. -/
opaque irCapture : Nat → BitVec 3

/-- Round-to-nearest results of exp and ln are computed by the model; this many fraction bits are carried (R102). -/
def fixBits : Nat := 256

end Sys2Proof.Config
end

