-- ==== Sys2Proof/Machine/Bytes.lean ====
section
/-! DEFINITION. Bytes, little-endian numbers, bit fields and sparse maps: the helpers every operation is written with. -/

namespace Sys2Proof.Machine

/-- The number a little-endian byte string spells (spec/00_scope.md section 0.5). -/
def leNat : List Byte → Nat
  | [] => 0
  | b :: r => b.toNat + 256 * leNat r

/-- n bytes of a number, little-endian. -/
def natLe : (len value : Nat) → List Byte
  | 0, _ => []
  | n + 1, v => BitVec.ofNat 8 v :: natLe n (v / 256)

/-- len bytes at an offset, zero past the end. -/
def slice (bs : List Byte) (off len : Nat) : List Byte :=
  let r := (bs.drop off).take len
  r ++ List.replicate (len - r.length) 0

/-- A little-endian field of a structure. -/
def field (bs : List Byte) (off len : Nat) : Nat := leNat (slice bs off len)

/-- bs with the bytes at an offset replaced (the string keeps its length when they fit). -/
def patch (bs : List Byte) (off : Nat) (new : List Byte) : List Byte :=
  bs.take off ++ new ++ bs.drop (off + new.length)

/-- Bits [lo+w-1:lo] of a number. -/
def bits (v lo w : Nat) : Nat := (v / 2 ^ lo) % 2 ^ w

/-- Bit i of a number. -/
def bit (v i : Nat) : Bool := v.testBit i

/-- v with bits [lo+w-1:lo] replaced by x. -/
def setBits (v lo w x : Nat) : Nat := v - bits v lo w * 2 ^ lo + (x % 2 ^ w) * 2 ^ lo

/-- 1 for true. -/
def b2n (b : Bool) : Nat := if b then 1 else 0

/-- Division rounded up. -/
def ceilDiv (a b : Nat) : Nat := (a + b - 1) / b

/-- Whether every byte is zero. -/
def allZero (bs : List Byte) : Bool := bs.all (· == 0)

/-- Bytes of an ASCII string. -/
def ascii (s : String) : List Byte := s.toList.map (fun c => BitVec.ofNat 8 c.toNat)

/-- Big-endian number of a byte string (SHA-256, ECDSA, AES standards). -/
def beNat (bs : List Byte) : Nat := bs.foldl (fun a b => 256 * a + b.toNat) 0

/-- n bytes of a number, big-endian. -/
def natBe (len v : Nat) : List Byte := (natLe len v).reverse

/-- bs cut into pieces of n bytes, at most fuel of them. -/
def chunks (n : Nat) : (fuel : Nat) → List Byte → List (List Byte)
  | 0, _ => []
  | f + 1, bs => if bs.isEmpty then [] else bs.take n :: chunks n f (bs.drop n)

/-- 0 .. n-1 (structural, so that the kernel runs it). -/
def upto : Nat → List Nat
  | 0 => []
  | n + 1 => upto n ++ [n]

/-- Read of a sparse map: d where nothing is listed. -/
def mget {α : Type} (m : List (Nat × α)) (d : α) (k : Nat) : α :=
  match m with
  | [] => d
  | (a, v) :: r => if a = k then v else mget r d k

/-- Write of a sparse map: keys stay strictly rising, and no entry equals the default. -/
def mput {α : Type} [DecidableEq α] (m : List (Nat × α)) (d : α) (k : Nat) (v : α) : List (Nat × α) :=
  match m with
  | [] => if v = d then [] else [(k, v)]
  | (a, x) :: r =>
    if k < a then (if v = d then (a, x) :: r else (k, v) :: (a, x) :: r)
    else if k = a then (if v = d then r else (k, v) :: r)
    else (a, x) :: mput r d k v

/-- Every key of the map is above lo, keys rise strictly, and no entry equals the default. -/
def mwfFrom {α : Type} [DecidableEq α] (d : α) (lo : Option Nat) : List (Nat × α) → Bool
  | [] => true
  | (a, x) :: r => (match lo with | none => true | some l => decide (l < a)) && decide (x ≠ d) && mwfFrom d (some a) r

/-- The canonical form of a sparse map. -/
def mwf {α : Type} [DecidableEq α] (d : α) (m : List (Nat × α)) : Bool := mwfFrom d none m

/-- Element i of a list of units, with a default. -/
def nth {α : Type} (l : List α) (d : α) (i : Nat) : α := l.getD i d

/-- The list with element i changed; out of range nothing changes. -/
def updAt {α : Type} : List α → Nat → (α → α) → List α
  | [], _, _ => []
  | x :: r, 0, f => f x :: r
  | x :: r, i + 1, f => x :: updAt r i f

/-- First element with a property, its changed form put in its place. -/
def updFirst {α : Type} (p : α → Bool) (f : α → α) : List α → List α
  | [] => []
  | x :: r => if p x then f x :: r else x :: updFirst p f r

/-- Position of a value in a list. -/
def indexOf {α : Type} [DecidableEq α] (x : α) : List α → Option Nat
  | [] => none
  | y :: r => if y = x then some 0 else (indexOf x r).map (· + 1)

/-- A list with one element put before the first that it must precede. -/
def insertBy {α : Type} (before : α → α → Bool) (x : α) : List α → List α
  | [] => [x]
  | y :: r => if before y x then y :: insertBy before x r else x :: y :: r

/-- A list in order, by insertion. -/
def sortBy {α : Type} (before : α → α → Bool) : List α → List α
  | [] => []
  | x :: r => insertBy before x (sortBy before r)

/-- Sum of a list of numbers. -/
def total (l : List Nat) : Nat := l.foldl (· + ·) 0

end Sys2Proof.Machine
end

