-- ==== Sys2Proof/Machine/Crypto.lean ====
section
/-! DEFINITION. The published algorithms the manual names: CRC-32C (R54), SHA-256 and HMAC-SHA-256 (R215), AES-256 and
XTS-AES-256 (R86), ECDSA over P-256 (R253). -/

namespace Sys2Proof.Machine

/-! ### CRC-32C (R54) -/

/-- One bit of the reflected CRC register with polynomial 0x82F6_3B78. -/
def crcBit (c : Nat) : Nat := if c % 2 = 1 then (c / 2) ^^^ 0x82F63B78 else c / 2

/-- One byte into the register. -/
def crcByte (c : Nat) (b : Byte) : Nat :=
  crcBit (crcBit (crcBit (crcBit (crcBit (crcBit (crcBit (crcBit (c ^^^ b.toNat))))))))

/-- CRC-32C: initial value and final XOR 0xFFFF_FFFF, input and output reflected (R54). -/
def crc32c (bs : List Byte) : Nat := bs.foldl crcByte 0xFFFFFFFF ^^^ 0xFFFFFFFF

/-! ### SHA-256 -/

/-- The largest number of n more bits below r whose k-th power is at most v, from its highest bit down. -/
def rootFrom (k v : Nat) : (n r : Nat) → Nat
  | 0, r => r
  | n + 1, r => rootFrom k v n (if (r + 2 ^ n) ^ k ≤ v then r + 2 ^ n else r)

/-- First 32 bits of the fraction of the k-th root of p. -/
def rootFraction (k p : Nat) : Nat := rootFrom k (p * 2 ^ (32 * k)) 35 0 % 2 ^ 32

/-- The numbers of n, from k upward, with no factor in common with 510510, the product of the primes up to 17. -/
def coprimes : (n k : Nat) → List Nat
  | 0, _ => []
  | n + 1, k => if Nat.gcd k 510510 = 1 then k :: coprimes n (k + 1) else coprimes n (k + 1)

/-- The first 64 primes, up to 311. -/
def primes : List Nat := [2, 3, 5, 7, 11, 13, 17] ++ coprimes 293 19

/-- The round constants: cube roots of the first 64 primes (FIPS 180-4). -/
def shaK : List Nat := primes.map (rootFraction 3)

def m32 : Nat := 0x100000000

def rotr32 (x n : Nat) : Nat := (x >>> n ||| x <<< (32 - n)) % m32

def shaS0 (x : Nat) : Nat := rotr32 x 2 ^^^ rotr32 x 13 ^^^ rotr32 x 22
def shaS1 (x : Nat) : Nat := rotr32 x 6 ^^^ rotr32 x 11 ^^^ rotr32 x 25
def shaT0 (x : Nat) : Nat := rotr32 x 7 ^^^ rotr32 x 18 ^^^ (x >>> 3)
def shaT1 (x : Nat) : Nat := rotr32 x 17 ^^^ rotr32 x 19 ^^^ (x >>> 10)

/-- The eight working words. -/
structure ShaState where
  a : Nat
  b : Nat
  c : Nat
  d : Nat
  e : Nat
  f : Nat
  g : Nat
  h : Nat
  deriving DecidableEq, Repr

/-- One round with round constant k and schedule word w. -/
def shaRound (s : ShaState) (k w : Nat) : ShaState :=
  let t1 := (s.h + shaS1 s.e + ((s.e &&& s.f) ^^^ ((0xFFFFFFFF - s.e) &&& s.g)) + k + w) % m32
  let t2 := (shaS0 s.a + ((s.a &&& s.b) ^^^ (s.a &&& s.c) ^^^ (s.b &&& s.c))) % m32
  { a := (t1 + t2) % m32, b := s.a, c := s.b, d := s.c, e := (s.d + t1) % m32, f := s.e, g := s.f, h := s.g }

/-- Rounds over the constants; win is the window of the last 16 schedule words, oldest first. -/
def shaRounds : List Nat → List Nat → ShaState → ShaState
  | [], _, s => s
  | k :: ks, win, s =>
    let w := win.getD 0 0
    let nw := (shaT1 (win.getD 14 0) + win.getD 9 0 + shaT0 (win.getD 1 0) + w) % m32
    shaRounds ks (win.drop 1 ++ [nw]) (shaRound s k w)

def shaBlock (s : ShaState) (blk : List Byte) : ShaState :=
  let win := (chunks 4 16 blk).map beNat
  let r := shaRounds shaK win s
  { a := (s.a + r.a) % m32, b := (s.b + r.b) % m32, c := (s.c + r.c) % m32, d := (s.d + r.d) % m32,
    e := (s.e + r.e) % m32, f := (s.f + r.f) % m32, g := (s.g + r.g) % m32, h := (s.h + r.h) % m32 }

/-- The initial words: square roots of the first eight primes (FIPS 180-4). -/
def shaInit : ShaState :=
  let w := fun (i : Nat) => rootFraction 2 (primes.getD i 0)
  ⟨w 0, w 1, w 2, w 3, w 4, w 5, w 6, w 7⟩

/-- SHA-256 (FIPS 180-4). -/
def sha256 (msg : List Byte) : List Byte :=
  let n := msg.length
  let pad := msg ++ [0x80] ++ List.replicate ((119 - n % 64) % 64) 0 ++ natBe 8 (8 * n)
  let s := (chunks 64 (pad.length / 64) pad).foldl shaBlock shaInit
  natBe 4 s.a ++ natBe 4 s.b ++ natBe 4 s.c ++ natBe 4 s.d ++ natBe 4 s.e ++ natBe 4 s.f ++ natBe 4 s.g ++ natBe 4 s.h

/-- HMAC-SHA-256 for keys of at most 64 bytes (R215). -/
def hmacSha256 (key msg : List Byte) : List Byte :=
  let k := key ++ List.replicate (64 - key.length) 0
  sha256 (k.map (· ^^^ 0x5c) ++ sha256 (k.map (· ^^^ 0x36) ++ msg))

/-! ### AES-256 and XTS (R86) -/

/-- Doubling in GF(2^8) with the AES polynomial. -/
def xtime (b : Nat) : Nat := if b < 128 then 2 * b else (2 * b - 256) ^^^ 0x1b

/-- Product in GF(2^8), over n bits of the second factor. -/
def gmulBits : (n a b : Nat) → Nat
  | 0, _, _ => 0
  | n + 1, a, b => (if b % 2 = 1 then a else 0) ^^^ gmulBits n (xtime a) (b / 2)

def gmul (a b : Nat) : Nat := gmulBits 8 a b

/-- Inverse in GF(2^8) as the 254th power; 0 stays 0. -/
def ginv (a : Nat) : Nat :=
  let a2 := gmul a a
  let a4 := gmul a2 a2
  let a8 := gmul a4 a4
  let a16 := gmul a8 a8
  let a32 := gmul a16 a16
  let a64 := gmul a32 a32
  let a128 := gmul a64 a64
  gmul a128 (gmul a64 (gmul a32 (gmul a16 (gmul a8 (gmul a4 a2)))))

def rotl8 (x n : Nat) : Nat := (x <<< n ||| x >>> (8 - n)) % 256

/-- The AES S-box, from its definition. -/
def sbox (a : Nat) : Nat :=
  let i := ginv a
  i ^^^ rotl8 i 1 ^^^ rotl8 i 2 ^^^ rotl8 i 3 ^^^ rotl8 i 4 ^^^ 0x63

/-- Inverse S-box. -/
def invSbox (a : Nat) : Nat := ginv (rotl8 a 1 ^^^ rotl8 a 3 ^^^ rotl8 a 6 ^^^ 5)

/-- Next four key words from the last eight (AES-256 key expansion); j counts words / 4. -/
def aesExpand : (n j rcon : Nat) → List (List Nat) → List (List Nat)
  | 0, _, _, ws => ws
  | n + 1, j, rcon, ws =>
    let len := ws.length
    let prev := ws.getD (len - 1) []
    let t := if j % 2 = 0 then
        match (prev.drop 1 ++ prev.take 1).map sbox with
        | x :: r => (x ^^^ rcon) :: r
        | [] => []
      else prev.map sbox
    let w0 := List.zipWith (· ^^^ ·) (ws.getD (len - 8) []) t
    let w1 := List.zipWith (· ^^^ ·) (ws.getD (len - 7) []) w0
    let w2 := List.zipWith (· ^^^ ·) (ws.getD (len - 6) []) w1
    let w3 := List.zipWith (· ^^^ ·) (ws.getD (len - 5) []) w2
    aesExpand n (j + 1) (if j % 2 = 0 then xtime rcon else rcon) (ws ++ [w0, w1, w2, w3])

/-- The 15 round keys of a 32-byte key, 16 numbers each. -/
def aesKeys (key : List Byte) : List (List Nat) :=
  let ws := aesExpand 13 0 1 ((chunks 4 8 key).map (fun c => c.map (·.toNat)))
  (upto 15).map (fun i => (upto 4).foldl (fun a j => a ++ ws.getD (4 * i + j) []) [])

def addKey (s k : List Nat) : List Nat := List.zipWith (· ^^^ ·) s k

def shiftRows (s : List Nat) : List Nat :=
  [0, 5, 10, 15, 4, 9, 14, 3, 8, 13, 2, 7, 12, 1, 6, 11].map (fun i => s.getD i 0)

def invShiftRows (s : List Nat) : List Nat :=
  [0, 13, 10, 7, 4, 1, 14, 11, 8, 5, 2, 15, 12, 9, 6, 3].map (fun i => s.getD i 0)

/-- One column times the circulant matrix with first row a b c d. -/
def mixCol (a b c d : Nat) (x : List Nat) : List Nat :=
  let x0 := x.getD 0 0
  let x1 := x.getD 1 0
  let x2 := x.getD 2 0
  let x3 := x.getD 3 0
  [gmul a x0 ^^^ gmul b x1 ^^^ gmul c x2 ^^^ gmul d x3, gmul d x0 ^^^ gmul a x1 ^^^ gmul b x2 ^^^ gmul c x3,
   gmul c x0 ^^^ gmul d x1 ^^^ gmul a x2 ^^^ gmul b x3, gmul b x0 ^^^ gmul c x1 ^^^ gmul d x2 ^^^ gmul a x3]

def mixWith (a b c d : Nat) (s : List Nat) : List Nat :=
  mixCol a b c d (s.take 4) ++ mixCol a b c d ((s.drop 4).take 4) ++ mixCol a b c d ((s.drop 8).take 4) ++
    mixCol a b c d ((s.drop 12).take 4)

/-- Middle rounds and last round of encryption. -/
def aesRounds : List (List Nat) → List Nat → List Nat
  | [], s => s
  | [k], s => addKey (shiftRows (s.map sbox)) k
  | k :: ks, s => aesRounds ks (addKey (mixWith 2 3 1 1 (shiftRows (s.map sbox))) k)

def aesEncrypt (keys : List (List Nat)) (s : List Nat) : List Nat :=
  aesRounds (keys.drop 1) (addKey s (keys.getD 0 []))

/-- Decryption rounds over the reversed keys. -/
def aesInvRounds : List (List Nat) → List Nat → List Nat
  | [], s => s
  | [k], s => addKey ((invShiftRows s).map invSbox) k
  | k :: ks, s => aesInvRounds ks (mixWith 14 11 13 9 (addKey ((invShiftRows s).map invSbox) k))

def aesDecrypt (keys : List (List Nat)) (s : List Nat) : List Nat :=
  let r := keys.reverse
  aesInvRounds (r.drop 1) (addKey s (r.getD 0 []))

/-- Multiplication of a tweak by alpha (IEEE 1619), the tweak as a little-endian number. -/
def xtsAlpha (t : Nat) : Nat := if t < 2 ^ 127 then 2 * t else (2 * t - 2 ^ 128) ^^^ 0x87

def xtsAlphaN : Nat → Nat → Nat
  | 0, t => t
  | n + 1, t => xtsAlphaN n (xtsAlpha t)

/-- The 16-byte units of a data unit from unit j on, each under its own tweak (R86). -/
def xtsUnits (enc : Bool) (keys : List (List Nat)) : List (List Byte) → Nat → List Byte
  | [], _ => []
  | u :: r, t =>
    let tb := natLe 16 t
    let x := List.zipWith (· ^^^ ·) u tb
    let y := (if enc then aesEncrypt keys else aesDecrypt keys) (x.map (·.toNat))
    List.zipWith (fun (a : Nat) b => BitVec.ofNat 8 a ^^^ b) y tb ++ xtsUnits enc keys r (xtsAlpha t)

/-- XTS-AES-256 over bytes that begin at 16-byte unit `unit` of data unit `tweak` (R86: data unit one block, data key bytes
0-31, tweak key bytes 32-63, tweak value logical page number x 32 + block). -/
def xtsAes (enc : Bool) (key : List Byte) (tweak unit : Nat) (data : List Byte) : List Byte :=
  let k1 := aesKeys (key.take 32)
  let k2 := aesKeys (slice key 32 32)
  let t0 := leNat ((aesEncrypt k2 ((natLe 16 tweak).map (·.toNat))).map (BitVec.ofNat 8))
  xtsUnits enc k1 (chunks 16 (data.length / 16) data) (xtsAlphaN unit t0)

/-- First four bytes of AES-256 of a zero block under the data key (VAULT_KEY_CHECK, Table 4.5). -/
def vaultCheck (key : List Byte) : Nat :=
  leNat (((aesEncrypt (aesKeys (key.take 32)) (List.replicate 16 0)).map (BitVec.ofNat 8)).take 4)

/-! ### ECDSA over P-256 (R253) -/

def p256p : Nat := 0xffffffff00000001000000000000000000000000ffffffffffffffffffffffff
def p256n : Nat := 0xffffffff00000000ffffffffffffffffbce6faada7179e84f3b9cac2fc632551
def p256b : Nat := 0x5ac635d8aa3a93e7b3ebbd55769886bc651d06b0cc53b0f63bce3c3e27d2604b
def p256g : Nat × Nat :=
  (0x6b17d1f2e12c4247f8bce6e563a440f277037d812deb33a0f4a13945d898c296,
   0x4fe342e2fe1a7f9b8ee7eb4a7c0f9e162bce33576b315ececbb6406837bf51f5)

/-- a^e mod m over the low n bits of e. -/
def powMod : (n a e m : Nat) → Nat
  | 0, _, _, m => 1 % m
  | n + 1, a, e, m => (if e % 2 = 1 then a else 1) * powMod n (a * a % m) (e / 2) m % m

def invMod (a m : Nat) : Nat := powMod 256 (a % m) (m - 2) m

/-- Sum of two points; none is the point at infinity. -/
def ecAdd (a b : Option (Nat × Nat)) : Option (Nat × Nat) :=
  match a, b with
  | none, q => q
  | p, none => p
  | some (x1, y1), some (x2, y2) =>
    if x1 = x2 ∧ (y1 + y2) % p256p = 0 then none
    else
      let l := if x1 = x2 then (3 * x1 * x1 + (p256p - 3)) * invMod (2 * y1) p256p % p256p
        else (y2 + p256p - y1) * invMod (x2 + p256p - x1) p256p % p256p
      let x3 := (l * l + 2 * p256p - x1 - x2) % p256p
      some (x3, (l * (x1 + p256p - x3) + p256p - y1) % p256p)

def ecMul : (n k : Nat) → Option (Nat × Nat) → Option (Nat × Nat)
  | 0, _, _ => none
  | n + 1, k, q => ecAdd (if k % 2 = 1 then q else none) (ecMul n (k / 2) (ecAdd q q))

/-- ECDSA verification (FIPS 186) of r ‖ s over SHA-256 of the message under the public key x ‖ y. -/
def ecdsaVerify (pub msg sig : List Byte) : Bool :=
  let x := beNat (slice pub 0 32)
  let y := beNat (slice pub 32 32)
  let r := beNat (slice sig 0 32)
  let s := beNat (slice sig 32 32)
  let onCurve := decide (x < p256p) && decide (y < p256p) && decide (y * y % p256p = (x * x * x + (p256p - 3) * x + p256b) % p256p)
  let w := invMod s p256n
  let z := beNat (sha256 msg)
  match ecAdd (ecMul 256 (z * w % p256n) (some p256g)) (ecMul 256 (r * w % p256n) (some (x, y))) with
  | none => false
  | some (rx, _) => onCurve && decide (0 < r) && decide (r < p256n) && decide (0 < s) && decide (s < p256n) && decide (rx % p256n = r)

end Sys2Proof.Machine
end

