-- ==== Sys2Proof/Machine/Float.lean ====
section
/-! DEFINITION. Floating-point numbers as exact values with explicit rounding: the element types of Table 3.1 and IEEE binary32
(R52, R65, R102). A value is converted to a mantissa and an exponent, computed exactly, and rounded once per operation. -/

namespace Sys2Proof.Machine

/-- A floating-point value: a NaN with its binary32 fraction, an infinity, or (-1)^neg * mant * 2^exp. -/
inductive Num where
  | nan (neg : Bool) (frac : Nat)
  | inf (neg : Bool)
  | fin (neg : Bool) (mant : Nat) (exp : Int)
  deriving DecidableEq, Repr

/-- The default NaN (R52): positive, quiet bit set, other fraction bits zero. -/
def Num.dflt : Num := .nan false 0x400000

/-- Positive zero. -/
def Num.zero : Num := .fin false 0 0

/-- A NaN with its quiet bit (fraction bit 22) set (R52). -/
def quiet (frac : Nat) : Nat := frac ||| 0x400000

/-- An IEEE pattern with eb exponent bits and mb fraction bits; a NaN's fraction goes to the top of the binary32 fraction (R52). -/
def unpackIeee (eb mb b : Nat) : Num :=
  let neg := bit b (eb + mb)
  let e := bits b mb eb
  let f := bits b 0 mb
  let bias : Int := 2 ^ (eb - 1) - 1
  if e = 2 ^ eb - 1 then (if f = 0 then .inf neg else .nan neg (f * 2 ^ (23 - mb)))
  else if e = 0 then .fin neg f (1 - bias - mb)
  else .fin neg (f + 2 ^ mb) (e - bias - mb)

/-- m / 2^k rounded to nearest, ties to even. -/
def roundShift (m k : Nat) : Nat :=
  if k = 0 then m
  else
    let q := m / 2 ^ k
    let r := m % 2 ^ k
    if r > 2 ^ (k - 1) || (r == 2 ^ (k - 1) && q % 2 == 1) then q + 1 else q

/-- Magnitude pattern of mant * 2^exp rounded to nearest even in a format with mb fraction bits and the given bias; may exceed
the largest finite pattern, which the caller turns into an infinity or a saturated value. -/
def packMag (bias mb mant : Nat) (exp : Int) : Nat :=
  if mant = 0 then 0
  else
    let emin : Int := 1 - bias
    let l : Int := Nat.log2 mant + exp
    let e := if l < emin then emin else l
    let q := e - mb
    let n := if exp ≥ q then mant * 2 ^ (exp - q).toNat else roundShift mant (q - exp).toNat
    n + (e - emin).toNat * 2 ^ mb

/-- Pattern of a value in an IEEE format: overflow gives infinity; a NaN keeps its sign and the top fraction bits (R52). -/
def packIeee (eb mb : Nat) : Num → Nat
  | .nan neg f => b2n neg * 2 ^ (eb + mb) + (2 ^ eb - 1) * 2 ^ mb + f / 2 ^ (23 - mb)
  | .inf neg => b2n neg * 2 ^ (eb + mb) + (2 ^ eb - 1) * 2 ^ mb
  | .fin neg m e => b2n neg * 2 ^ (eb + mb) + min (packMag (2 ^ (eb - 1) - 1) mb m e) ((2 ^ eb - 1) * 2 ^ mb)

/-- A binary32 pattern as a value. -/
def ofF32 (b : Nat) : Num := unpackIeee 8 23 b

/-- The binary32 pattern of a value, rounded to nearest even. -/
def toF32 (x : Num) : Nat := packIeee 8 23 x

/-- A value rounded to binary32. -/
def r32 (x : Num) : Num := ofF32 (toF32 x)

/-- A BF16 pattern as a value. -/
def ofBf16 (b : Nat) : Num := unpackIeee 8 7 b

/-- The exact product of two values; 0 times infinity is the default NaN (R52); a NaN operand gives that NaN quieted. -/
def mulExact : Num → Num → Num
  | .nan s f, _ => .nan s (quiet f)
  | _, .nan s f => .nan s (quiet f)
  | .inf s, .inf t => .inf (s != t)
  | .inf s, .fin t m _ => if m = 0 then Num.dflt else .inf (s != t)
  | .fin t m _, .inf s => if m = 0 then Num.dflt else .inf (s != t)
  | .fin s m e, .fin t n g => .fin (s != t) (m * n) (e + g)

/-- A signed mantissa. -/
def sgn (neg : Bool) (m : Nat) : Int := if neg then -(m : Int) else m

/-- The exact sum of two values; infinities of opposite sign give the default NaN (R52); an exact zero of unlike signs is +0. -/
def addExact : Num → Num → Num
  | .nan s f, _ => .nan s (quiet f)
  | _, .nan s f => .nan s (quiet f)
  | .inf s, .inf t => if s = t then .inf s else Num.dflt
  | .inf s, _ => .inf s
  | _, .inf s => .inf s
  | .fin s m e, .fin t n g =>
    let lo := if e < g then e else g
    let v := sgn s (m * 2 ^ (e - lo).toNat) + sgn t (n * 2 ^ (g - lo).toNat)
    if v = 0 then .fin (s && t) 0 lo else .fin (decide (v < 0)) v.natAbs lo

/-- Sign change. -/
def negNum : Num → Num
  | .nan s f => .nan s f
  | .inf s => .inf !s
  | .fin s m e => .fin (!s) m e

def mul32 (a b : Num) : Num := r32 (mulExact a b)
def add32 (a b : Num) : Num := r32 (addExact a b)
def sub32 (a b : Num) : Num := r32 (addExact a (negNum b))

/-- a / b rounded to binary32: the quotient is carried to 80 bits below the mantissa with a sticky bit. -/
def div32 : Num → Num → Num
  | .nan s f, _ => .nan s (quiet f)
  | _, .nan s f => .nan s (quiet f)
  | .inf _, .inf _ => Num.dflt
  | .inf s, .fin t _ _ => .inf (s != t)
  | .fin s _ _, .inf t => .fin (s != t) 0 0
  | .fin s m e, .fin t n g =>
    if n = 0 then (if m = 0 then Num.dflt else .inf (s != t))
    else
      let k := 80 + Nat.log2 n
      let num := m * 2 ^ k
      let q := num / n
      let st := if num % n = 0 then 0 else 1
      r32 (.fin (s != t) (2 * q + st) (e - g - k - 1))

/-- a < b, false with a NaN. -/
def ltNum : Num → Num → Bool
  | .nan _ _, _ => false
  | _, .nan _ _ => false
  | .inf s, .inf t => s && !t
  | .inf s, _ => s
  | _, .inf t => !t
  | .fin s m e, .fin t n g =>
    let lo := if e < g then e else g
    decide (sgn s (m * 2 ^ (e - lo).toNat) < sgn t (n * 2 ^ (g - lo).toNat))

/-- Whether a value is a zero of either sign. -/
def isZero : Num → Bool
  | .fin _ 0 _ => true
  | _ => false

def isNan : Num → Bool
  | .nan _ _ => true
  | _ => false

/-- a >= b, false with a NaN. -/
def geNum (a b : Num) : Bool := !isNan a && !isNan b && !ltNum a b

/-- Whether a value is neither a NaN nor an infinity. -/
def isFin : Num → Bool
  | .fin _ _ _ => true
  | _ => false

/-- An integer as a value. -/
def ofInt (i : Int) : Num := .fin (decide (i < 0)) i.natAbs 0

/-- Two's-complement value of a w-bit pattern. -/
def toSigned (w b : Nat) : Int := if b < 2 ^ (w - 1) then b else (b : Int) - 2 ^ w

/-- Two's-complement pattern of an integer on w bits. -/
def ofSigned (w : Nat) (i : Int) : Nat := (i % (2 ^ w : Int)).toNat

/-- Nearest integer, ties to even. -/
def roundInt (neg : Bool) (m : Nat) (e : Int) : Int :=
  sgn neg (if e ≥ 0 then m * 2 ^ e.toNat else roundShift m (-e).toNat)

/-- FP8 E4M3: no infinities, 0x7F and 0xFF are NaN (Table 3.1, R52). -/
def ofE4m3 (b : Nat) : Num :=
  let neg := bit b 7
  let e := bits b 3 4
  let f := bits b 0 3
  if e = 15 ∧ f = 7 then .nan neg (7 * 2 ^ 20)
  else if e = 0 then .fin neg f (-9)
  else .fin neg (f + 8) ((e : Int) - 10)

/-- FP8 E4M3 of a value: nearest even, saturating at 448; a NaN gives 0x7F with its sign (R52). -/
def toE4m3 : Num → Nat
  | .nan neg _ => b2n neg * 128 + 0x7F
  | .inf neg => b2n neg * 128 + 0x7E
  | .fin neg m e => b2n neg * 128 + min (packMag 7 3 m e) 0x7E

/-- INT8 of a value: nearest even, saturating; a NaN gives 0 (R52). -/
def toInt8 : Num → Nat
  | .nan _ _ => 0
  | .inf neg => if neg then 0x80 else 0x7F
  | .fin neg m e =>
    let i := roundInt neg m (if e > 40 then 40 else e)
    ofSigned 8 (if i < -128 then -128 else if i > 127 then 127 else i)

/-- Bytes of one element of a type of Table 3.1 (1 for OPAQUE). -/
def elemBytes (t : Nat) : Nat := if t = 1 ∨ t = 2 then 2 else 1

/-- Whether the type is coded (Table 3.1). -/
def elemCoded (t : Nat) : Bool := decide (1 ≤ t ∧ t ≤ 4)

/-- The value of an element pattern, exact (R52). -/
def ofElem (t b : Nat) : Num :=
  match t with
  | 1 => ofBf16 b
  | 2 => unpackIeee 5 10 b
  | 3 => ofE4m3 b
  | _ => ofInt (toSigned 8 b)

/-- The element pattern of a value, by the conversions of R52. -/
def toElem (t : Nat) (x : Num) : Nat :=
  match t with
  | 1 => packIeee 8 7 x
  | 2 => packIeee 5 10 x
  | 3 => toE4m3 x
  | _ => toInt8 x

/-- The elements of a byte string, ascending (spec/03_block_format.md section 3.1). -/
def elems (t : Nat) (bs : List Byte) : List Nat := (chunks (elemBytes t) bs.length bs).map leNat

/-- The byte string of a list of elements. -/
def elemsBytes (t : Nat) (es : List Nat) : List Byte := es.flatMap (natLe (elemBytes t))

end Sys2Proof.Machine
end

