-- ==== Sys2Proof/Machine/BlockFormat.lean ====
section
/-! DEFINITION. The coded block format: header, modes, expansion, checks (R48-R56), page images (R33, R66). -/

namespace Sys2Proof.Machine

/-- Granules of a block with a granule code (Table 2.7). -/
def codeGranules (code : Nat) : Nat := if code = 15 then 32 else code

/-- The mode of subvector s from MODE_MAP (Table 3.2). -/
def modeOf (blk : List Byte) (s : Nat) : Nat := bits (field blk (0x10 + s / 4) 1) (2 * (s % 4)) 2

/-- The 128 modes of a block. -/
def modes (blk : List Byte) : List Nat := (upto 128).map (modeOf blk)

/-- Number of subvectors in a mode. -/
def countMode (ms : List Nat) (m : Nat) : Nat := (ms.filter (· == m)).length

/-- Payload bytes of a mode map (R50). -/
def payloadBytes (ms : List Nat) : Nat := countMode ms 1 + 5 * countMode ms 2 + 16 * countMode ms 3

/-- LENGTH of a mode map (R50). -/
def lengthOf (ms : List Nat) : Nat := 1 + ceilDiv (payloadBytes ms) 64

/-- Residual r_k of a residual word (R51). -/
def residual (word k : Nat) : Int := toSigned 4 (bits word (4 * k) 4)

/-- The residual index of element j (R51): k = j for two-byte elements, j / 2 for one-byte elements. -/
def residualIndex (t j : Nat) : Nat := if elemBytes t = 2 then j else j / 2

/-- One element rebuilt in mode CODE+RESIDUAL (R52). -/
def rebuild (t e : Nat) (r : Int) (scale : Num) : Nat :=
  toElem t (add32 (ofElem t e) (mul32 (ofInt r) scale))

/-- Entry i of codebook c of a set (section 3.9). -/
def entryOf (set : List Byte) (c i : Nat) : List Byte := slice set (c * 4096 + 16 * i) 16

/-- The 16 bytes of a CODE+RESIDUAL subvector (R52). -/
def rebuildSub (t : Nat) (entry : List Byte) (word : Nat) (scale : Num) : List Byte :=
  elemsBytes t ((elems t entry).zipIdx.map fun p => rebuild t p.1 (residual word (residualIndex t p.2)) scale)

/-- Expansion of the subvectors from the three areas of the payload (R50, R52). -/
def expandSubs (t : Nat) (set : List Byte) (c : Nat) (scale : Num) :
    List Nat → (code res esc : List Byte) → List Byte
  | [], _, _, _ => []
  | 0 :: ms, cs, rs, es => List.replicate 16 0 ++ expandSubs t set c scale ms cs rs es
  | 1 :: ms, cs, rs, es => entryOf set c (field cs 0 1) ++ expandSubs t set c scale ms (cs.drop 1) rs es
  | 2 :: ms, cs, rs, es =>
    rebuildSub t (entryOf set c (field cs 0 1)) (field rs 0 4) scale
      ++ expandSubs t set c scale ms (cs.drop 1) (rs.drop 4) es
  | _ :: ms, cs, rs, es => slice es 0 16 ++ expandSubs t set c scale ms cs rs (es.drop 16)

/-- The 2048 bytes a coded block expands to (R52). -/
def expandBlock (t : Nat) (set blk : List Byte) : List Byte :=
  let ms := modes blk
  let nC := countMode ms 1 + countMode ms 2
  let nR := countMode ms 2
  let c := bits (field blk 2 1) 0 2
  let scale := ofBf16 (field blk 4 2)
  expandSubs t set c scale ms (blk.drop 0x40) (blk.drop (0x40 + nC)) (blk.drop (0x40 + nC + 4 * nR))

/-- CRC-32C of a coded block with its CRC field taken as zero (R54). -/
def blockCrc (blk : List Byte) : Nat := crc32c (patch blk 8 [0, 0, 0, 0])

/-- What the checks of R56 compare with: REGION_ELEMENT, the live slots, the page's CB_VERSION, CB_COUNT and the granule code. -/
structure CheckCtx where
  element : Nat
  live : List Nat
  cbv : Nat
  cbCount : Nat
  code : Nat
  deriving DecidableEq, Repr

/-- Reserved bytes and fields of the header are zero (check 3 of R56). -/
def reservedZero (blk : List Byte) : Bool :=
  bits (field blk 2 1) 6 2 == 0 && field blk 7 1 == 0 && field blk 0x0C 4 == 0 && allZero (slice blk 0x30 16)

/-- RESIDUAL_SCALE is acceptable (check 6 of R56). -/
def scaleOk (ms : List Nat) (scale : Nat) : Bool :=
  if countMode ms 2 = 0 then scale == 0
  else !bit scale 15 && decide (1 ≤ bits scale 7 8 ∧ bits scale 7 8 ≤ 254)

/-- The first failing check of R56, in its order; none when the block passes. -/
def checkBlock (x : CheckCtx) (blk : List Byte) : Option Nat :=
  let ms := modes blk
  let cbByte := field blk 2 1
  let len := field blk 6 1
  if field blk 0 1 ≠ 0x5A then some 1
  else if field blk 1 1 ≠ x.element ∨ !elemCoded x.element then some 2
  else if !reservedZero blk then some 3
  else if !x.live.contains (bits cbByte 2 4) ∨ bits cbByte 2 4 ≠ x.cbv ∨ bits cbByte 0 2 ≥ x.cbCount then some 4
  else if field blk 3 1 ≠ countMode ms 3 ∨ countMode ms 3 > 16 then some 5
  else if !scaleOk ms (field blk 4 2) then some 6
  else if len ≠ lengthOf ms ∨ len ≠ x.code ∨ len > 14 then some 7
  else if !allZero (slice blk (0x40 + payloadBytes ms) (64 * len - 0x40 - payloadBytes ms)) then some 8
  else if field blk 8 4 ≠ blockCrc (blk.take (64 * len)) then some 9
  else none

/-- Granules of the distance image of a page (R33). -/
def imageGranules (gran : List Nat) : Nat := total (gran.map codeGranules)

/-- Plots of a run that holds n granules (R33). -/
def plotsFor (n : Nat) : Nat := ceilDiv n 64

/-- Granule offset of block b in the image (R33). -/
def imageOffset (gran : List Nat) (b : Nat) : Nat := imageGranules (gran.take b)

/-- GRANULES as 16 bytes (Table 2.5). -/
def packGranules (gran : List Nat) : List Byte :=
  (upto 16).map fun i => BitVec.ofNat 8 (nth gran 0 (2 * i) + 16 * nth gran 0 (2 * i + 1))

/-- GRANULES from 16 bytes. -/
def unpackGranules (bs : List Byte) : List Nat := (upto 32).map fun b => bits (field bs (b / 2) 1) (4 * (b % 2)) 4

/-- The page image of R66: header and the blocks of non-zero code in order (each given at its size). -/
def pageImage (element cbv : Nat) (gran : List Nat) (blocks : List (List Byte)) : List Byte :=
  let n := 1 + imageGranules gran
  let body := ((gran.zip blocks).filter fun p => p.1 != 0).flatMap fun p => slice p.2 0 (64 * codeGranules p.1)
  let head := packGranules gran ++ [0xA5, BitVec.ofNat 8 element, BitVec.ofNat 8 cbv, 0] ++ natLe 4 n
    ++ [0, 0, 0, 0] ++ List.replicate 36 0
  patch (head ++ body) 0x18 (natLe 4 (crc32c (head ++ body)))

/-- The blocks of an image body, each at its size (R33, R66). -/
def splitImage : List Nat → List Byte → List (List Byte)
  | [], _ => []
  | g :: r, bs => bs.take (64 * codeGranules g) :: splitImage r (bs.drop (64 * codeGranules g))

/-- The checks of R67 on the image itself, in order, after the page, region and LENGTH checks; live excludes retiring slots. -/
def imageOk (element : Nat) (live allLive : List Nat) (cbCount length : Nat) (img : List Byte) : Bool :=
  let gran := unpackGranules (slice img 0 16)
  let n := field img 0x14 4
  let cbv := field img 0x12 1
  let whole := slice img 0 (64 * n)
  decide (length ≥ 64 * n) && field img 0x10 1 == 0xA5 && field img 0x13 1 == 0 && allZero (slice img 0x1C 36)
    && n == 1 + imageGranules gran && field img 0x18 4 == crc32c (patch whole 0x18 [0, 0, 0, 0])
    && field img 0x11 1 == element && live.contains cbv
    && (gran.zip (splitImage gran (whole.drop 64))).all fun p =>
        p.1 == 0 || p.1 == 15 || (checkBlock ⟨element, allLive, cbv, cbCount, p.1⟩ p.2).isNone

end Sys2Proof.Machine
end

