-- ==== Sys2Proof/Machine/Coder.lean ====
section
/-! DEFINITION. The coder of a relay engine (R53, R59, R60) and the first-pass codebook build (R65). -/

namespace Sys2Proof.Machine

/-- Binary exponent of a finite non-zero value. -/
def binExp : Num → Option Int
  | .fin _ m e => if m = 0 then none else some (Nat.log2 m + e)
  | _ => none

/-- Largest binary exponent among the finite non-zero elements. -/
def maxExp (t : Nat) (es : List Nat) : Option Int :=
  es.foldl (fun acc e => match binExp (ofElem t e), acc with
    | none, a => a
    | some x, none => some x
    | some x, some a => some (if a < x then x else a)) none

/-- The candidate scale of R60 step 1 as a BF16 pattern; none when the block has no finite non-zero element. -/
def candidateScale (t : Nat) (es : List Nat) : Option Nat :=
  (maxExp t es).map fun e =>
    if t = 4 then 0x3F80
    else
      let m : Int := if t = 1 then 7 else if t = 2 then 10 else 3
      let x := if e - m < -126 then -126 else e - m
      (x + 127).toNat * 128

/-- Residuals in the order of preference: smallest magnitude first, of two the negative one (R60 step 2). -/
def residualOrder : List Int := [0, -1, 1, -2, 2, -3, 3, -4, 4, -5, 5, -6, 6, -7, 7, -8]

/-- The residual for one group of elements (pairs of entry and target), none if no value rebuilds them all. -/
def findResidual (t : Nat) (scale : Num) (ps : List (Nat × Nat)) : Option Int :=
  residualOrder.find? fun r => ps.all fun p => rebuild t p.1 r scale == p.2

/-- The residual word that rebuilds a subvector from an entry; groups are one element or two (R51). -/
def residualWord (t : Nat) (scale : Num) (entry target : List Byte) : Option Nat :=
  let ps := (elems t entry).zip (elems t target)
  let groups := (upto 8).map fun k => if elemBytes t = 2 then (ps.drop k).take 1 else (ps.drop (2 * k)).take 2
  let rec go : List (List (Nat × Nat)) → Nat → Option Nat
    | [], _ => some 0
    | g :: gs, k =>
      match findResidual t scale g with
      | none => none
      | some r => (go gs (k + 1)).map fun w => ofSigned 4 r * 2 ^ (4 * k) + w
  go groups 0

/-- How one subvector is coded: mode, code byte, residual word. -/
structure SubCode where
  mode : Nat
  code : Nat
  word : Nat
  raw : List Byte
  deriving DecidableEq, Repr

/-- Lowest index whose entry gives residuals (R60 step 2). -/
def findResEntry (t : Nat) (scale : Num) (target : List Byte) : List (List Byte × Nat) → Option (Nat × Nat)
  | [] => none
  | (e, i) :: r =>
    match residualWord t scale e target with
    | some w => some (i, w)
    | none => findResEntry t scale target r

/-- The mode of one subvector against one codebook (R60 step 2). -/
def codeSub (t : Nat) (scale : Option Num) (book : List (List Byte × Nat)) (v : List Byte) : SubCode :=
  if allZero v then ⟨0, 0, 0, v⟩
  else
    match book.find? (fun p => p.1 == v) with
    | some (_, i) => ⟨1, i, 0, v⟩
    | none =>
      match scale.bind fun s => findResEntry t s v book with
      | some (i, w) => ⟨2, i, w, v⟩
      | none => ⟨3, 0, 0, v⟩

/-- MODE_MAP bytes of 128 modes. -/
def modeMap (ms : List Nat) : List Byte :=
  (upto 32).map fun i => BitVec.ofNat 8 (nth ms 0 (4 * i) + 4 * nth ms 0 (4 * i + 1) + 16 * nth ms 0 (4 * i + 2)
    + 64 * nth ms 0 (4 * i + 3))

/-- The bytes of a coded block (R48-R51, R54). -/
def assemble (t version c : Nat) (scale : Nat) (subs : List SubCode) : List Byte :=
  let ms := subs.map (·.mode)
  let len := lengthOf ms
  let head := [0x5A, BitVec.ofNat 8 t, BitVec.ofNat 8 (4 * version + c), BitVec.ofNat 8 (countMode ms 3)]
    ++ natLe 2 (if countMode ms 2 = 0 then 0 else scale) ++ [BitVec.ofNat 8 len, 0] ++ List.replicate 8 0
    ++ modeMap ms ++ List.replicate 16 0
  let codes := (subs.filter fun s => s.mode == 1 || s.mode == 2).map fun s => BitVec.ofNat 8 s.code
  let words := (subs.filter fun s => s.mode == 2).flatMap fun s => natLe 4 s.word
  let escs := (subs.filter fun s => s.mode == 3).flatMap (·.raw)
  let blk := slice (head ++ codes ++ words ++ escs) 0 (64 * len)
  patch blk 8 (natLe 4 (blockCrc blk))

/-- A block coded against one codebook: its LENGTH, ESCAPES and bytes, none outside the limits of R55. -/
def codeWith (t version : Nat) (set : List Byte) (subs : List (List Byte)) (scale : Option Nat) (c : Nat) :
    Option (Nat × Nat × List Byte) :=
  let book := (upto 256).map fun i => (entryOf set c i, i)
  let cs := subs.map (codeSub t (scale.map ofBf16) book)
  let ms := cs.map (·.mode)
  if countMode ms 3 ≤ 16 ∧ lengthOf ms ≤ 14 then
    some (lengthOf ms, countMode ms 3, assemble t version c (scale.getD 0) cs)
  else none

/-- The coder (R60): the shortest result, ties to the lowest CB_ID; none means the block is stored RAW. -/
def codeBlock (t cbCount version : Nat) (set blk : List Byte) : Option (Nat × Nat × List Byte) :=
  let subs := chunks 16 128 blk
  let scale := candidateScale t (elems t blk)
  (upto cbCount).foldl (fun best c =>
    match codeWith t version set subs scale c, best with
    | none, b => b
    | some x, none => some x
    | some x, some b => if x.1 < b.1 then some x else some b) none

/-- One step of the Galois LFSR of R65. -/
def lfsrNext (v : Nat) : Nat := if v % 2 = 1 then (v / 2) ^^^ 0x80200003 else v / 2

/-- The samples of one class (R65): pages in seal order, each the 32 current blocks (none for code 0x0). -/
def buildSamples (t : Nat) (cls : List (List (Option (List Byte)))) : List (List Num) :=
  let pc := cls.length
  if pc = 0 then []
  else (upto 4096).filterMap fun j =>
    let i := j * pc / 4096
    let b := j % 32
    let s := ((j / 32) * 13 + i) % 128
    match nth (nth cls [] i) none b with
    | none => none
    | some blk =>
      let v := slice blk (16 * s) 16
      let xs := (elems t v).map (ofElem t)
      if allZero v || xs.any (fun x => !isFin x) then none else some xs

/-- Binary32 sum in order. -/
def sum32 (xs : List Num) : Num := xs.foldl add32 Num.zero

/-- Binary32 sum of squared element differences (R65). -/
def dist2 (x y : List Num) : Num :=
  sum32 (List.zipWith (fun a b => let d := sub32 a b; mul32 d d) x y)

/-- Seeding: the sample at which the running sum reaches t; the last non-zero one otherwise. -/
def pickSeed (t : Num) : List (List Num × Num) → Num → Option (List Num) → Option (List Num)
  | [], _, p => p
  | (x, d) :: r, acc, p =>
    if isZero d then pickSeed t r acc p
    else
      let acc' := add32 acc d
      if geNum acc' t then some x else pickSeed t r acc' (some x)

/-- k-means++ seeding of the remaining centres; returns the centres in reverse and the LFSR. -/
def seedLoop (xs : List (List Num)) : (n : Nat) → Nat → List Num → List (List Num) → List (List Num) × Nat
  | 0, l, _, ctrs => (ctrs, l)
  | n + 1, l, d2, ctrs =>
    let tot := sum32 d2
    let last := ctrs.headD []
    if isZero tot then seedLoop xs n l d2 (last :: ctrs)
    else
      let l' := lfsrNext l
      let u := div32 (r32 (ofInt l')) (ofInt 4294967296)
      let c := (pickSeed (mul32 u tot) (xs.zip d2) Num.zero none).getD last
      seedLoop xs n l' (List.zipWith (fun x d => let e := dist2 x c; if ltNum e d then e else d) xs d2) (c :: ctrs)

/-- Index of the nearest centre, lowest on a tie. -/
def nearest (ctrs : List (List Num)) (x : List Num) : Nat :=
  ((ctrs.zipIdx.foldl (fun (best : Option (Nat × Num)) p =>
    let d := dist2 x p.1
    match best with
    | none => some (p.2, d)
    | some b => if ltNum d b.2 then some (p.2, d) else best) none).map (·.1)).getD 0

/-- Mean of the members, summed in sample order from +0, so that members which are all -0 have the mean +0 (R65; DEDUCED, log entry
80). -/
def meanOf (xs : List (List Num)) : List Num :=
  match xs with
  | [] => []
  | x :: r =>
    let z := x.map fun _ => Num.zero
    ((x :: r).foldl (fun acc y => List.zipWith add32 acc y) z).map fun v => div32 v (ofInt xs.length)

/-- One Lloyd iteration. -/
def lloyd (xs ctrs : List (List Num)) : List (List Num) :=
  let own := xs.map fun x => (x, nearest ctrs x)
  ctrs.zipIdx.map fun p =>
    match (own.filter fun o => o.2 == p.2).map (·.1) with
    | [] => p.1
    | ms => meanOf ms

/-- The codebook of one class (4 KiB) and the LFSR after it (R65). -/
def buildBook (t l : Nat) (cls : List (List (Option (List Byte)))) : List Byte × Nat :=
  let xs := buildSamples t cls
  if xs.isEmpty then (List.replicate 4096 0, l)
  else
    let l1 := lfsrNext l
    let c0 := nth xs [] (l1 % xs.length)
    let (rev, l2) := seedLoop xs 255 l1 (xs.map fun x => dist2 x c0) [c0]
    let ctrs := lloyd xs (lloyd xs (lloyd xs rev.reverse))
    (ctrs.flatMap fun c => elemsBytes t (c.map (toElem t)), l2)

/-- The set of R65, 16 KiB: pages are (logical page number, current blocks) in seal order. -/
def buildSet (t cbCount classShift seed : Nat) (pages : List (Nat × List (Option (List Byte)))) : List Byte :=
  let r := (upto cbCount).foldl (fun (acc : List Byte × Nat) c =>
    let cls := (pages.filter fun p => (p.1 / 2 ^ classShift) % cbCount == c).map (·.2)
    let (bk, l) := buildBook t acc.2 cls
    (acc.1 ++ bk, l)) ([], seed)
  slice r.1 0 16384

end Sys2Proof.Machine
end

