-- ==== Sys2Proof/Machine/Memory.lean ====
section
/-! DEFINITION. Addressed memories of the T9 (sprint stacks R157, distance channels R137, SRAM of the coach cores) as lists of
cells in one canonical form. An unlisted address reads as zero: the distance tier is zero-filled at a cold start (R139); of the
sprint tier and of SRAM the manual says nothing, and zero is the model's choice (DESIGN CHOICE, log entry 7, unsafe). -/

namespace Sys2Proof.Machine

/-- A memory: cells at strictly rising addresses, none of them zero. -/
abbrev Memory := List Host.Cell

/-- What an unlisted address reads as. -/
def Memory.unlisted : Byte := 0

/-- One byte. -/
def Memory.read (m : Memory) (a : Nat) : Byte := mget m Memory.unlisted a

/-- One byte written. -/
def Memory.write (m : Memory) (a : Nat) (v : Byte) : Memory := mput m Memory.unlisted a v

/-- len bytes from an address upward. -/
def Memory.readN (m : Memory) (a : Nat) : (len : Nat) → List Byte
  | 0 => []
  | n + 1 => m.read a :: Memory.readN m (a + 1) n

/-- Bytes written from an address upward. -/
def Memory.writeN (m : Memory) (a : Nat) : List Byte → Memory
  | [] => m
  | b :: r => Memory.writeN (m.write a b) (a + 1) r

/-- A masked write: none leaves its byte as it is (MemWrPtl, R173). -/
def Memory.writeMasked (m : Memory) (a : Nat) : List (Option Byte) → Memory
  | [] => m
  | none :: r => Memory.writeMasked m (a + 1) r
  | some b :: r => Memory.writeMasked (m.write a b) (a + 1) r

/-- The canonical form. -/
def Memory.wf (m : Memory) : Bool := mwf Memory.unlisted m

end Sys2Proof.Machine
end

