-- ==== Sys2Proof/Machine/CoreOps.lean ====
section
/-! DEFINITION. One coach core and its context, window and trap operations (spec/11_coach_cores.md). The ordinary instructions
are not documented (section 11.1), so a core here runs only what the commands name. -/

namespace Sys2Proof.Machine

/-- What a core does about a window it needs and cannot have yet (R239). -/
inductive CoreWait where
  | none
  /-- A CALLW waits for a spill; pc still names it. -/
  | call (offset : BitVec 26)
  /-- An entry waits for a spill: cause, number for ecause[15:8], the epc it will save. -/
  | entry (cause number : Nat) (epc : Word)
  /-- A RETW, RETI or CUTW waits for a fill; pc is already the target. -/
  | fill
  /-- The window of a hook call waits for a spill: entry of the hook, its arguments. -/
  | hook (entry : Nat) (args : List Nat)
  deriving DecidableEq, Repr

/-- CORE_STATE values used by R246: 0 running, 1 halted, 2 restarting. -/
structure Core where
  state : Nat
  g : List Word
  /-- 12 windows of 16 registers, window 0 first. -/
  win : List Word
  pc : Word
  cstat : Word
  estat : Word
  epc : Word
  ecause : Word
  evec : Word
  tallyFrame : Word
  ksp : Word
  usp : Word
  ctxhead : Word
  tpc : Word
  tstat : Word
  ctxtop : Word
  ctxlimit : Word
  lockerHi : Nat
  ovfLimit : Nat
  perfWpfetch : Word
  /-- Newest window of the ring, 0-10. -/
  top : Nat
  /-- Resident windows of the ring; they end at top. -/
  resident : Nat
  /-- Spilled windows, newest first (positions spill_count - 1 downward). -/
  spilled : List (List Word)
  /-- A spill is under way. -/
  spilling : Bool
  wait : CoreWait
  /-- V0-V7, then TSTATUS. -/
  tally : List Byte
  sram : Memory
  /-- Trap scratch of the locker, by locker offset (R241). -/
  scratch : Memory
  /-- Policy SRAM by offset, core 3 only (section 11.9). -/
  policySram : Memory
  /-- Interrupt lines displaced by OVERFLOW and still pending (R243). -/
  irq : List Nat
  /-- Heartbeat seen within 1 ms (R37): lost when the watchdog fires, regained by a restart. -/
  heartbeat : Bool
  /-- Double faults since SET. -/
  doubleFaults : Nat
  deriving DecidableEq, Repr

/-- A core after SYS_RST_N: the resets of Table 11.3; registers without a reset value hold 0 (DESIGN CHOICE, log entry 6). -/
def coreReset : Core :=
  { state := 0, g := List.replicate 8 0, win := List.replicate 192 0, pc := 0, cstat := 2, estat := 0, epc := 0,
    ecause := 0, evec := 0, tallyFrame := 0, ksp := 0, usp := 0, ctxhead := 0, tpc := 0, tstat := 0, ctxtop := 0,
    ctxlimit := 0, lockerHi := 1008, ovfLimit := 4096, perfWpfetch := 0, top := 0, resident := 1, spilled := [],
    spilling := false, wait := .none, tally := List.replicate 132 0, sram := [], scratch := [], policySram := [],
    irq := [], heartbeat := true, doubleFaults := 0 }

/-- Bit of cstat (Table 11.4). -/
def Core.ie (c : Core) : Bool := c.cstat.getLsbD 0
def Core.sup (c : Core) : Bool := c.cstat.getLsbD 1
def Core.pend (c : Core) : Bool := c.cstat.getLsbD 3
def Core.saved (c : Core) : Bool := c.cstat.getLsbD 4
def Core.tw (c : Core) : Bool := c.cstat.getLsbD 8

/-- A cstat value from its fields. -/
def mkCstat (ie sup pend saved tw : Bool) : Word :=
  BitVec.ofNat 32 (b2n ie + 2 * b2n sup + 8 * b2n pend + 16 * b2n saved + 256 * b2n tw)

/-- The RW fields of a value written to cstat, with TW as given (TW and Reserved are RO, Table 11.4). -/
def cstatOf (v : Word) (tw : Bool) : Word := mkCstat (v.getLsbD 0) (v.getLsbD 1) (v.getLsbD 3) (v.getLsbD 4) tw

/-- cwp: window 11 while TW is 1 (R238). -/
def Core.cwp (c : Core) : Nat := if c.tw then 11 else c.top
/-- wfree (Table 11.3). -/
def Core.wfree (c : Core) : Nat := 11 - c.resident
def Core.spillCount (c : Core) : Nat := c.spilled.length
/-- wdepth (Table 11.3). -/
def Core.wdepth (c : Core) : Nat := c.resident + c.spillCount

/-- Register of window w. -/
def Core.wreg (c : Core) (w i : Nat) : Word := nth c.win 0 (16 * w + i)

/-- The 16 registers of a window. -/
def Core.window (c : Core) (w : Nat) : List Word := (upto 16).map (c.wreg w)

/-- A window's registers replaced. -/
def Core.setWindow (c : Core) (w : Nat) (vs : List Word) : Core :=
  { c with win := c.win.take (16 * w) ++ (vs ++ List.replicate (16 - vs.length) 0).take 16 ++ c.win.drop (16 * w + 16) }

/-- Register number of an instruction: 0-7 globals, 8-23 the current window (section 11.2). -/
def Core.reg (c : Core) (r : Nat) : Word := if r < 8 then nth c.g 0 r else c.wreg c.cwp (r - 8)

/-- A register written; numbers 24-31 are illegal and never reach this. -/
def Core.setReg (c : Core) (r : Nat) (v : Word) : Core :=
  if r < 8 then { c with g := updAt c.g r fun _ => v }
  else { c with win := updAt c.win (16 * c.cwp + (r - 8)) fun _ => v }

def Core.setG (c : Core) (i : Nat) (v : Word) : Core := { c with g := updAt c.g i fun _ => v }

/-- The core halts (R245). -/
def Core.halt (c : Core) : Core := { c with state := 1, wait := .none, spilling := false }

/-- A double fault (R245). -/
def Core.doubleFault (c : Core) : Core := { c.halt with doubleFaults := c.doubleFaults + 1 }

/-- Whether the spill stack is full; ovf says whether the overflow area is reachable (R240). -/
def Core.spillFull (c : Core) (ovf : Bool) : Bool :=
  decide (c.spillCount ≥ if ovf then c.lockerHi + c.ovfLimit else c.lockerHi)

/-- The next window of the ring taken, with its registers given (R238). -/
def Core.takeWindow (c : Core) (regs : List Word) : Core :=
  let w := (c.top + 1) % 11
  { c.setWindow w regs with top := w, resident := c.resident + 1 }

/-- The overflow trap (R243): pc is the instruction that needed the window or the interrupted one; disp the displaced cause. -/
def Core.overflow (c : Core) (pc : Word) (disp : Option Nat) : Core :=
  let c1 := { c with
    tpc := pc, tstat := c.cstat, wait := .none,
    ecause := match disp with
      | none => c.ecause
      | some d => BitVec.ofNat 32 (setBits c.ecause.toNat 8 8 d)
    irq := match disp with
      | some d => if d < 32 ∧ !c.irq.contains d then c.irq ++ [d] else c.irq
      | none => c.irq
    cstat := mkCstat c.ie true c.pend c.saved true
    pc := c.evec + 0x2F0 }
  c1.setWindow 11 (List.replicate 16 0)

/-- Steps 3-5 of Table 11.6 once a window is free (R247). -/
def Core.enter (c : Core) (cause number : Nat) (epc : Word) : Core :=
  let user := !c.sup
  let c1 := (c.takeWindow (List.replicate 16 0))
  let sp := (if user then c.ksp else nth c.g 0 3) - 144
  let c2 := c1.setG 3 sp
  { c2 with
    epc := epc, estat := c.cstat, ecause := BitVec.ofNat 32 (cause + 256 * number),
    usp := if user then nth c.g 0 3 else c.usp,
    tallyFrame := sp, cstat := mkCstat false true true false false,
    pc := c.evec + BitVec.ofNat 32 (16 * cause), wait := .none,
    irq := c.irq.filter (· != cause) }

/-- Entry of a cause other than OVERFLOW (R242, R247): it waits at wfree 0, or becomes OVERFLOW. -/
def Core.entry (c : Core) (ovf : Bool) (cause number : Nat) (epc : Word) : Core :=
  if c.wfree = 0 then
    (if c.spillFull ovf then c.overflow c.pc (some cause) else { c with wait := .entry cause number epc })
  else c.enter cause number epc

/-- A synchronous trap: a double fault while TW is 1, else an entry with epc at the instruction (R242, R245). -/
def Core.trapAt (c : Core) (ovf : Bool) (cause : Nat) : Core :=
  if c.tw then c.doubleFault else c.entry ovf cause 0 c.pc

/-- The instruction is done. -/
def Core.advance (c : Core) : Core := { c with pc := c.pc + 4 }

/-- Sign extension of a 26-bit word offset, in bytes. -/
def callTarget (pc : Word) (off : BitVec 26) : Word := pc + (off.signExtend 32) * 4

/-- CALLW with a free window (R238). -/
def Core.doCall (c : Core) (off : BitVec 26) : Core :=
  { c.takeWindow (List.replicate 15 0 ++ [c.pc + 4]) with pc := callTarget c.pc off, wait := .none }

/-- CALLW (R238, R239, R243, R245). -/
def Core.callw (c : Core) (ovf : Bool) (off : BitVec 26) : Core :=
  if c.tw then c.doubleFault
  else if c.wfree = 0 then
    (if c.spillFull ovf then c.overflow c.pc none else { c with wait := .call off })
  else c.doCall off

/-- Core 3 enters a hook in user mode with g3 at the top of policy SRAM; the dispatcher's window stays below (R253). -/
def Core.hookCall (c : Core) (entry : Nat) (args : List Nat) : Core :=
  let c1 := c.takeWindow (List.replicate 15 0 ++ [c.pc])
  let c2 := (args.zipIdx).foldl (fun c a => c.setG (4 + a.2) (BitVec.ofNat 32 a.1)) (c1.setG 3 0x00480000)
  { c2 with
    pc := BitVec.ofNat 32 (0x00400000 + entry), cstat := mkCstat true false c.pend c.saved false, wait := .none }

/-- The dispatcher calls a hook: as for a CALLW its window can have to wait for a spill, or overflow (R239, R243, R253). -/
def Core.hookEnter (c : Core) (ovf : Bool) (entry : Nat) (args : List Nat) : Core :=
  if c.wfree = 0 then
    (if c.spillFull ovf then c.overflow c.pc none else { c with wait := .hook entry args })
  else c.hookCall entry args

/-- The newest window released; the caller's is filled back on demand when it was spilled (R238, R239). -/
def Core.releaseTop (c : Core) : Core :=
  if c.wdepth ≤ 1 then c
  else
    let c1 := { c with top := (c.top + 10) % 11, resident := c.resident - 1 }
    if c1.resident = 0 then { c1 with wait := .fill } else c1

/-- RETW (R238). In the trap window there is no caller, so it is ILLEGAL there too (DEDUCED, log entry 18). -/
def Core.retw (c : Core) (ovf : Bool) : Core :=
  if c.tw ∨ c.wdepth ≤ 1 then c.trapAt ovf 0x20
  else { c.releaseTop with pc := c.wreg c.cwp 15 }

/-- TRAP (R242, Table 11.8): epc is the next instruction, the number goes to ecause[15:8]. -/
def Core.trap (c : Core) (ovf : Bool) (number : Nat) : Core :=
  if c.tw then c.doubleFault else c.entry ovf 0x27 (number % 256) (c.pc + 4)

/-- SPILL: with fewer than 2 free windows the oldest resident window starts out (R239). -/
def Core.spillStart (c : Core) (ovf : Bool) : Core :=
  if c.wfree < 2 ∧ !c.spilling ∧ !c.spillFull ovf then { c with spilling := true } else c

/-- SPILL_DONE: the oldest resident window is on the spill stack; what waited for it goes on (R239). -/
def Core.spillDone (c : Core) : Core :=
  if !c.spilling then c
  else if c.resident < 2 then { c with spilling := false }
  else
    let w := (c.top + 12 - c.resident) % 11
    let c1 := { c with spilled := c.window w :: c.spilled, resident := c.resident - 1, spilling := false }
    match c1.wait with
    | .call off => c1.doCall off
    | .entry cause num epc => c1.enter cause num epc
    | .hook entry args => c1.hookCall entry args
    | _ => c1

/-- FILL_DONE: the top of the spill stack becomes the current window; an uncorrectable error is a double fault (R239, R241). -/
def Core.fillDone (c : Core) (unc : Bool) : Core :=
  match c.wait, c.spilled with
  | .fill, w :: r =>
    if unc then c.doubleFault
    else { c.setWindow c.top w with spilled := r, resident := 1, wait := .none }
  | _, _ => c

/-- A 32-bit word of data SRAM. -/
def Core.sramWord (c : Core) (a : Nat) : Word := BitVec.ofNat 32 (leNat (c.sram.readN a 4))

/-- Whether [a, a+len) lies in the core's data SRAM (256 KiB from a base the manual does not give, DESIGN CHOICE, log entry 14). -/
def inSram (n a len : Nat) : Bool :=
  decide (Config.sramBase n ≤ a ∧ a + len ≤ Config.sramBase n + 0x40000)

/-- SIZE of a frame with a MASK (R251). -/
def frameSize (mask : BitVec 4) : Nat :=
  16 + 32 * b2n (mask.getLsbD 0) + 32 * b2n (mask.getLsbD 1) + 16 * b2n (mask.getLsbD 2) + 16 * b2n (mask.getLsbD 3)

/-- Words as bytes. -/
def wordsLe (ws : List Word) : List Byte := ws.flatMap fun w => natLe 4 w.toNat

/-- The parts a MASK selects, in order (Table 11.11). -/
def Core.parts (c : Core) (mask : BitVec 4) : List Word :=
  (if mask.getLsbD 0 then (c.window c.cwp).take 8 else [])
    ++ (if mask.getLsbD 1 then (c.window c.cwp).drop 8 else [])
    ++ (if mask.getLsbD 2 then [c.epc, c.estat, c.ecause, 0] else [])
    ++ (if mask.getLsbD 3 then [c.tallyFrame, BitVec.ofNat 32 (b2n c.pend + 2 * b2n c.saved), 0, 0] else [])

/-- A context frame (Table 11.10): CHECK is the XOR of every other word. -/
def Core.frame (c : Core) (mask : BitVec 4) : List Word :=
  let w0 := BitVec.ofNat 32 (0xC7 + 256 * mask.toNat + 65536 * frameSize mask)
  let depth := BitVec.ofNat 32 c.wdepth
  let ps := c.parts mask
  let chk := ps.foldl (· ^^^ ·) (w0 ^^^ depth)
  [w0, depth, chk, 0] ++ ps

/-- Alignment of the three context registers (R251). -/
def Core.ctxAligned (c : Core) : Bool :=
  c.ctxhead.toNat % 16 == 0 && c.ctxtop.toNat % 16 == 0 && c.ctxlimit.toNat % 16 == 0

/-- SAVECTX (R250, R251). -/
def Core.savectx (n : Nat) (ovf : Bool) (mask : BitVec 4) (c : Core) : Core :=
  let size := frameSize mask
  let head := c.ctxhead.toNat
  if !c.sup then c.trapAt ovf 0x21
  else if mask = 0 then c.trapAt ovf 0x20
  else if !c.ctxAligned then c.trapAt ovf 0x22
  else if head < size ∨ !inSram n (head - size) size then c.trapAt ovf 0x23
  else if head - size < c.ctxlimit.toNat then c.trapAt ovf 0x28
  else { c with
    sram := c.sram.writeN (head - size) (wordsLe (c.frame mask)), ctxhead := BitVec.ofNat 32 (head - size) }.advance

/-- Words of the frame at ctxhead. -/
def Core.frameAt (c : Core) (size : Nat) : List Word :=
  (upto (size / 4)).map fun i => c.sramWord (c.ctxhead.toNat + 4 * i)

/-- TAG and MASK of a frame's first word agree with the instruction (R251). -/
def headGood (mask : BitVec 4) (w0 : Word) : Bool := bits w0.toNat 0 8 == 0xC7 && bits w0.toNat 8 8 == mask.toNat

/-- TAG, MASK and CHECK of the newest frame agree with the instruction (R251). -/
def frameGood (mask : BitVec 4) (ws : List Word) : Bool :=
  headGood mask (nth ws 0 0)
    && nth ws 0 2 == (ws.take 2 ++ ws.drop 3).foldl (· ^^^ ·) 0

/-- The parts restored by LOADCTX (R251); ecause is not restored. -/
def Core.restore (c : Core) (mask : BitVec 4) (ps : List Word) : Core :=
  let n0 := if mask.getLsbD 0 then 8 else 0
  let n1 := if mask.getLsbD 1 then 8 else 0
  let lo := if mask.getLsbD 0 then ps.take 8 else (c.window c.cwp).take 8
  let hi := if mask.getLsbD 1 then (ps.drop n0).take 8 else (c.window c.cwp).drop 8
  let r1 := ps.drop (n0 + n1)
  let c1 := c.setWindow c.cwp (lo ++ hi)
  let c2 := if mask.getLsbD 2 then { c1 with epc := nth r1 0 0, estat := nth r1 0 1 } else c1
  let r2 := if mask.getLsbD 2 then r1.drop 4 else r1
  if mask.getLsbD 3 then
    let fl := nth r2 0 1
    { c2 with tallyFrame := nth r2 0 0, cstat := mkCstat c.ie c.sup (fl.getLsbD 0) (fl.getLsbD 1) c.tw }
  else c2

/-- LOADCTX (R250, R251): the header is looked at first, so that a frame of other parts raises CTX_MASK wherever it ends (DEDUCED, log
entry 18). -/
def Core.loadctx (n : Nat) (ovf : Bool) (mask : BitVec 4) (c : Core) : Core :=
  let size := frameSize mask
  if !c.sup then c.trapAt ovf 0x21
  else if mask = 0 then c.trapAt ovf 0x20
  else if !c.ctxAligned then c.trapAt ovf 0x22
  else if c.ctxhead = c.ctxtop then c.trapAt ovf 0x25
  else if !inSram n c.ctxhead.toNat 16 then c.trapAt ovf 0x23
  else if !headGood mask (c.sramWord c.ctxhead.toNat) then c.trapAt ovf 0x26
  else if !inSram n c.ctxhead.toNat size then c.trapAt ovf 0x23
  else if !frameGood mask (c.frameAt size) then c.trapAt ovf 0x26
  else { c.restore mask ((c.frameAt size).drop 4) with ctxhead := c.ctxhead + BitVec.ofNat 32 size }.advance

/-- SIZE of the newest frame. -/
def Core.dropSize (c : Core) : Nat := bits (c.sramWord c.ctxhead.toNat).toNat 16 16

/-- DROPCTX (R250, R251): SIZE is the newest frame's own. -/
def Core.dropctx (n : Nat) (ovf : Bool) (c : Core) : Core :=
  if !c.sup then c.trapAt ovf 0x21
  else if !c.ctxAligned then c.trapAt ovf 0x22
  else if c.ctxhead = c.ctxtop then c.trapAt ovf 0x25
  else if !inSram n c.ctxhead.toNat 16 ∨ !inSram n c.ctxhead.toNat c.dropSize then c.trapAt ovf 0x23
  else { c with ctxhead := c.ctxhead + BitVec.ofNat 32 c.dropSize }.advance

/-- RETI (R244 in the trap window, R248 outside). -/
def Core.reti (n : Nat) (ovf : Bool) (c : Core) : Core :=
  if !c.sup then c.trapAt ovf 0x21
  else if c.tw then { c with cstat := cstatOf c.tstat false, pc := c.tpc }
  else
    let c1 := if c.saved ∧ inSram n c.tallyFrame.toNat 132 then { c with tally := c.sram.readN c.tallyFrame.toNat 132 } else c
    let c2 := c1.setG 3 (nth c.g 0 3 + 144)
    let c3 := if c.estat.getLsbD 1 then c2 else c2.setG 3 c.usp
    { c3.releaseTop with cstat := cstatOf c.estat false, pc := c.epc }

/-- CUTW (R250, R251): every window above depth d is discarded; the window at depth d becomes current, filled back if it was
spilled. In the trap window, window 11 stays current until RETI (DEDUCED, log entry 18). -/
def Core.cutw (ovf : Bool) (r : Nat) (c : Core) : Core :=
  let d := (c.reg r).toNat
  if !c.sup then c.trapAt ovf 0x21
  else if r ≥ 24 ∨ d < 1 ∨ d > c.wdepth then c.trapAt ovf 0x20
  else
    let cut := c.wdepth - d
    let t := (c.top + 11 * cut - cut) % 11
    let c1 := { c with
      top := t, resident := c.resident - cut, spilled := c.spilled.drop (cut - c.resident) }
    let c2 := if c1.resident = 0 then { c1 with wait := .fill } else c1
    c2.advance

/-- HALT (R245, R250). -/
def Core.haltOp (ovf : Bool) (c : Core) : Core := if !c.sup then c.trapAt ovf 0x21 else c.halt

/-- The lazy tally save (R249): none when the write faults. -/
def Core.lazySave (n : Nat) (c : Core) : Option Core :=
  if c.pend ∧ !c.saved then
    (if inSram n c.tallyFrame.toNat 144 then
      some { c with
        sram := c.sram.writeN c.tallyFrame.toNat (slice c.tally 0 132 ++ List.replicate 12 0),
        cstat := mkCstat c.ie c.sup false true c.tw }
    else none)
  else some c

/-- An instruction that touches the tally unit (R245, R249); its own effect is a free value (DESIGN CHOICE, log entry 15). -/
def Core.tallyOp (n : Nat) (ovf : Bool) (after : List Byte) (c : Core) : Core :=
  if c.tw then c.doubleFault
  else
    match c.lazySave n with
    | none => c.trapAt ovf 0x24
    | some c1 => { c1 with tally := slice after 0 132 }.advance

/-- Value of a CSR by number (Table 11.3). -/
def Core.csr (c : Core) : Nat → Option Word
  | 0x000 => some c.cstat
  | 0x001 => some c.estat
  | 0x002 => some c.epc
  | 0x003 => some c.ecause
  | 0x004 => some c.evec
  | 0x005 => some c.tallyFrame
  | 0x006 => some c.ksp
  | 0x007 => some c.usp
  | 0x008 => some c.ctxhead
  | 0x009 => some c.tpc
  | 0x00A => some c.tstat
  | 0x00B => some c.ctxtop
  | 0x00C => some c.ctxlimit
  | 0x010 => some (BitVec.ofNat 32 c.cwp)
  | 0x011 => some (BitVec.ofNat 32 c.wfree)
  | 0x012 => some (BitVec.ofNat 32 c.wdepth)
  | 0x013 => some (BitVec.ofNat 32 c.lockerHi)
  | 0x014 => some (BitVec.ofNat 32 c.spillCount)
  | 0x015 => some (BitVec.ofNat 32 c.ovfLimit)
  | 0x020 => some c.perfWpfetch
  | _ => none

/-- CSRs user mode may read (Table 11.3). -/
def csrUser (k : Nat) : Bool := k == 0x010 || k == 0x011 || k == 0x012 || k == 0x020

/-- A CSR written; RO registers and values outside a register's range leave it as it is, cstat and evec keep their Reserved bits 0, and
estat and tstat, for which Table 11.3 marks none, take every bit (DEDUCED, log entry 19). -/
def Core.setCsr (c : Core) (k : Nat) (v : Word) : Core :=
  match k with
  | 0x000 => { c with cstat := cstatOf v c.tw }
  | 0x001 => { c with estat := v }
  | 0x002 => { c with epc := v }
  | 0x004 => { c with evec := v &&& 0xFFFFF000 }
  | 0x005 => { c with tallyFrame := v }
  | 0x006 => { c with ksp := v }
  | 0x007 => { c with usp := v }
  | 0x008 => { c with ctxhead := v }
  | 0x009 => { c with tpc := v }
  | 0x00A => { c with tstat := v }
  | 0x00B => { c with ctxtop := v }
  | 0x00C => { c with ctxlimit := v }
  | 0x013 => if 16 ≤ v.toNat ∧ v.toNat ≤ 1024 then { c with lockerHi := v.toNat } else c
  | 0x015 => if v.toNat ≤ 16384 then { c with ovfLimit := v.toNat } else c
  | _ => c

/-- A CSR instruction (R250, Table 11.3): an unknown number or register is ILLEGAL, an S register in user mode PRIVILEGE; a user
write to a register user mode may only read is PRIVILEGE too. -/
def Core.csrOp (ovf : Bool) (k : Nat) (write : Bool) (r : Nat) (c : Core) : Core :=
  match c.csr k with
  | none => c.trapAt ovf 0x20
  | some v =>
    if r ≥ 24 then c.trapAt ovf 0x20
    else if !c.sup ∧ (!csrUser k ∨ write) then c.trapAt ovf 0x21
    else if write then (c.setCsr k (c.reg r)).advance
    else (c.setReg r v).advance

/-- Where a load or store may go (R241, R253, section 11.1). -/
inductive Place where
  | scratch (off : Nat)
  | sram
  | policy (off : Nat)
  | other
  | denied
  deriving DecidableEq, Repr

/-- The place of an address; codeEnd is the end of the module's execute-only code (R253). -/
def Core.place (n codeEnd : Nat) (store : Bool) (addr : Nat) (c : Core) : Place :=
  if 0x00F00000 ≤ addr ∧ addr < 0x00F10000 then
    (if c.tw ∧ c.lockerHi * 64 ≤ addr - 0x00F00000 then .scratch (addr - 0x00F00000) else .denied)
  else if n = 3 ∧ 0x00400000 ≤ addr ∧ addr < 0x00480000 then
    (if !c.sup ∧ addr < codeEnd then .denied else .policy (addr - 0x00400000))
  else if n = 3 ∧ !c.sup then .denied
  else if inSram n addr 1 ∧ c.sup then .sram
  else if Config.permitted n c.sup store addr then (if inSram n addr 1 then .sram else .other)
  else .denied

/-- A load or store of width 1, 2 or 4 (R241, Table 11.5); what lies above a narrow load's bytes is a free value (DESIGN CHOICE, log entry 14). -/
def Core.loadStore (n codeEnd : Nat) (ovf : Bool) (fill : Word) (store : Bool) (addr width r : Nat) (c : Core) : Core :=
  if r ≥ 24 then c.trapAt ovf 0x20
  else if addr % width ≠ 0 then c.trapAt ovf 0x22
  else
    let data := natLe width (c.reg r).toNat
    let load := fun (bs : List Byte) =>
      (c.setReg r (BitVec.ofNat 32 (setBits fill.toNat 0 (8 * width) (leNat bs)))).advance
    match c.place n codeEnd store addr with
    | .denied => c.trapAt ovf 0x23
    | .scratch o => if store then { c with scratch := c.scratch.writeN o data }.advance else load (c.scratch.readN o width)
    | .sram => if store then { c with sram := c.sram.writeN addr data }.advance else load (c.sram.readN addr width)
    | .policy o =>
      if store then { c with policySram := c.policySram.writeN o data }.advance else load (c.policySram.readN o width)
    | .other => if store then c.advance else (c.setReg r fill).advance

/-- An interrupt line at an instruction boundary (R242, R244, R247): a waiting CALLW is abandoned and runs again after RETI. -/
def Core.interrupt (ovf : Bool) (line : Nat) (c : Core) : Core :=
  if c.ie ∧ !c.tw ∧ line < 32 then
    match c.wait with
    | .none => c.entry ovf line 0 c.pc
    | .call _ => { c with wait := .none }.entry ovf line 0 c.pc
    | _ => c
  else c

/-- A wrong-path fetch (R252). -/
def Core.wrongPath (inRegion fills : Bool) (c : Core) : Core :=
  if inRegion ∧ fills then { c with perfWpfetch := c.perfWpfetch + 1 } else c

/-- A restart (R246): windows, spill stack and locker contents are discarded; the context CSRs take their resets (DEDUCED, log entry 18). -/
def Core.restart (entry : Word) (c : Core) : Core :=
  { coreReset with
    g := c.g, pc := entry, tally := c.tally, sram := c.sram, policySram := c.policySram, perfWpfetch := c.perfWpfetch,
    doubleFaults := c.doubleFaults }

/-- Whether the core can take an instruction: running, and not waiting for a window. -/
def Core.ready (c : Core) : Bool := c.state == 0 && c.wait == .none

end Sys2Proof.Machine
end

