-- ==== Sys2Proof/Machine/StrideMath.lean ====
section
/-! DEFINITION. The arithmetic of a stride job: scores, running softmax, the merge tree and the results (R102, R103, R107, R109). -/

namespace Sys2Proof.Machine

/-- floor(ln 2 * 2^256). -/
def ln2Fix : Nat := 0xb17217f7d1cf79abc9e3b39803f2f6af40f343267298b62d8a0d175b8baafa2b

/-- 2^256: the unit of the fixed-point numbers below. -/
def fixOne : Nat := 2 ^ Config.fixBits

/-- Terms of the Taylor series of exp at r in [0, 1), in fixed point. -/
def expTerms (r : Nat) : (n k : Nat) → (term acc : Nat) → Nat
  | 0, _, _, acc => acc
  | n + 1, k, term, acc =>
    let t := term * r / fixOne / k
    expTerms r n (k + 1) t (acc + t)

/-- exp, correctly rounded to binary32 (R102): the argument is exact in fixed point and the result carries 256 bits (DEDUCED, log entry 20). -/
def exp32 : Num → Num
  | .nan s f => .nan s (quiet f)
  | .inf neg => if neg then Num.zero else .inf false
  | .fin neg m e =>
    if m = 0 then .fin false 1 0
    else if Nat.log2 m + e > 8 then (if neg then Num.zero else .inf false)
    else
      let x : Int := sgn neg (if e + Config.fixBits ≥ 0 then m * 2 ^ (e + Config.fixBits).toNat
        else m / 2 ^ (-(e + Config.fixBits)).toNat)
      let k := x / (ln2Fix : Int)
      let r := (x - k * ln2Fix).toNat
      r32 (.fin false (expTerms r 90 1 fixOne fixOne) (k - Config.fixBits))

/-- Terms of atanh z = z + z^3/3 + ..., in fixed point; zp is the current power. -/
def atanhTerms (z2 : Nat) : (n k : Nat) → (zp acc : Nat) → Nat
  | 0, _, _, acc => acc
  | n + 1, k, zp, acc => atanhTerms z2 n (k + 2) (zp * z2 / fixOne) (acc + zp / k)

/-- ln of a positive value, correctly rounded to binary32 (R102; DEDUCED, log entry 20). -/
def ln32 : Num → Num
  | .nan s f => .nan s (quiet f)
  | .inf neg => if neg then Num.dflt else .inf false
  | .fin neg m e =>
    if m = 0 then .inf true
    else if neg then Num.dflt
    else
      let l := Nat.log2 m
      let x := m * 2 ^ (Config.fixBits - l)
      let z := (x - fixOne) * fixOne / (x + fixOne)
      let a := 2 * atanhTerms (z * z / fixOne) 100 1 z 0
      let v : Int := (l + e) * (ln2Fix : Int) + a
      if v = 0 then Num.zero else r32 (.fin (decide (v < 0)) v.natAbs (-(Config.fixBits : Int)))

/-- Numeric equality. -/
def eqNum (a b : Num) : Bool := !isNan a && !isNan b && !ltNum a b && !ltNum b a

/-- The larger value; the first when they are equal. -/
def maxNum (a b : Num) : Num := if isNan a then a else if isNan b then b else if ltNum a b then b else a

/-- A value rounded to BF16 (R102). -/
def rBf16 (x : Num) : Num := ofBf16 (packIeee 8 7 x)

/-- The exact sum of exact products, rounded once (dot_exact of R102). -/
def dotExact (q k : List Num) : Num := r32 ((List.zipWith mulExact q k).foldl addExact Num.zero)

/-- Bytes of n elements of a KV or query format of Table 5.12. -/
def kvBytes (fmt n : Nat) : Nat := if fmt = 1 then 2 * n else if fmt = 0x10 then n / 2 else n

/-- The vector a byte string holds in a format: 0x01, 0x03, 0x04 as Table 3.1, 0x10 INT4 with the even element low (section 5.5). -/
def kvVec (fmt : Nat) (bs : List Byte) : List Num :=
  if fmt = 0x10 then bs.flatMap fun b => [ofInt (toSigned 4 (b.toNat % 16)), ofInt (toSigned 4 (b.toNat / 16))]
  else (elems fmt bs).map (ofElem fmt)

/-- A partial of one query head (R102); bad is set by a NaN score. -/
structure Partial where
  m : Num
  l : Num
  o : List Num
  bad : Bool
  deriving DecidableEq, Repr

/-- The partial of no token. -/
def Partial.empty (d : Nat) : Partial := ⟨.inf true, Num.zero, List.replicate d Num.zero, false⟩

/-- One token of a leg: masked tokens score minus infinity and give no value (R105, R110; DEDUCED, log entry 21). -/
structure Token where
  masked : Bool
  k : List Num
  v : List Num
  deriving DecidableEq, Repr

/-- One block of R102 (or one group of R107) for one query head. -/
def Partial.block (c : Num) (q : List Num) (p : Partial) (toks : List Token) : Partial :=
  let scored := toks.map fun t => (if t.masked then Num.inf true else mul32 (dotExact q t.k) c, t)
  let mb := scored.foldl (fun a t => maxNum a t.1) p.m
  let a := if eqNum p.m mb then Num.fin false 1 0 else exp32 (sub32 p.m mb)
  let start : Partial := { p with m := mb, l := mul32 p.l a, o := p.o.map fun x => mul32 x a,
                                  bad := p.bad || scored.any fun t => isNan t.1 }
  scored.foldl (fun r t =>
    let w := if eqNum t.1 (.inf true) then Num.zero else exp32 (sub32 t.1 mb)
    if t.2.masked then r
    else { r with l := add32 r.l w, o := List.zipWith (fun x v => r32 (addExact x (mulExact (rBf16 w) (rBf16 v)))) r.o t.2.v })
    start

/-- A leg's partial for one query head: its blocks in list order (R102). -/
def legPartial (c : Num) (q : List Num) (blocks : List (List Token)) : Partial :=
  blocks.foldl (Partial.block c q) (Partial.empty q.length)

/-- merge of R103; a has the lower leg number. -/
def Partial.merge (a b : Partial) : Partial :=
  let m := maxNum a.m b.m
  let fa := if eqNum a.m m then Num.fin false 1 0 else exp32 (sub32 a.m m)
  let fb := if eqNum b.m m then Num.fin false 1 0 else exp32 (sub32 b.m m)
  { m := m, l := add32 (mul32 a.l fa) (mul32 b.l fb),
    o := List.zipWith (fun x y => add32 (mul32 x fa) (mul32 y fb)) a.o b.o, bad := a.bad || b.bad }

/-- One level of the tree: nodes 2i and 2i+1 merge, an unpaired last node passes up (R103). -/
def mergeLevel : List Partial → List Partial
  | a :: b :: r => a.merge b :: mergeLevel r
  | l => l

/-- The tree over leg numbers (R103); fuel bounds its levels. -/
def mergeTree : (fuel : Nat) → List Partial → Option Partial
  | _, [] => none
  | _, [a] => some a
  | 0, a :: _ => some a
  | n + 1, l => mergeTree n (mergeLevel l)

/-- The root of the partials of one query head; no leg gives the empty partial. -/
def rootOf (d : Nat) (ps : List Partial) : Partial := (mergeTree 64 ps).getD (Partial.empty d)

/-- Output elements of a head in binary32 (R103). -/
def headOut (vScale : Num) (p : Partial) : List Num :=
  if p.bad then p.o.map fun _ => Num.dflt
  else if isZero p.l then p.o.map fun _ => Num.zero
  else p.o.map fun x => mul32 (div32 x p.l) vScale

/-- Log-sum-exp of a head (R103). -/
def headLse (p : Partial) : Num :=
  if p.bad then Num.dflt else if isZero p.l then .inf true else add32 p.m (ln32 p.l)

/-- Output bytes in OUT_FORMAT (Table 5.12): 0 BF16, 1 binary32. -/
def outBytes (fmt : Nat) (xs : List Num) : List Byte :=
  xs.flatMap fun x => if fmt = 0 then natLe 2 (packIeee 8 7 x) else natLe 4 (toF32 x)

/-- One head of a resume record's STATE (Table 5.15). -/
def stateBytes (p : Partial) : List Byte :=
  (p.m :: p.l :: p.o).flatMap fun x => natLe 4 (toF32 (if p.bad then Num.dflt else x))

/-- A head read back from STATE. -/
def stateOf (d : Nat) (bs : List Byte) : Partial :=
  let xs := (upto (d + 2)).map fun i => ofF32 (field bs (4 * i) 4)
  { m := nth xs Num.zero 0, l := nth xs Num.zero 1, o := xs.drop 2, bad := isNan (nth xs Num.zero 0) }

/-- A resume record (Table 5.15): heads in query-head order. -/
def resumeRecord (next dimLog2 qHeads : Nat) (heads : List Partial) : List Byte :=
  let r := natLe 8 next ++ [0xC3, BitVec.ofNat 8 dimLog2] ++ natLe 2 qHeads ++ [0, 0, 0, 0] ++ List.replicate 48 0
    ++ heads.flatMap stateBytes
  patch r 0x0C (natLe 4 (crc32c r))

/-- Whether a resume record passes the five checks of R109. -/
def resumeOk (dimLog2 qHeads elements : Nat) (r : List Byte) : Bool :=
  field r 8 1 == 0xC3 && field r 0x0C 4 == crc32c (patch r 0x0C [0, 0, 0, 0]) && field r 0x0A 2 == qHeads
    && field r 9 1 == dimLog2 && decide (field r 0 8 < elements)

end Sys2Proof.Machine
end

