-- ==== Sys2Proof/Machine/Types.lean ====
section
/-! DEFINITION. The structures State is made of, by chapter of the manual. Plain data throughout. -/

namespace Sys2Proof.Machine

/-! ### Logical memory (spec/02_logical_memory.md) -/

/-- A window-map entry (Table 2.4). -/
structure WinEntry where
  valid : Bool
  frozen : Bool
  seq : Nat
  handle : Nat
  deriving DecidableEq, Repr

/-- An unmapped entry at its reset value. -/
def WinEntry.zero : WinEntry := ⟨false, false, 0, 0⟩

/-- A block-map entry (Tables 2.5, 2.6). gran holds the 32 granule codes; vWritten and vLoc replace them in state VAULT. -/
structure Page where
  st : Nat
  owner : Nat
  home : Nat
  channel : Nat
  cbv : Nat
  touched : Bool
  slot : Nat
  plot : Nat
  gran : List Nat
  vWritten : Nat
  vLoc : Nat
  deriving DecidableEq, Repr

/-- The entry of a page never allocated. -/
def Page.zero : Page := ⟨0, 0, 0, 0, 0, false, 0, 0, List.replicate 32 0, 0, 0⟩

/-- Access counters of a page (R82, section 4.6): this epoch's accesses and bypass reads, time of the last access, of the last
write, and the bib of the last write. -/
structure PageUse where
  accesses : Nat
  bypasses : Nat
  lastAccess : Nat
  lastWrite : Nat
  lastBib : Nat
  deriving DecidableEq, Repr

def PageUse.zero : PageUse := ⟨0, 0, 0, 0, 0⟩

/-- A Clear Poison command that waits (R175). -/
structure ClearWait where
  port : Nat
  link : LinkId
  lpn : Nat
  deriving DecidableEq, Repr

/-- A baton pass between its match and its swap (R42, R43). -/
structure Pass where
  token : Nat
  giverJob : Nat
  catchJob : Nat
  giver : Nat
  receiver : Nat
  from_ : List Nat
  to_ : List Nat
  deriving DecidableEq, Repr

/-! ### Tiers (spec/07_dram_tiers.md) -/

/-- What a distance write serves (R138, R269): a block of a page, an entry of the block map or of a window map, a move's journal
entry, or part of a codebook set; copy 0 lies on the stripe's channel, copy 1 on its mirror. -/
inductive LostWrite where
  | data (lpn blk : Nat)
  | pageEntry (lpn copy : Nat)
  | winEntry (port extent copy : Nat)
  | journal (lpn copy : Nat)
  | codebook (n slot copy : Nat)
  deriving DecidableEq, Repr

/-- An entry of the lost-write record (R269): channel, granule (plot * 64 + granule of the plot), and what the write serves. -/
structure Lost where
  chan : Nat
  granule : Nat
  what : LostWrite
  deriving DecidableEq, Repr

/-- What a DRAM queue entry serves. -/
inductive QOwner where
  | req (id : Nat)
  | metadata (w : LostWrite)
  /-- The reserve's copy of the maps in a sprint stack (R158). -/
  | reserve
  /-- A granule of a block that a move, an item, a leg or a job reads or writes: its number, the page and the block. -/
  | work (id lpn blk : Nat)
  /-- A partial sprint write: it reads its granule first (R143, R161). -/
  | part
  | scrub
  | fill
  /-- A window of a coach core on its way to or from its overflow area (R239). -/
  | window (core : Nat)
  deriving DecidableEq, Repr

/-- An entry of a DRAM queue (Table 7.3): one granule; bib none is level 0 (R122); hurdle marks a read counted under R141; also
lists the owners of the writes merged into it (R142). -/
structure QEnt where
  id : Nat
  write : Bool
  granule : Nat
  owner : QOwner
  bib : Option Nat
  port : Option Nat
  arrival : Nat
  hurdle : Bool
  also : List QOwner
  deriving DecidableEq, Repr

/-- Granules in a row that wait for credits of a DRAM queue (R12): they enter one by one, in order. -/
structure Flow where
  id : Nat
  owner : QOwner
  unit : DramUnit
  write : Bool
  first : Nat
  left : Nat
  bib : Option Nat
  port : Option Nat
  /-- BIB_HELD was incremented for it (R132). -/
  held : Bool
  deriving DecidableEq, Repr

/-- The queues of a channel or pseudo-channel with their scheduler state (R138a, R140). -/
structure DramQ where
  reads : List QEnt
  writes : List QEnt
  draining : Bool
  /-- The drain was started for the hurdle alone. -/
  hurdleDrain : Bool
  /-- Writes issued since the drain began. -/
  drained : Nat
  /-- No new drain before a read has issued. -/
  needRead : Bool
  /-- Bank pointer of ROTATE. -/
  pointer : Nat
  deriving DecidableEq, Repr

def DramQ.empty : DramQ := ⟨[], [], false, false, 0, false, 0⟩

/-- A distance channel. -/
structure Chan where
  /-- CHAN_STATE and CHAN_OUT_REASON (Table 7.6). -/
  state : Nat
  reason : Nat
  temp : Int
  hot : Bool
  rdimms : Nat
  gib : Nat
  width : Nat
  ranks : Nat
  spdMin : List Nat
  /-- SPD serial numbers of its RDIMMs as stored with the training values (R150). -/
  serials : List Nat
  /-- The timing set in force, in the order of Table 7.6 (R151). -/
  timing : List Nat
  /-- A self-refresh exit is under way (R146). -/
  exiting : Bool
  /-- Time at which the channel last held a queued request (R145). -/
  busyAt : Nat
  /-- Data plots zero-filled so far (R139). -/
  fillPos : Nat
  /-- Contents can be read (R153). -/
  readable : Bool
  /-- Times of corrected and uncorrectable errors within ERR_WINDOW (R153, R282). -/
  ces : List Nat
  ues : List Nat
  /-- Refreshes done since tE (R144). -/
  refreshes : Nat
  /-- TRN_STATUS. -/
  trnStatus : Nat
  /-- Free runs of the relocation pool (R84), by first plot. -/
  pool : List Nat
  /-- The zero-fill of the plot at fillPos has been started (R139). -/
  filling : Bool
  /-- Time of the channel's last patrol scrub (R162). -/
  scrubAt : Nat
  /-- The channel whose spare stripe area took this channel's stripes (R154 step 4). -/
  spare : Option Nat
  q : DramQ
  deriving DecidableEq, Repr

def Chan.init : Chan :=
  { state := 0, reason := 0, temp := -32768, hot := false, rdimms := 0, gib := 0, width := 0, ranks := 0, spdMin := [], serials := [],
    timing := [], exiting := false, busyAt := 0, fillPos := 0, readable := true, ces := [], ues := [], refreshes := 0,
    trnStatus := 0, pool := [], filling := false, scrubAt := 0, spare := none, q := DramQ.empty }

/-- A sprint pseudo-channel: out 0 in service, 1 draining, 2 OUT (R163). -/
structure Pc where
  out : Nat
  ces : List Nat
  ues : List Nat
  refreshes : Nat
  q : DramQ
  deriving DecidableEq, Repr

def Pc.init : Pc := ⟨0, [], [], 0, DramQ.empty⟩

/-- A run of plots in use: reserved under R34 when aligned. -/
structure Run where
  chan : Nat
  first : Nat
  len : Nat
  deriving DecidableEq, Repr

/-- Space freed at a switch that waits for its readers (R76): a slot (home, slot) or a run. -/
inductive Space where
  | slot (stack slot : Nat)
  /-- A run, and whether it joins the relocation pool (R84). -/
  | run (r : Run) (pooled : Bool)
  deriving DecidableEq, Repr

structure Deferred where
  ticket : Nat
  space : Space
  /-- Requests and legs that looked the old entry up. -/
  readers : List Nat
  deriving DecidableEq, Repr

/-! ### Relay engines (spec/04_relay_engines.md) -/

inductive ItemKind where
  | expand | xts | bypass | promote | sealing | unseal | demote | writeback | evacuate | compact | recode | repair | copyIn
  | copyOut | build
  deriving DecidableEq, Repr

/-- A work item (Table 4.2); engine is none until it holds an item-queue entry (R70, R132). -/
structure Item where
  id : Nat
  kind : ItemKind
  lpn : Nat
  blk : Nat
  bib : Nat
  port : Option Nat
  engine : Option Nat
  running : Bool
  age : Nat
  /-- The host request it serves. -/
  req : Option Nat
  /-- The descriptor whose page it copies (Table 4.2). -/
  job : Option Nat
  /-- Destination channel of a demotion, write-back, evacuation or compaction (R83). -/
  chan : Option Nat
  /-- Failures in a row (R279). -/
  fails : Nat
  /-- BIB_HELD was incremented for it (R132). -/
  held : Bool
  deriving DecidableEq, Repr

/-- A move in progress with its journal entry (R31, R75). -/
structure Move where
  id : Nat
  item : Item
  prior : Page
  slot : Option Nat
  run : Option Run
  /-- Its run comes from a relocation pool (R84). -/
  pooled : Bool
  /-- Codebook slot the coder uses, none when no version was live (R59). -/
  cbv : Option Nat
  /-- Blocks written after the coder had read them (R78). -/
  marked : List Nat
  /-- Granule codes of the destination, once they are known (R59, R85). -/
  codes : List Nat
  /-- Injected: fail after step 4, bad destination, wrong CRC (Table 13.7). -/
  inject : Nat
  /-- Where R75 has got to: 0 it waits for space, 1 its journal entry drains, 2 it reads the source, 3 it writes the destination,
  4 it reads the destination back, 5 it may switch. -/
  step : Nat
  /-- Blocks whose source read, or whose read-back, ECC found uncorrectable (R75 steps 3 and 5). -/
  srcBad : List Nat
  dstBad : List Nat
  deriving DecidableEq, Repr

/-- A unit of engines that can be fenced (R278). -/
structure Engine where
  fenced : Bool
  permanent : Bool
  fences : List Nat
  /-- Drained by a lap: takes no new leg or item. -/
  drained : Bool
  /-- Time of the end of its last lap; age counts time in GO (R281). -/
  lapAge : Nat
  deriving DecidableEq, Repr

def Engine.init : Engine := ⟨false, false, [], false, 0⟩

/-- A codebook version slot (R61, R64). -/
structure CbVer where
  num : Nat
  set : List Byte
  retiring : Bool
  deriving DecidableEq, Repr

/-- A build asked for (R65, R88). -/
structure BuildReq where
  region : Nat
  bib : Nat
  port : Option Nat
  raised : Bool
  deriving DecidableEq, Repr

/-! ### Stride engines and jobs (spec/05_stride_engines.md) -/

/-- The FAULT fields of a completion record (Table 5.7). -/
structure FaultRec where
  index : Nat
  page : Nat
  element : Nat
  reason : Nat
  head : Nat
  kv : Nat
  deriving DecidableEq, Repr

/-- A write the T9 owes host memory; ready once its translation has been obtained. -/
structure HostWrite where
  addr : Nat
  data : List Byte
  relaxed : Bool
  ready : Bool
  deriving DecidableEq, Repr

/-- Bytes that a job reads through its partition's window under LOGICAL (R39, R116): none until they have arrived. -/
structure WinRead where
  addr : Nat
  len : Nat
  data : Option (List Byte)
  poison : Bool
  deriving DecidableEq, Repr

inductive JobPhase where
  /-- Read and waiting for its start. -/
  | fetch
  /-- Started, still reading what it needs. -/
  | reading
  /-- The work item of a copied page waits for its engine, or for the slot it needs. -/
  | queued
  /-- Legs or items are in progress. -/
  | running
  /-- BATON, CATCH and FENCE before they complete. -/
  | waiting
  /-- Done but for its writes; the status is fixed. -/
  | writing (status : Nat)
  deriving DecidableEq, Repr

/-- A descriptor in progress (R95, R96). -/
structure Job where
  id : Nat
  port : Nat
  link : LinkId
  q : Nat
  index : Nat
  desc : List Byte
  phase : JobPhase
  readAt : Nat
  /-- Bytes kept: of a stride job its queries at 0 and the resume record at 1; of a COPY_OUT its granules by offset. -/
  got : List (Nat × List Byte)
  /-- Window pages of the page list, K then V, or the host extents of an extent list. -/
  entries : List Nat
  /-- Token indices of a GATHER_ATTEND from its first element on. -/
  tokens : List Nat
  /-- Accesses of a copy, or of results under LOGICAL, still to end. -/
  itemsLeft : Nat
  /-- Addresses whose translation has been asked for, for writes. -/
  asked : List Nat
  /-- The resume record's next element, 0 for a job that is not resumed. -/
  from_ : Nat
  pagesDone : Nat
  faults : List FaultRec
  faultCount : Nat
  retries : Nat
  repaired : Bool
  result : Nat
  writes : List HostWrite
  /-- Reads of its pointers under LOGICAL. -/
  win : List WinRead
  /-- The translation of COMPLETION has been obtained (R116). -/
  compOk : Bool
  deriving DecidableEq, Repr

/-- A leg (R92, R93): waiting until it has an engine. -/
structure Leg where
  id : Nat
  job : Nat
  bib : Nat
  port : Nat
  head : Nat
  num : Nat
  /-- First list position or element, and how many. -/
  lo : Nat
  count : Nat
  engine : Option Nat
  home : Nat
  readyAt : Nat
  nearExpired : Bool
  runs : Nat
  /-- Next page to reach: 2 * list position (or element) + (0 for K, 1 for V). -/
  next : Nat
  /-- Bytes of the tokens read, by (position or element, token in order); none is masked. -/
  ks : List (Nat × Option (List Byte))
  vs : List (Nat × Option (List Byte))
  faults : List FaultRec
  /-- Pages looked up (pins of R62 and R76) as (page, region * 16 + version), the version 0xFFFF without a coded block. -/
  pins : List (Nat × Nat)
  /-- Blocks its pages were read from, as (page reached, logical page, block). -/
  reads : List (Nat × Nat × Nat)
  /-- It has given its sample (R127). -/
  sampled : Bool
  done : Bool
  /-- BIB_HELD was incremented for it (R132). -/
  held : Bool
  deriving DecidableEq, Repr

/-! ### Host ports (spec/08_host_ports.md) -/

/-- A work queue (Tables 5.2-5.4). -/
structure Queue where
  base : Nat
  size : Nat
  vector : Nat
  enable : Bool
  bibMask : Nat
  head : Nat
  tail : Nat
  xlateStop : Bool
  tailError : Bool
  deriving DecidableEq, Repr

def Queue.init : Queue := ⟨0, 6, 0, false, 0xFFFF, 0, 0, false, false⟩

/-- A translation in a link's cache (R178), oldest use first in the list. -/
structure Xlate where
  addr : Nat
  size : Nat
  r : Bool
  w : Bool
  deriving DecidableEq, Repr

/-- Who reads host memory: the ring of a queue, or a job. -/
inductive DmaOwner where
  | ring (q : Nat)
  | job (id : Nat)
  deriving DecidableEq, Repr

/-- A DMA read of the T9: waiting for a translation, issued, done with its bytes, or failed (R179). -/
inductive DmaPhase where
  | xlate
  | issued
  | done (data : List Byte)
  | failed
  deriving DecidableEq, Repr

structure DmaRead where
  id : Nat
  owner : DmaOwner
  addr : Nat
  len : Nat
  phase : DmaPhase
  /-- Its translation has been asked for. -/
  asked : Bool
  deriving DecidableEq, Repr

/-- An HDM decoder (R171). -/
structure Hdm where
  base : Nat
  size : Nat
  ways : Nat
  pos : Nat
  dpa : Nat
  committed : Bool
  error : Bool
  deriving DecidableEq, Repr

def Hdm.init : Hdm := ⟨0, 0, 1, 0, 0, false, false⟩

/-- An MSI-X table entry and its pending bit (R181). -/
structure Msix where
  addr : Nat
  data : Nat
  masked : Bool
  pending : Bool
  deriving DecidableEq, Repr

/-- A link (R165, R166): state 0 down, 1 training, 2 L0, 3 L0p narrowed, 4 L1, 5 L2. -/
structure Link where
  state : Nat
  speed : Nat
  width : Nat
  /-- 0 D0, 3 D3hot, 4 D3cold. -/
  dstate : Nat
  pmeEn : Bool
  pmeStatus : Bool
  /-- Command register (Table 8.1): memory space, bus master. -/
  command : Nat
  bar0 : Nat
  bar2 : Nat
  atsEn : Bool
  /-- ASPM L1 Enable of Link Control. -/
  aspmL1 : Bool
  msixEn : Bool
  funcMask : Bool
  msix : List Msix
  hdm : List Hdm
  cache : List Xlate
  dma : List DmaRead
  /-- Invalidations not yet completed: tag, address, size (R117). -/
  invals : List (Nat × Nat × Nat)
  /-- Configuration words a host can write, by offset, where they differ from their reset value (R167, R168). -/
  cfg : List (Nat × Nat)
  /-- FLIT mode of the trained link, and its CXL flit size in bytes, 0 without CXL (R166). -/
  flit : Bool
  flitSize : Nat
  /-- Records that Get Poison List has returned of a list it said More about (R175). -/
  poisonAt : Nat
  deriving DecidableEq, Repr

def Link.init : Link :=
  { state := 0, speed := 0, width := 0, dstate := 0, pmeEn := false, pmeStatus := false, command := 0, bar0 := 0, bar2 := 0,
    atsEn := false, aspmL1 := false, msixEn := false, funcMask := false, msix := List.replicate 64 ⟨0, 0, true, false⟩,
    hdm := [Hdm.init, Hdm.init], cache := [], dma := [], invals := [], cfg := [], flit := false, flitSize := 0, poisonAt := 0 }

/-- A port (one partition). -/
structure Port where
  /-- PORT_MODE, PORT_BIFURCATE and BAR2_LOG2 in force since the last training (R164). -/
  pcieOnly : Bool
  bifurcated : Bool
  bar2Log2 : Nat
  frozen : Bool
  drained : Bool
  cause : Nat
  /-- Behaviour of the freeze in force: ALLONES (R188). -/
  allOnes : Bool
  releaseAsked : Bool
  perstLow : Bool
  /-- WAKE_N asserted (R185). -/
  wake : Bool
  /-- Stable value of URG_Pp[1:0], and the urgency budget (R130, R131): ten 1 us slices of raised bytes, newest first. -/
  urgPin : Nat
  suspended : Bool
  slices : List Nat
  /-- Doorbells held behind earlier BAR2 writes (R113): link, queue, value, and the id below which such writes are waited for. -/
  bells : List (LinkId × Nat × Nat × Nat)
  /-- Time of the last reported suspension. -/
  urgReport : Option Nat
  zeroReads : Nat
  discards : Nat
  a : Link
  b : Link
  queues : List Queue
  deriving DecidableEq, Repr

def Port.init : Port :=
  { pcieOnly := false, bifurcated := false, bar2Log2 := 34, frozen := false, drained := false, cause := 0, allOnes := false,
    releaseAsked := false, perstLow := false, wake := false, urgPin := 0, suspended := false, slices := List.replicate 10 0, bells := [],
    urgReport := none, zeroReads := 0, discards := 0, a := Link.init, b := Link.init, queues := List.replicate 16 Queue.init }

/-- Where a host request stands (R12, R17, R132). -/
inductive Stage where
  /-- Held by a limit of R132 before admission. -/
  | atPort
  /-- Held by R36. -/
  | withheld
  /-- Waits for a sprint slot credit (R12). -/
  | slot
  /-- Waits for a promotion of its page (R80). -/
  | promotion
  /-- Held behind an UNSEAL or the close of a seal (R78, R79). -/
  | hold
  /-- Waits for a DRAM queue entry. -/
  | queue
  /-- Its granules are in a DRAM read queue. -/
  | dram
  /-- A relay engine works on it. -/
  | item
  /-- A BAR2 read behind earlier BAR2 writes (R177). -/
  | barrier
  deriving DecidableEq, Repr

/-- Where a request came from and how its completion is returned. -/
inductive ReqSrc where
  | cxl (tag : Nat)
  /-- A granule of a transfer, or of a copy, at a byte offset within it. -/
  | bar2 (xfer off : Nat)
  | job (id off : Nat)
  /-- A read of a job's pointer under LOGICAL, at an address of the window. -/
  | fetch (id addr : Nat)
  deriving DecidableEq, Repr

/-- A host request, or the block access of a copy, within one block. -/
structure Req where
  id : Nat
  write : Bool
  port : Nat
  link : LinkId
  src : ReqSrc
  bib : Nat
  hostExtent : Nat
  /-- Page within the host extent until the window-map lookup, the logical page after it. -/
  lpn : Nat
  blk : Nat
  off : Nat
  len : Nat
  /-- Bytes to write, none where the mask leaves a byte alone. -/
  data : List (Option Byte)
  arrival : Nat
  /-- The block-map entry read at lookup (R13). -/
  entry : Page
  stage : Stage
  rdata : List Byte
  relaxed : Bool
  /-- Its data arrived poisoned (R277). -/
  poison : Bool
  /-- BIB_HELD was incremented for it (R132). -/
  held : Bool
  deriving DecidableEq, Repr

/-- A BAR2 transfer (R176): bytes gathered so far by offset, poison seen, granule requests left. -/
structure Xfer where
  id : Nat
  write : Bool
  port : Nat
  link : LinkId
  bib : Nat
  tag : Nat
  /-- Its offset in BAR2. -/
  off : Nat
  len : Nat
  got : List (Nat × List Byte)
  poison : Bool
  left : Nat
  arrival : Nat
  deriving DecidableEq, Repr

/-! ### Pacer (spec/06_pacer.md) -/

/-- The Field-domain state of a bib (R128, R129) and the time of its last miss report (R134). -/
structure Bib where
  readAvg : Nat
  legAvg : Nat
  steps : Nat
  lastMiss : Option Nat
  deriving DecidableEq, Repr

def Bib.init : Bib := ⟨0, 0, 0, none⟩

/-! ### Events and the dictionary (spec/09, 10, 13) -/

/-- An event record (Table 13.2). -/
structure Evt where
  seq : Nat
  code : Nat
  sev : Nat
  port : Nat
  time : Nat
  unit : Nat
  aux : Nat
  page : Nat
  detail : Nat
  deriving DecidableEq, Repr

/-- A record of the CXL event logs (Table 13.4). -/
inductive CxlRecord where
  /-- General Media: the DPA, and the Memory Event Type, Data Path Error or else Uncorrectable ECC. -/
  | media (dpa : Nat) (dataPath : Bool)
  /-- DRAM: channel, and rank of a sprint event; none where the event names no unit. -/
  | dram (channel rank : Option Nat)
  /-- Memory Module, Device Health Status Change. -/
  | health
  /-- Vendor Specific with the 32 bytes of Table 13.2. -/
  | vendor (bytes : List Byte)
  deriving DecidableEq, Repr

/-- The owner of a staging context (R206). -/
inductive CtxId where
  | session (id : Nat)
  | shared
  | infield (port : Nat) (link : LinkId)
  deriving DecidableEq, Repr

/-- A block being written or a snapshot being read (R210). -/
structure Block where
  index : Nat
  sub : Nat
  bytes : List Byte
  deriving DecidableEq, Repr

/-- A staging context: staged values, counters recorded per group, block buffer, snapshot. -/
structure Ctx where
  id : CtxId
  staged : List (Nat × List Byte)
  recs : List (Nat × Nat)
  wbuf : Option Block
  snap : Option Block
  deriving DecidableEq, Repr

/-- An open session (R215, R216): its key slot and key, the address of its peer, the lowest SEQ it still accepts, failures in a
row, and its last replies by SEQ. -/
structure Session where
  id : Nat
  slot : Nat
  key : List Byte
  src : Nat
  nextSeq : Nat
  fails : Nat
  cache : List (Nat × List Byte)
  deriving DecidableEq, Repr

/-- Where the reply to a Welair frame goes: SEQ, source address and UDP port (R208, R211). -/
structure ReplyTo where
  seq : Nat
  src : Nat
  udp : Nat
  deriving DecidableEq, Repr

/-- An access that waits for its flash store (R205): the object, the value, and who gets the reply; back is none for a command that
names the object without its frame, mute says that its mailbox was reset (R190). -/
structure Waiting where
  index : Nat
  sub : Nat
  door : Door
  op : Nat
  offset : Nat
  back : Option ReplyTo
  value : List Byte
  mute : Bool
  deriving DecidableEq, Repr

/-- One copy of the persistent image, with a 32-bit sequence number; valid says that its CRC-32C passes: the manual gives the image no
layout, so its CRC has no value to compute (R203, DEDUCED, log entry 5). -/
structure Flash where
  seq : Nat
  valid : Bool
  nums : List (Nat × Nat)
  blobs : List (Nat × List Byte)
  deriving DecidableEq, Repr

/-- A hook call under way on core 3 (R253, R254). -/
structure HookCall where
  hook : Nat
  /-- The candidates of hooks 1 to 3. -/
  lpns : List Nat
  /-- Address of the candidate array in policy SRAM. -/
  base : Nat
  /-- Windows of core 3 below the call, and where its dispatcher goes on. -/
  depth : Nat
  ret : Word
  deriving DecidableEq, Repr

/-! ### Test (spec/13_faults_and_test.md) -/

/-- A lap under way (R280): engine 0-15 stride, 16-31 relay; forced laps are never skipped. -/
structure Lap where
  engine : Nat
  forced : Bool
  aged : Bool
  drained : Bool
  deriving DecidableEq, Repr

/-- An armed fault (R283). -/
structure Inject where
  unit : Nat
  kind : Nat
  deriving DecidableEq, Repr

/-- States of the IEEE 1149.1 controller. -/
inductive TapState where
  | reset | idle | selDr | capDr | shDr | ex1Dr | paDr | ex2Dr | upDr | selIr | capIr | shIr | ex1Ir | paIr | ex2Ir | upIr
  deriving DecidableEq, Repr

/-- The TAP (R285). -/
structure Tap where
  st : TapState
  /-- TCK cycles with TMS high in a row. -/
  tmsHigh : Nat
  ir : Nat
  irShift : Nat
  dr : List Bool
  /-- Update latch of the boundary register. -/
  latch : List Bool
  tdo : Option Bool
  deriving DecidableEq, Repr

def Tap.init : Tap := ⟨.reset, 0, 1, 1, [], [], none⟩

/-! ### What leaves the T9 -/

/-- Return codes of mailbox commands (R175, R218). -/
inductive MboxRc where
  | success
  | invalidInput
  | unsupported
  | invalidPhysicalAddress
  deriving DecidableEq, Repr

/-- An output at the pins. -/
inductive Output where
  | cxlData (p : Nat) (l : LinkId) (tag : Nat) (data : List Byte) (poison : Bool)
  | cxlCmp (p : Nat) (l : LinkId) (tag : Nat)
  | bar2Data (p : Nat) (l : LinkId) (tag : Nat) (data : List Byte) (ep : Bool)
  | bar2Unsupported (p : Nat) (l : LinkId) (tag : Nat)
  | bar0Data (p : Nat) (l : LinkId) (tag value : Nat)
  | bar0Unsupported (p : Nat) (l : LinkId) (tag : Nat)
  | atsRequest (p : Nat) (l : LinkId) (addr : Nat)
  | dmaRead (p : Nat) (l : LinkId) (id addr len : Nat) (translated : Bool)
  | hostWrite (p : Nat) (l : LinkId) (addr : Nat) (data : List Byte) (relaxed : Bool)
  | msix (p : Nat) (l : LinkId) (addr data : Nat)
  | invalComplete (p : Nat) (l : LinkId) (tag : Nat)
  | pmPme (p : Nat) (l : LinkId)
  | pmeToAck (p : Nat) (l : LinkId)
  | mailbox (p : Nat) (l : LinkId) (rc : MboxRc) (payload : List Byte)
  | frame (dst udp : Nat) (bytes : List Byte)
  /-- The reply to an access whose command names no frame. -/
  | answer (d : Door) (abort type : Nat) (data : List Byte)
  | notify (session : Option Nat) (bytes : List Byte)
  | neighborAdvert (dst : Nat)
  | echoReply (dst : Nat) (payload : List Byte)
  | wakeN (p : Nat) (low : Bool)
  | readyPin (high : Bool)
  | fieldEnPin (high : Bool)
  | thermtripLow
  | dbgLow
  /-- A word on DBG[15:0] (R284). -/
  | dbg (word : Nat)
  | termination (p : Nat) (present : Bool)
  | cxlEvent (p : Nat) (log : Nat) (r : CxlRecord)
  | tdo (bit : Option Bool)
  deriving DecidableEq, Repr

end Sys2Proof.Machine
end

