-- ==== Sys2Proof/Machine/Catalogue.lean ====
section
/-! DEFINITION. The catalogue of dictionary objects: one row per object or family of objects of the tables of spec/02 to spec/10
(R192-R195, R221). Ranges are those the tables state for objects outside a group; a group checks its own. -/

namespace Sys2Proof.Machine

/-- Access classes (Table 9.2). -/
inductive Acc where
  | const | ro | rw | wo | wonce | rwp
  deriving DecidableEq, Repr

/-- A row: objects base + step * i (i < count), subindices lo to hi of one type, with modifiers, default, persistence and range. -/
structure Obj where
  base : Nat
  step : Nat
  count : Nat
  sub0 : Nat
  sub1 : Nat
  ty : Nat
  size : Nat
  acc : Acc
  grp : Bool
  auth : Bool
  trn : Bool
  dflt : Nat
  persist : Bool
  lo : Nat
  hi : Nat
  deriving DecidableEq, Repr

/-- Objects at 0x1000 upward. -/
def objs1 : List Obj := [
  ⟨0x1000, 0x1, 1, 0x01, 0x01, 11, 32, .const, false, false, false, 0, false, 0, 0⟩,  -- VENDOR_NAME
  ⟨0x1000, 0x1, 1, 0x02, 0x02, 11, 16, .const, false, false, false, 0, false, 0, 0⟩,  -- PART_NAME
  ⟨0x1000, 0x1, 1, 0x03, 0x03, 11, 16, .const, false, false, false, 0, true, 0, 0⟩,  -- ORDERING_CODE
  ⟨0x1000, 0x1, 1, 0x04, 0x04, 2, 1, .const, false, false, false, 0, true, 0, 255⟩,  -- STEPPING
  ⟨0x1000, 0x1, 1, 0x05, 0x05, 10, 8, .const, false, false, false, 0, true, 0, 0⟩,  -- SERIAL
  ⟨0x1000, 0x1, 1, 0x06, 0x06, 4, 4, .const, false, false, false, 0, true, 0, 4294967295⟩,  -- MFG_DATE
  ⟨0x1000, 0x1, 1, 0x07, 0x07, 2, 1, .const, false, false, false, 0, false, 0, 255⟩,  -- STACK_MASK
  ⟨0x1000, 0x1, 1, 0x08, 0x08, 2, 1, .const, false, false, false, 0, false, 0, 255⟩,  -- PORT_MASK
  ⟨0x1000, 0x1, 1, 0x09, 0x09, 3, 2, .const, false, false, false, 0, false, 0, 65535⟩,  -- STRIDE_MASK
  ⟨0x1000, 0x1, 1, 0x0A, 0x0A, 11, 32, .wonce, false, false, false, 0, true, 0, 0⟩,  -- ASSET_TAG
  ⟨0x1100, 0x1, 1, 0x00, 0x00, 3, 2, .const, false, false, false, 0, false, 0, 65535⟩,  -- CAP_ROOT
  ⟨0x1110, 0x1, 1, 0x00, 0x00, 4, 4, .const, false, false, false, 0, false, 0, 4294967295⟩,  -- CAP_1110
  ⟨0x1110, 0x1, 1, 0x01, 0x01, 2, 1, .const, false, false, false, 0, false, 0, 255⟩,  -- CAP_1110_1
  ⟨0x1110, 0x1, 1, 0x02, 0x02, 2, 1, .const, false, false, false, 0, false, 0, 255⟩,  -- CAP_1110_2
  ⟨0x1110, 0x1, 1, 0x03, 0x03, 3, 2, .const, false, false, false, 0, false, 0, 65535⟩,  -- CAP_1110_3
  ⟨0x1120, 0x1, 1, 0x00, 0x00, 4, 4, .const, false, false, false, 0, false, 0, 4294967295⟩,  -- CAP_1120
  ⟨0x1120, 0x1, 1, 0x01, 0x01, 2, 1, .const, false, false, false, 0, false, 0, 255⟩,  -- CAP_1120_1
  ⟨0x1130, 0x1, 1, 0x00, 0x00, 4, 4, .const, false, false, false, 0, false, 0, 4294967295⟩,  -- CAP_1130
  ⟨0x1130, 0x1, 1, 0x01, 0x01, 3, 2, .const, false, false, false, 0, false, 0, 65535⟩,  -- CAP_1130_1
  ⟨0x1140, 0x1, 1, 0x00, 0x00, 4, 4, .const, false, false, false, 0, false, 0, 4294967295⟩,  -- CAP_1140
  ⟨0x1140, 0x1, 1, 0x01, 0x01, 2, 1, .const, false, false, false, 0, false, 0, 255⟩,  -- CAP_1140_1
  ⟨0x1150, 0x1, 1, 0x00, 0x00, 4, 4, .const, false, false, false, 0, false, 0, 4294967295⟩,  -- CAP_1150
  ⟨0x1150, 0x1, 1, 0x01, 0x01, 2, 1, .const, false, false, false, 0, false, 0, 255⟩,  -- CAP_1150_1
  ⟨0x1150, 0x1, 1, 0x02, 0x02, 2, 1, .const, false, false, false, 0, false, 0, 255⟩,  -- CAP_1150_2
  ⟨0x1160, 0x1, 1, 0x00, 0x00, 4, 4, .const, false, false, false, 0, false, 0, 4294967295⟩,  -- CAP_1160
  ⟨0x1160, 0x1, 1, 0x01, 0x01, 4, 4, .const, false, false, false, 0, false, 0, 4294967295⟩,  -- CAP_1160_1
  ⟨0x1160, 0x1, 1, 0x02, 0x02, 2, 1, .const, false, false, false, 0, false, 0, 255⟩,  -- CAP_1160_2
  ⟨0x1170, 0x1, 1, 0x00, 0x00, 4, 4, .const, false, false, false, 0, false, 0, 4294967295⟩,  -- CAP_1170
  ⟨0x1170, 0x1, 1, 0x01, 0x01, 2, 1, .const, false, false, false, 0, false, 0, 255⟩,  -- CAP_1170_1
  ⟨0x1170, 0x1, 1, 0x02, 0x02, 1, 1, .ro, false, false, false, 0, false, 0, 1⟩,  -- CAP_1170_2
  ⟨0x1200, 0x1, 1, 0x01, 0x01, 2, 1, .ro, false, false, false, 0, false, 0, 255⟩,  -- RUN_STATE
  ⟨0x1200, 0x1, 1, 0x02, 0x02, 2, 1, .wo, false, true, false, 0, false, 0, 255⟩,  -- SOFT_RESET
  ⟨0x1200, 0x1, 1, 0x03, 0x03, 2, 1, .wo, false, true, false, 0, false, 0, 255⟩,  -- RUN_REQUEST
  ⟨0x1200, 0x1, 1, 0x04, 0x04, 2, 1, .ro, false, false, false, 0, false, 0, 255⟩,  -- RUN_REQUEST_STATUS
  ⟨0x1200, 0x1, 1, 0x05, 0x05, 2, 1, .ro, false, false, false, 0, false, 0, 255⟩,  -- START_KIND
  ⟨0x1200, 0x1, 1, 0x06, 0x06, 4, 4, .ro, false, false, false, 0, false, 0, 4294967295⟩,  -- START_TIME
  ⟨0x1200, 0x1, 1, 0x07, 0x07, 3, 2, .ro, false, false, false, 0, false, 0, 65535⟩,  -- FALSE_START_CAUSE
  ⟨0x1200, 0x1, 1, 0x08, 0x08, 5, 8, .ro, false, false, false, 0, false, 0, 18446744073709551615⟩,  -- GO_SECONDS
  ⟨0x1200, 0x1, 1, 0x09, 0x09, 1, 1, .ro, false, false, false, 0, false, 0, 1⟩,  -- READY
  ⟨0x1280, 0x1, 1, 0x01, 0x01, 10, 6, .const, false, false, false, 0, true, 0, 0⟩  -- FIELD_MAC
]

/-- Objects at 0x1000 upward. -/
def objs1b : List Obj := [
  ⟨0x1280, 0x1, 1, 0x02, 0x02, 2, 1, .rwp, false, false, false, 8, true, 2, 16⟩,  -- FIELD_PLCA_NODES
  ⟨0x1280, 0x1, 1, 0x03, 0x03, 2, 1, .rwp, false, false, false, 32, true, 0, 255⟩,  -- FIELD_TO_TIMER
  ⟨0x1280, 0x1, 1, 0x04, 0x04, 3, 2, .rw, false, false, false, 65535, true, 0, 65535⟩,  -- NOTIFY_MASK
  ⟨0x1280, 0x1, 1, 0x05, 0x05, 1, 1, .rw, false, false, false, 1, true, 0, 1⟩,  -- FIELD_NOTIFY_MCAST
  ⟨0x1280, 0x1, 1, 0x06, 0x06, 4, 4, .rw, false, false, false, 10, true, 1, 3600⟩,  -- STAGE_TIMEOUT
  ⟨0x1280, 0x1, 1, 0x07, 0x07, 1, 1, .ro, false, false, false, 0, false, 0, 1⟩,  -- PERSIST_PENDING
  ⟨0x1280, 0x1, 1, 0x08, 0x08, 1, 1, .wo, false, false, false, 0, false, 0, 1⟩,  -- PERSIST_SYNC
  ⟨0x1300, 0x1, 1, 0x01, 0x01, 3, 2, .const, false, false, false, 1024, false, 0, 65535⟩,  -- EVT_DEPTH
  ⟨0x1300, 0x1, 1, 0x02, 0x02, 4, 4, .ro, false, false, false, 0, false, 0, 4294967295⟩,  -- EVT_OLDEST
  ⟨0x1300, 0x1, 1, 0x03, 0x03, 4, 4, .ro, false, false, false, 0, false, 0, 4294967295⟩,  -- EVT_NEXT
  ⟨0x1300, 0x1, 1, 0x04, 0x04, 4, 4, .rw, false, false, false, 0, false, 0, 4294967295⟩,  -- EVT_SELECT
  ⟨0x1300, 0x1, 1, 0x05, 0x05, 10, 32, .ro, false, false, false, 0, false, 0, 0⟩,  -- EVT_RECORD
  ⟨0x1300, 0x1, 1, 0x06, 0x06, 4, 4, .rw, false, false, false, 0, false, 0, 4294967295⟩,  -- EVT_ACK
  ⟨0x1300, 0x1, 1, 0x07, 0x07, 1, 1, .ro, false, false, false, 0, false, 0, 1⟩,  -- EVT_OVERFLOW
  ⟨0x1300, 0x1, 1, 0x08, 0x08, 5, 8, .ro, false, false, false, 0, false, 0, 18446744073709551615⟩,  -- EVT_LOST
  ⟨0x1300, 0x1, 1, 0x09, 0x09, 10, 8192, .ro, false, false, false, 0, false, 0, 0⟩,  -- EVT_BLOCK
  ⟨0x1310, 0x1, 1, 0x01, 0x01, 5, 8, .ro, false, false, false, 0, false, 0, 18446744073709551615⟩,  -- HOST_READS
  ⟨0x1310, 0x1, 1, 0x02, 0x02, 5, 8, .ro, false, false, false, 0, false, 0, 18446744073709551615⟩,  -- HOST_WRITES
  ⟨0x1310, 0x1, 1, 0x03, 0x03, 5, 8, .ro, false, false, false, 0, false, 0, 18446744073709551615⟩,  -- POISON_READS
  ⟨0x1310, 0x1, 1, 0x04, 0x04, 5, 8, .ro, false, false, false, 0, false, 0, 18446744073709551615⟩,  -- ZERO_READS
  ⟨0x1310, 0x1, 1, 0x05, 0x05, 5, 8, .ro, false, false, false, 0, false, 0, 18446744073709551615⟩,  -- DISCARDED_WRITES
  ⟨0x1310, 0x1, 1, 0x06, 0x06, 5, 8, .ro, false, false, false, 0, false, 0, 18446744073709551615⟩,  -- POISONED_PAGE_WRITES
  ⟨0x1310, 0x1, 1, 0x07, 0x07, 5, 8, .ro, false, false, false, 0, false, 0, 18446744073709551615⟩,  -- PROMOTIONS
  ⟨0x1310, 0x1, 1, 0x08, 0x08, 5, 8, .ro, false, false, false, 0, false, 0, 18446744073709551615⟩,  -- DEMOTIONS
  ⟨0x1310, 0x1, 1, 0x09, 0x09, 5, 8, .ro, false, false, false, 0, false, 0, 18446744073709551615⟩,  -- WRITEBACKS
  ⟨0x1310, 0x1, 1, 0x0A, 0x0A, 5, 8, .ro, false, false, false, 0, false, 0, 18446744073709551615⟩,  -- BACKING_TIMEOUTS
  ⟨0x1310, 0x1, 1, 0x0B, 0x0B, 5, 8, .ro, false, false, false, 0, false, 0, 18446744073709551615⟩,  -- STRIDE_JOBS
  ⟨0x1310, 0x1, 1, 0x0C, 0x0C, 5, 8, .ro, false, false, false, 0, false, 0, 18446744073709551615⟩,  -- STRIDE_FAULTS
  ⟨0x1310, 0x1, 1, 0x10, 0x10, 10, 96, .ro, false, false, false, 0, false, 0, 0⟩,  -- TELEMETRY_SNAPSHOT
  ⟨0x1310, 0x1, 1, 0x11, 0x11, 1, 1, .wo, false, false, false, 0, false, 0, 1⟩,  -- TELEMETRY_CLEAR
  ⟨0x1320, 0x1, 1, 0x01, 0x09, 5, 8, .ro, false, false, false, 0, false, 0, 18446744073709551615⟩,  -- PAGE_COUNT
  ⟨0x1330, 0x1, 1, 0x01, 0x01, 4, 4, .rw, false, false, false, 0, false, 0, 4294967295⟩,  -- PROBE_PAGE
  ⟨0x1330, 0x1, 1, 0x02, 0x02, 4, 4, .wo, false, false, false, 0, false, 0, 4294967295⟩,  -- PROBE_WINDOW
  ⟨0x1330, 0x1, 1, 0x03, 0x03, 10, 24, .ro, false, false, false, 0, false, 0, 0⟩,  -- PROBE_ENTRY
  ⟨0x1800, 0x1, 1, 0x01, 0x04, 10, 32, .wo, false, true, false, 0, true, 0, 0⟩,  -- SESSION_KEY_0–3
  ⟨0x1800, 0x1, 1, 0x05, 0x05, 2, 1, .ro, false, false, false, 0, false, 0, 255⟩,  -- SESSION_KEY_SET
  ⟨0x1800, 0x1, 1, 0x06, 0x06, 1, 1, .rw, false, true, false, 1, true, 0, 1⟩,  -- INFIELD_TRUST
  ⟨0x1800, 0x1, 1, 0x07, 0x07, 4, 4, .rw, false, true, false, 60, true, 5, 3600⟩,  -- SESSION_IDLE
  ⟨0x1800, 0x1, 1, 0x08, 0x08, 2, 1, .ro, false, false, false, 0, false, 0, 255⟩,  -- SESSIONS_OPEN
  ⟨0x1800, 0x1, 1, 0x09, 0x09, 5, 8, .ro, false, false, false, 0, false, 0, 18446744073709551615⟩  -- AUTH_FAILURES
]

/-- Objects at 0x1000 upward. -/
def objs1c : List Obj := [
  ⟨0x1801, 0x1, 1, 0x01, 0x01, 10, 32, .const, false, false, false, 0, true, 0, 0⟩,  -- AZMOR_SIGNER
  ⟨0x1801, 0x1, 1, 0x02, 0x02, 10, 32, .wonce, false, true, false, 0, true, 0, 0⟩,  -- POLICY_SIGNER
  ⟨0x1810, 0x1, 64, 0x01, 0x01, 10, 64, .wo, false, true, false, 0, false, 0, 0⟩,  -- VAULT_KEY
  ⟨0x1810, 0x1, 64, 0x02, 0x02, 1, 1, .ro, false, false, false, 0, false, 0, 1⟩,  -- VAULT_KEY_SET
  ⟨0x1810, 0x1, 64, 0x03, 0x03, 4, 4, .ro, false, false, false, 0, true, 0, 4294967295⟩  -- VAULT_KEY_CHECK
]

/-- Objects at 0x2000 upward. -/
def objs2 : List Obj := [
  ⟨0x2000, 0x1, 1, 0x01, 0x01, 3, 2, .rwp, false, false, false, 200, true, 100, 400⟩,  -- PROVISION_RATIO
  ⟨0x2000, 0x1, 1, 0x02, 0x02, 4, 4, .ro, false, false, false, 0, false, 0, 4294967295⟩,  -- LOGICAL_EXTENTS
  ⟨0x2000, 0x1, 1, 0x03, 0x03, 5, 8, .ro, false, false, false, 0, false, 0, 18446744073709551615⟩,  -- USABLE_PLOTS
  ⟨0x2000, 0x1, 1, 0x04, 0x04, 3, 2, .rw, false, false, false, 200, true, 0, 10000⟩,  -- PLOT_LOW_MARK
  ⟨0x2000, 0x1, 1, 0x05, 0x05, 4, 4, .rw, false, false, false, 5000, true, 0, 4294967295⟩,  -- BACKING_TIMEOUT
  ⟨0x2000, 0x1, 1, 0x06, 0x06, 5, 8, .ro, false, false, false, 0, false, 0, 18446744073709551615⟩,  -- FREE_PLOTS
  ⟨0x2000, 0x1, 1, 0x07, 0x07, 1, 1, .ro, false, false, false, 0, false, 0, 1⟩,  -- PROVISION_SETTLED
  ⟨0x2100, 0x1, 64, 0x01, 0x01, 4, 4, .rw, true, false, false, 0, true, 0, 4294967295⟩,  -- REGION_FIRST
  ⟨0x2100, 0x1, 64, 0x02, 0x02, 4, 4, .rw, true, false, false, 0, true, 0, 4294967295⟩,  -- REGION_EXTENTS
  ⟨0x2100, 0x1, 64, 0x03, 0x03, 2, 1, .rw, true, false, false, 0, true, 0, 255⟩,  -- REGION_ELEMENT
  ⟨0x2100, 0x1, 64, 0x04, 0x04, 2, 1, .rw, true, false, false, 0, true, 0, 255⟩,  -- REGION_FLAGS
  ⟨0x2100, 0x1, 64, 0x05, 0x05, 2, 1, .rw, true, false, false, 255, true, 0, 255⟩,  -- REGION_HOME
  ⟨0x2100, 0x1, 64, 0x06, 0x06, 3, 2, .rw, false, false, false, 64, true, 0, 65535⟩,  -- REGION_BUILD_PAGES
  ⟨0x2100, 0x1, 64, 0x07, 0x07, 4, 4, .rw, false, false, false, 2000, true, 0, 4294967295⟩,  -- REGION_SEAL_IDLE
  ⟨0x2100, 0x1, 64, 0x08, 0x08, 2, 1, .rw, false, false, false, 0, true, 0, 15⟩,  -- REGION_BIB
  ⟨0x2200, 0x1, 4, 0x01, 0x01, 2, 1, .rw, false, false, false, 40, true, 30, 44⟩,  -- WINDOW_LOG2
  ⟨0x2200, 0x1, 4, 0x02, 0x02, 4, 4, .rw, true, false, false, 0, false, 0, 4294967295⟩,  -- MAP_FIRST
  ⟨0x2200, 0x1, 4, 0x03, 0x03, 3, 2, .rw, true, false, false, 1, false, 0, 65535⟩,  -- MAP_COUNT
  ⟨0x2200, 0x1, 4, 0x04, 0x04, 12, 2048, .rw, true, false, false, 0, false, 0, 0⟩,  -- MAP_ENTRIES
  ⟨0x2200, 0x1, 4, 0x05, 0x05, 2, 1, .rwp, false, false, false, 0, true, 0, 255⟩,  -- APERTURE_BIB
  ⟨0x2200, 0x1, 4, 0x06, 0x06, 4, 4, .ro, false, false, false, 0, false, 0, 4294967295⟩,  -- MAPPED_SLOTS
  ⟨0x2400, 0x1, 1, 0x01, 0x01, 4, 4, .wo, false, false, false, 0, false, 0, 4294967295⟩,  -- EXTENT_RELEASE
  ⟨0x2400, 0x1, 1, 0x02, 0x02, 2, 1, .ro, false, false, false, 0, false, 0, 255⟩  -- EXTENT_RELEASE_STATUS
]

/-- Objects at 0x3000 upward. -/
def objs3 : List Obj := [
  ⟨0x3000, 0x100, 4, 0x01, 0x01, 2, 1, .rwp, false, false, false, 0, true, 0, 1⟩,  -- PORT_MODE
  ⟨0x3000, 0x100, 4, 0x02, 0x02, 1, 1, .rwp, false, false, false, 0, true, 0, 1⟩,  -- PORT_BIFURCATE
  ⟨0x3000, 0x100, 4, 0x03, 0x03, 2, 1, .rw, false, false, false, 0, true, 0, 5⟩,  -- PORT_SPEED_CAP
  ⟨0x3000, 0x100, 4, 0x04, 0x04, 2, 1, .rwp, false, false, false, 34, true, 30, 34⟩,  -- BAR2_LOG2
  ⟨0x3000, 0x100, 4, 0x05, 0x05, 4, 4, .rw, false, false, false, 100, true, 10, 1000000⟩,  -- PORT_L1_IDLE
  ⟨0x3000, 0x100, 4, 0x06, 0x06, 4, 4, .rw, false, false, false, 20, true, 2, 100000⟩,  -- PORT_L0P_IDLE
  ⟨0x3000, 0x100, 4, 0x07, 0x07, 2, 1, .ro, false, false, false, 0, false, 0, 255⟩,  -- PORT_LINK
  ⟨0x3000, 0x100, 4, 0x08, 0x08, 2, 1, .ro, false, false, false, 0, false, 0, 255⟩,  -- PORT_SPEED
  ⟨0x3000, 0x100, 4, 0x09, 0x09, 2, 1, .ro, false, false, false, 0, false, 0, 255⟩,  -- PORT_WIDTH
  ⟨0x3000, 0x100, 4, 0x0A, 0x0A, 2, 1, .ro, false, false, false, 0, false, 0, 255⟩,  -- PORT_DSTATE
  ⟨0x3000, 0x100, 4, 0x0B, 0x0B, 5, 8, .ro, false, false, false, 0, false, 0, 18446744073709551615⟩,  -- PORT_LINK_DOWNS
  ⟨0x3000, 0x100, 4, 0x0C, 0x0C, 5, 8, .ro, false, false, false, 0, false, 0, 18446744073709551615⟩,  -- PORT_AER_CE
  ⟨0x3040, 0x100, 4, 0x01, 0x01, 1, 1, .wo, false, false, false, 0, false, 0, 1⟩,  -- PORT_RELEASE
  ⟨0x3040, 0x100, 4, 0x02, 0x02, 2, 1, .rw, false, false, false, 0, true, 0, 1⟩,  -- PORT_SR_MODE
  ⟨0x3040, 0x100, 4, 0x03, 0x03, 1, 1, .ro, false, false, false, 0, false, 0, 1⟩,  -- PORT_FROZEN
  ⟨0x3040, 0x100, 4, 0x04, 0x04, 1, 1, .ro, false, false, false, 0, false, 0, 1⟩,  -- PORT_DRAINED
  ⟨0x3040, 0x100, 4, 0x05, 0x05, 2, 1, .ro, false, false, false, 0, false, 0, 255⟩,  -- PORT_FREEZE_CAUSE
  ⟨0x3040, 0x100, 4, 0x06, 0x06, 5, 8, .ro, false, false, false, 0, false, 0, 18446744073709551615⟩  -- PORT_FREEZES
]

/-- Objects at 0x4000 upward. -/
def objs4 : List Obj := [
  ⟨0x4000, 0x10, 16, 0x01, 0x01, 2, 1, .ro, false, false, false, 0, false, 0, 255⟩,  -- CHAN_STATE
  ⟨0x4000, 0x10, 16, 0x02, 0x02, 2, 1, .ro, false, false, false, 0, false, 0, 255⟩,  -- CHAN_OUT_REASON
  ⟨0x4000, 0x10, 16, 0x03, 0x03, 2, 1, .rw, false, false, false, 1, true, 0, 1⟩,  -- CHAN_SCHED
  ⟨0x4000, 0x10, 16, 0x04, 0x04, 2, 1, .rw, false, false, false, 0, true, 0, 2⟩,  -- CHAN_SR_POLICY
  ⟨0x4000, 0x10, 16, 0x05, 0x05, 1, 1, .ro, false, false, false, 0, false, 0, 1⟩,  -- CHAN_GUARDED
  ⟨0x4000, 0x10, 16, 0x06, 0x06, 5, 8, .ro, false, false, false, 0, false, 0, 18446744073709551615⟩,  -- CHAN_FREE_PLOTS
  ⟨0x4000, 0x10, 16, 0x07, 0x07, 6, 2, .ro, false, false, false, 32768, false, 0, 65535⟩,  -- CHAN_TEMP
  ⟨0x4000, 0x10, 16, 0x08, 0x08, 1, 1, .wo, false, true, false, 0, false, 0, 1⟩,  -- CHAN_MAP_OUT
  ⟨0x4001, 0x10, 16, 0x01, 0x0C, 3, 2, .rwp, true, false, false, 0, true, 0, 65535⟩,  -- CHAN_TIMING
  ⟨0x4002, 0x10, 16, 0x01, 0x01, 5, 8, .ro, false, false, false, 0, false, 0, 18446744073709551615⟩,  -- CHAN_CE
  ⟨0x4002, 0x10, 16, 0x02, 0x02, 5, 8, .ro, false, false, false, 0, false, 0, 18446744073709551615⟩,  -- CHAN_UE
  ⟨0x4002, 0x10, 16, 0x03, 0x03, 5, 8, .ro, false, false, false, 0, false, 0, 18446744073709551615⟩,  -- CHAN_HURDLE_WAITS
  ⟨0x4003, 0x10, 16, 0x01, 0x01, 2, 1, .rw, false, false, true, 0, false, 0, 3⟩,  -- TRN_MODE
  ⟨0x4003, 0x10, 16, 0x02, 0x02, 4, 4, .rw, false, false, true, 44257, false, 1, 4294967295⟩,  -- TRN_SEED
  ⟨0x4003, 0x10, 16, 0x03, 0x03, 2, 1, .rw, false, false, true, 0, false, 0, 3⟩,  -- TRN_RANK
  ⟨0x4003, 0x10, 16, 0x04, 0x04, 2, 1, .rw, false, false, true, 3, false, 0, 3⟩,  -- TRN_SUBCH
  ⟨0x4003, 0x10, 16, 0x05, 0x05, 2, 1, .rw, false, false, true, 0, false, 0, 4⟩,  -- TRN_OP
  ⟨0x4003, 0x10, 16, 0x06, 0x06, 2, 1, .rw, false, false, true, 0, false, 0, 7⟩,  -- TRN_SWEEP
  ⟨0x4003, 0x10, 16, 0x07, 0x07, 4, 4, .rw, false, false, true, 0, false, 0, 4294967295⟩,  -- TRN_RANGE
  ⟨0x4003, 0x10, 16, 0x08, 0x08, 4, 4, .rw, false, false, true, 4096, false, 0, 4294967295⟩,  -- TRN_BEATS
  ⟨0x4003, 0x10, 16, 0x09, 0x09, 1, 1, .wo, false, false, true, 0, false, 0, 1⟩,  -- TRN_RUN
  ⟨0x4003, 0x10, 16, 0x0A, 0x0A, 2, 1, .ro, false, false, false, 0, false, 0, 255⟩,  -- TRN_STATUS
  ⟨0x4003, 0x10, 16, 0x0B, 0x0B, 10, 160, .ro, false, false, false, 0, false, 0, 0⟩,  -- TRN_ERRORS
  ⟨0x4003, 0x10, 16, 0x0C, 0x0C, 2, 1, .rw, false, false, false, 26, true, 0, 255⟩,  -- TRN_MIN_EYE
  ⟨0x4004, 0x10, 16, 0x01, 0x01, 10, 640, .rw, false, false, true, 0, false, 0, 0⟩,  -- TRN_USER_RAM
  ⟨0x4004, 0x10, 16, 0x02, 0x02, 10, 2560, .ro, false, false, false, 0, false, 0, 0⟩,  -- TRN_PASS_MAP
  ⟨0x4004, 0x10, 16, 0x03, 0x03, 10, 480, .rw, false, false, true, 0, false, 0, 0⟩,  -- TRN_DELAYS
  ⟨0x4100, 0x1, 1, 0x01, 0x01, 3, 2, .rwp, false, false, false, 6400, true, 0, 65535⟩,  -- DIST_RATE_CAP
  ⟨0x4100, 0x1, 1, 0x02, 0x02, 4, 4, .rw, false, false, false, 50, true, 5, 1000000⟩,  -- SR_IDLE
  ⟨0x4100, 0x1, 1, 0x03, 0x03, 4, 4, .rw, false, false, false, 2000, true, 200, 100000⟩,  -- DIST_AGE_LIMIT
  ⟨0x4100, 0x1, 1, 0x04, 0x04, 4, 4, .rw, false, false, false, 3600, true, 60, 86400⟩,  -- ERR_WINDOW
  ⟨0x4100, 0x1, 1, 0x05, 0x05, 4, 4, .rw, false, false, false, 1000, true, 0, 4294967295⟩,  -- CE_LIMIT
  ⟨0x4100, 0x1, 1, 0x06, 0x06, 4, 4, .rw, false, false, false, 4, true, 0, 4294967295⟩,  -- UE_LIMIT
  ⟨0x4100, 0x1, 1, 0x07, 0x07, 4, 4, .rw, false, false, false, 86400, true, 3600, 604800⟩,  -- DIST_SCRUB_PERIOD
  ⟨0x4100, 0x1, 1, 0x08, 0x08, 3, 2, .ro, false, false, false, 0, false, 0, 65535⟩,  -- DIST_RATE
  ⟨0x4100, 0x1, 1, 0x09, 0x09, 3, 2, .ro, false, false, false, 0, false, 0, 65535⟩,  -- DIST_FILL
  ⟨0x4800, 0x10, 8, 0x01, 0x01, 1, 1, .const, false, false, false, 0, false, 0, 1⟩,  -- STACK_PRESENT
  ⟨0x4800, 0x10, 8, 0x02, 0x02, 4, 4, .ro, false, false, false, 0, false, 0, 4294967295⟩,  -- STACK_PC_OUT
  ⟨0x4800, 0x10, 8, 0x03, 0x03, 4, 4, .ro, false, false, false, 0, false, 0, 4294967295⟩,  -- STACK_FREE_SLOTS
  ⟨0x4800, 0x10, 8, 0x04, 0x04, 6, 2, .ro, false, false, false, 32768, false, 0, 65535⟩  -- STACK_TEMP
]

/-- Objects at 0x4000 upward. -/
def objs4b : List Obj := [
  ⟨0x4800, 0x10, 8, 0x05, 0x05, 5, 8, .ro, false, false, false, 0, false, 0, 18446744073709551615⟩,  -- STACK_CE
  ⟨0x4800, 0x10, 8, 0x06, 0x06, 5, 8, .ro, false, false, false, 0, false, 0, 18446744073709551615⟩,  -- STACK_UE
  ⟨0x4800, 0x10, 8, 0x07, 0x07, 2, 1, .wo, false, true, false, 0, false, 0, 31⟩,  -- STACK_PC_MAP_OUT
  ⟨0x4880, 0x1, 1, 0x01, 0x01, 4, 4, .rw, false, false, false, 1000, true, 100, 100000⟩,  -- SPRINT_AGE_LIMIT
  ⟨0x4880, 0x1, 1, 0x02, 0x02, 4, 4, .rw, false, false, false, 3600, true, 600, 86400⟩,  -- SPRINT_SCRUB_PERIOD
  ⟨0x4880, 0x1, 1, 0x03, 0x03, 4, 4, .rw, false, false, false, 1000, true, 0, 4294967295⟩,  -- PC_CE_LIMIT
  ⟨0x4880, 0x1, 1, 0x04, 0x04, 4, 4, .rw, false, false, false, 4, true, 0, 4294967295⟩  -- PC_UE_LIMIT
]

/-- Objects at 0x5000 upward. -/
def objs5 : List Obj := [
  ⟨0x5000, 0x1, 1, 0x01, 0x01, 2, 1, .rw, false, false, false, 32, true, 8, 64⟩,  -- MOVE_READ_CREDITS
  ⟨0x5000, 0x1, 1, 0x02, 0x02, 2, 1, .rw, false, false, false, 8, true, 1, 8⟩,  -- MOVES_PER_ENGINE
  ⟨0x5000, 0x1, 1, 0x03, 0x03, 2, 1, .rw, false, false, false, 0, true, 0, 15⟩,  -- FIRMWARE_BIB
  ⟨0x5000, 0x1, 1, 0x04, 0x04, 3, 2, .rw, false, false, false, 1000, true, 0, 10000⟩,  -- DEMOTE_FREE_MARK
  ⟨0x5000, 0x1, 1, 0x05, 0x05, 4, 4, .rw, false, false, false, 10000, true, 0, 4294967295⟩,  -- DEMOTE_IDLE
  ⟨0x5000, 0x1, 1, 0x06, 0x06, 2, 1, .rw, false, false, false, 4, true, 0, 255⟩,  -- PROMOTE_READS
  ⟨0x5000, 0x1, 1, 0x07, 0x07, 4, 4, .rw, false, false, false, 1000, true, 0, 4294967295⟩,  -- COUNTER_EPOCH
  ⟨0x5000, 0x1, 1, 0x08, 0x08, 4, 4, .rw, false, false, false, 20, true, 0, 4294967295⟩,  -- PROMOTE_SLOT_WAIT
  ⟨0x5000, 0x1, 1, 0x09, 0x09, 3, 2, .rw, false, false, false, 300, true, 0, 65535⟩,  -- REBUILD_ESCAPE_MARK
  ⟨0x5000, 0x1, 1, 0x0A, 0x0A, 3, 2, .rw, false, false, false, 1000, true, 200, 2000⟩,  -- SEAL_CLOSE_LIMIT
  ⟨0x5010, 0x1, 1, 0x01, 0x01, 3, 2, .ro, false, false, false, 0, false, 0, 65535⟩,  -- RELAY_FENCED
  ⟨0x5010, 0x1, 1, 0x02, 0x02, 5, 8, .ro, false, false, false, 0, false, 0, 18446744073709551615⟩,  -- MOVES_DONE
  ⟨0x5010, 0x1, 1, 0x03, 0x03, 5, 8, .ro, false, false, false, 0, false, 0, 18446744073709551615⟩,  -- MOVES_ABANDONED
  ⟨0x5010, 0x1, 1, 0x04, 0x04, 5, 8, .ro, false, false, false, 0, false, 0, 18446744073709551615⟩,  -- MOVES_RESTARTED
  ⟨0x5010, 0x1, 1, 0x05, 0x05, 5, 8, .ro, false, false, false, 0, false, 0, 18446744073709551615⟩,  -- SEALS
  ⟨0x5010, 0x1, 1, 0x06, 0x06, 5, 8, .ro, false, false, false, 0, false, 0, 18446744073709551615⟩,  -- BYPASS_READS
  ⟨0x5010, 0x1, 1, 0x07, 0x07, 5, 8, .ro, false, false, false, 0, false, 0, 18446744073709551615⟩,  -- CHECK_FAILS
  ⟨0x5010, 0x1, 1, 0x08, 0x08, 5, 8, .ro, false, false, false, 0, false, 0, 18446744073709551615⟩,  -- VAULT_LOCKED
  ⟨0x5010, 0x1, 1, 0x09, 0x09, 5, 8, .ro, false, false, false, 0, false, 0, 18446744073709551615⟩,  -- REPAIRS
  ⟨0x5010, 0x1, 1, 0x0A, 0x0A, 5, 8, .ro, false, false, false, 0, false, 0, 18446744073709551615⟩,  -- UNSEALS
  ⟨0x5100, 0x1, 64, 0x01, 0x01, 2, 1, .rw, false, false, false, 1, true, 0, 255⟩,  -- CB_COUNT
  ⟨0x5100, 0x1, 64, 0x02, 0x02, 2, 1, .rw, false, false, false, 0, true, 0, 28⟩,  -- CB_CLASS_SHIFT
  ⟨0x5100, 0x1, 64, 0x03, 0x03, 4, 4, .rw, false, false, false, 1592590337, true, 1, 4294967295⟩,  -- CB_SEED
  ⟨0x5100, 0x1, 64, 0x04, 0x04, 2, 1, .rw, false, false, false, 0, true, 0, 1⟩,  -- CB_SOURCE
  ⟨0x5100, 0x1, 64, 0x05, 0x05, 2, 1, .ro, false, false, false, 255, false, 0, 255⟩,  -- CB_NEWEST
  ⟨0x5100, 0x1, 64, 0x06, 0x06, 3, 2, .ro, false, false, false, 0, false, 0, 65535⟩,  -- CB_LIVE
  ⟨0x5100, 0x1, 64, 0x07, 0x07, 2, 1, .wo, true, false, false, 0, false, 0, 255⟩,  -- CB_LOAD_SLOT
  ⟨0x5100, 0x1, 64, 0x08, 0x08, 10, 16384, .wo, true, false, false, 0, false, 0, 0⟩,  -- CB_LOAD_DATA
  ⟨0x5100, 0x1, 64, 0x09, 0x09, 2, 1, .rw, false, false, false, 0, false, 0, 15⟩,  -- CB_READ_SLOT
  ⟨0x5100, 0x1, 64, 0x0A, 0x0A, 10, 16384, .ro, false, false, false, 0, false, 0, 0⟩,  -- CB_READ_DATA
  ⟨0x5100, 0x1, 64, 0x0B, 0x0B, 2, 1, .wo, false, false, false, 0, false, 0, 15⟩,  -- CB_RETIRE
  ⟨0x5100, 0x1, 64, 0x0C, 0x0C, 4, 4, .ro, false, false, false, 0, false, 0, 4294967295⟩,  -- CB_BUILDS
  ⟨0x5100, 0x1, 64, 0x0D, 0x0D, 2, 1, .ro, false, false, false, 255, false, 0, 255⟩,  -- CB_OLDEST
  ⟨0x5100, 0x1, 64, 0x0E, 0x0E, 3, 2, .ro, false, false, false, 0, false, 0, 65535⟩  -- CB_RETIRING
]

/-- Objects at 0x6000 upward. -/
def objs6 : List Obj := [
  ⟨0x6000, 0x1, 1, 0x01, 0x01, 3, 2, .rw, false, false, false, 200, true, 0, 10000⟩,  -- LEG_NEAR_WAIT
  ⟨0x6000, 0x1, 1, 0x02, 0x02, 2, 1, .rw, false, false, false, 3, true, 1, 8⟩,  -- LEG_RETRY_LIMIT
  ⟨0x6000, 0x1, 1, 0x03, 0x03, 4, 4, .rw, false, false, false, 100, true, 1, 10000⟩,  -- BATON_TIMEOUT
  ⟨0x6000, 0x1, 1, 0x04, 0x04, 3, 2, .ro, false, false, false, 0, false, 0, 65535⟩,  -- ENGINES_FENCED
  ⟨0x6000, 0x1, 1, 0x05, 0x05, 3, 2, .ro, false, false, false, 0, false, 0, 65535⟩,  -- LEGS_IN_FLIGHT
  ⟨0x6000, 0x1, 1, 0x06, 0x06, 5, 8, .ro, false, false, false, 0, false, 0, 18446744073709551615⟩  -- LEGS_RETRIED
]

/-- Objects at 0x7000 upward. -/
def objs7 : List Obj := [
  ⟨0x7000, 0x1, 1, 0x01, 0x01, 2, 1, .rw, false, false, false, 4, true, 2, 8⟩,  -- PACER_EWMA_SHIFT
  ⟨0x7000, 0x1, 1, 0x02, 0x02, 4, 4, .rw, false, false, false, 100, true, 10, 1000000⟩,  -- PACER_IDLE_DECAY
  ⟨0x7000, 0x1, 1, 0x03, 0x03, 4, 4, .rw, false, false, false, 1000, true, 10, 10000000⟩,  -- MISS_HOLDOFF
  ⟨0x7000, 0x1, 1, 0x04, 0x04, 1, 1, .rw, false, false, false, 1, true, 0, 1⟩,  -- MISS_NOTIFY
  ⟨0x7010, 0x1, 16, 0x01, 0x01, 2, 1, .rw, true, false, false, 1, true, 0, 255⟩,  -- BIB_CLASS
  ⟨0x7010, 0x1, 16, 0x02, 0x02, 2, 1, .rw, true, false, false, 0, true, 0, 255⟩,  -- BIB_BASE
  ⟨0x7010, 0x1, 16, 0x03, 0x03, 4, 4, .rw, true, false, false, 0, true, 0, 4294967295⟩,  -- BIB_TARGET
  ⟨0x7010, 0x1, 16, 0x04, 0x04, 4, 4, .rw, true, false, false, 0, true, 0, 4294967295⟩,  -- BIB_LEG_TARGET
  ⟨0x7010, 0x1, 16, 0x05, 0x05, 1, 1, .rw, true, false, false, 0, true, 0, 1⟩,  -- BIB_STATIC_HIGH
  ⟨0x7010, 0x1, 16, 0x06, 0x06, 3, 2, .rw, true, false, false, 1536, true, 0, 65535⟩,  -- BIB_OUTSTANDING
  ⟨0x7010, 0x1, 16, 0x07, 0x07, 3, 2, .rw, true, false, false, 1024, true, 0, 65535⟩,  -- BIB_LEG_LIMIT
  ⟨0x7010, 0x1, 16, 0x08, 0x08, 2, 1, .rw, true, false, false, 100, true, 0, 255⟩,  -- BIB_QUEUE_SHARE
  ⟨0x7010, 0x1, 16, 0x09, 0x09, 3, 2, .rw, false, false, false, 10000, true, 0, 10000⟩,  -- BIB_SPRINT_SHARE
  ⟨0x7040, 0x1, 16, 0x01, 0x01, 4, 4, .ro, false, false, false, 0, false, 0, 4294967295⟩,  -- BIB_READ_AVG
  ⟨0x7040, 0x1, 16, 0x02, 0x02, 4, 4, .ro, false, false, false, 0, false, 0, 4294967295⟩,  -- BIB_LEG_AVG
  ⟨0x7040, 0x1, 16, 0x03, 0x03, 2, 1, .ro, false, false, false, 0, false, 0, 255⟩,  -- BIB_LEVEL
  ⟨0x7040, 0x1, 16, 0x04, 0x04, 4, 4, .ro, false, false, false, 0, false, 0, 4294967295⟩,  -- BIB_MAX_READ
  ⟨0x7040, 0x1, 16, 0x05, 0x05, 4, 4, .ro, false, false, false, 0, false, 0, 4294967295⟩,  -- BIB_MAX_LEG
  ⟨0x7040, 0x1, 16, 0x06, 0x06, 5, 8, .ro, false, false, false, 0, false, 0, 18446744073709551615⟩,  -- BIB_SAMPLES
  ⟨0x7040, 0x1, 16, 0x07, 0x07, 5, 8, .ro, false, false, false, 0, false, 0, 18446744073709551615⟩,  -- BIB_MISSES
  ⟨0x7040, 0x1, 16, 0x08, 0x08, 5, 8, .ro, false, false, false, 0, false, 0, 18446744073709551615⟩,  -- BIB_HELD
  ⟨0x7040, 0x1, 16, 0x09, 0x09, 5, 8, .ro, false, false, false, 0, false, 0, 18446744073709551615⟩,  -- BIB_SPRINT_PAGES
  ⟨0x7040, 0x1, 16, 0x0A, 0x0A, 1, 1, .wo, false, false, false, 0, false, 0, 1⟩,  -- BIB_MON_CLEAR
  ⟨0x7080, 0x1, 4, 0x01, 0x01, 1, 1, .rw, false, false, false, 0, true, 0, 1⟩,  -- URG_ENABLE
  ⟨0x7080, 0x1, 4, 0x02, 0x02, 2, 1, .rw, false, false, false, 50, true, 0, 100⟩,  -- URG_BUDGET
  ⟨0x7080, 0x1, 4, 0x03, 0x03, 2, 1, .ro, false, false, false, 0, false, 0, 255⟩,  -- URG_LEVEL
  ⟨0x7080, 0x1, 4, 0x04, 0x04, 1, 1, .ro, false, false, false, 0, false, 0, 1⟩,  -- URG_SUSPENDED
  ⟨0x7080, 0x1, 4, 0x05, 0x05, 5, 8, .ro, false, false, false, 0, false, 0, 18446744073709551615⟩,  -- URG_SUSPENDS
  ⟨0x7080, 0x1, 4, 0x06, 0x06, 5, 8, .ro, false, false, false, 0, false, 0, 18446744073709551615⟩,  -- URG_RAISED_BYTES
  ⟨0x7080, 0x1, 4, 0x07, 0x07, 2, 1, .rw, false, false, false, 255, true, 0, 255⟩  -- MISS_VECTOR
]

/-- Objects at 0x8000 upward. -/
def objs8 : List Obj := [
  ⟨0x8000, 0x1, 1, 0x01, 0x01, 4, 4, .ro, false, false, false, 0, false, 0, 4294967295⟩,  -- AZMOR_VERSION
  ⟨0x8000, 0x1, 1, 0x02, 0x02, 10, 32, .ro, false, false, false, 0, false, 0, 0⟩,  -- AZMOR_HASH
  ⟨0x8000, 0x1, 1, 0x03, 0x03, 12, 8388608, .wo, false, true, false, 0, true, 0, 0⟩,  -- AZMOR_UPDATE
  ⟨0x8000, 0x1, 1, 0x04, 0x04, 2, 1, .ro, false, false, false, 0, false, 0, 255⟩,  -- AZMOR_UPDATE_STATUS
  ⟨0x8000, 0x1, 1, 0x05, 0x05, 4, 4, .rw, false, false, false, 100, true, 10, 10000⟩,  -- CORE_WATCHDOG
  ⟨0x8010, 0x1, 4, 0x01, 0x01, 2, 1, .ro, false, false, false, 0, false, 0, 255⟩,  -- CORE_STATE
  ⟨0x8010, 0x1, 4, 0x02, 0x02, 5, 8, .ro, false, false, false, 0, false, 0, 18446744073709551615⟩,  -- CORE_RESTARTS
  ⟨0x8010, 0x1, 4, 0x03, 0x03, 5, 8, .ro, false, false, false, 0, false, 0, 18446744073709551615⟩,  -- CORE_DOUBLE_FAULTS
  ⟨0x8010, 0x1, 4, 0x04, 0x04, 2, 1, .ro, false, false, false, 0, false, 0, 255⟩,  -- CORE_BUSY
  ⟨0x8010, 0x1, 4, 0x05, 0x05, 5, 8, .ro, false, false, false, 0, false, 0, 18446744073709551615⟩,  -- CORE_OVERFLOW_SPILLS
  ⟨0x8010, 0x1, 4, 0x06, 0x06, 5, 8, .ro, false, false, false, 0, false, 0, 18446744073709551615⟩,  -- CORE_WPFETCH
  ⟨0x8040, 0x1, 1, 0x01, 0x01, 12, 262144, .wo, false, true, false, 0, true, 0, 0⟩,  -- POLICY_IMAGE
  ⟨0x8040, 0x1, 1, 0x02, 0x02, 2, 1, .ro, false, false, false, 0, false, 0, 255⟩,  -- POLICY_STATE
  ⟨0x8040, 0x1, 1, 0x03, 0x03, 1, 1, .rw, false, false, false, 0, true, 0, 1⟩,  -- POLICY_ENABLE
  ⟨0x8040, 0x1, 1, 0x04, 0x04, 5, 8, .ro, false, false, false, 0, false, 0, 18446744073709551615⟩,  -- POLICY_FAULTS
  ⟨0x8040, 0x1, 1, 0x05, 0x05, 10, 32, .ro, false, false, false, 0, false, 0, 0⟩  -- POLICY_HASH
]

/-- Objects at 0x9000 upward. -/
def objs9 : List Obj := [
  ⟨0x9000, 0x1, 1, 0x01, 0x01, 6, 2, .ro, false, false, false, 0, false, 0, 65535⟩,  -- TJ_HOTTEST
  ⟨0x9000, 0x1, 1, 0x02, 0x02, 6, 2, .rw, true, false, false, 100, true, 0, 65535⟩,  -- THERMAL_THROTTLE
  ⟨0x9000, 0x1, 1, 0x03, 0x03, 6, 2, .rw, true, false, false, 110, true, 0, 65535⟩,  -- THERMAL_TRIP
  ⟨0x9000, 0x1, 1, 0x04, 0x04, 1, 1, .ro, false, false, false, 0, false, 0, 1⟩,  -- THROTTLE_ACTIVE
  ⟨0x9000, 0x1, 1, 0x05, 0x05, 5, 8, .ro, false, false, false, 0, false, 0, 18446744073709551615⟩,  -- THROTTLES
  ⟨0x9000, 0x1, 1, 0x06, 0x06, 4, 4, .ro, false, false, false, 0, false, 0, 4294967295⟩,  -- POWER_NOW
  ⟨0x9000, 0x1, 1, 0x07, 0x07, 4, 4, .ro, false, false, false, 0, false, 0, 4294967295⟩,  -- POWER_TRACK
  ⟨0x9000, 0x1, 1, 0x08, 0x08, 3, 2, .rw, false, false, false, 0, true, 0, 65535⟩,  -- POWER_CAP
  ⟨0x9000, 0x1, 1, 0x09, 0x09, 2, 1, .ro, false, false, false, 0, false, 0, 255⟩,  -- FIELD_POWER
  ⟨0x9000, 0x1, 1, 0x0A, 0x0A, 3, 2, .ro, false, false, false, 0, false, 0, 65535⟩,  -- PLL_LOCK
  ⟨0x9010, 0x1, 1, 0x01, 0x04, 6, 2, .ro, false, false, false, 0, false, 0, 65535⟩,  -- HUB_TEMP
  ⟨0x9010, 0x1, 1, 0x05, 0x08, 6, 2, .ro, false, false, false, 0, false, 0, 65535⟩  -- IO_TEMP
]

/-- Objects at 0xA000 upward. -/
def objsA : List Obj := [
  ⟨0xA000, 0x1, 1, 0x01, 0x01, 4, 4, .rw, false, false, false, 10000, true, 1000, 600000⟩,  -- LAP_PERIOD
  ⟨0xA000, 0x1, 1, 0x02, 0x02, 2, 1, .ro, false, false, false, 0, false, 0, 255⟩,  -- LAP_NEXT
  ⟨0xA000, 0x1, 1, 0x03, 0x03, 2, 1, .wo, false, true, false, 0, false, 0, 255⟩,  -- LAP_RUN
  ⟨0xA000, 0x1, 1, 0x04, 0x04, 5, 8, .ro, false, false, false, 0, false, 0, 18446744073709551615⟩,  -- LAP_PASSES
  ⟨0xA000, 0x1, 1, 0x05, 0x05, 5, 8, .ro, false, false, false, 0, false, 0, 18446744073709551615⟩,  -- LAP_FAILS
  ⟨0xA000, 0x1, 1, 0x06, 0x06, 5, 8, .ro, false, false, false, 0, false, 0, 18446744073709551615⟩,  -- LAP_SKIPS
  ⟨0xA100, 0x1, 1, 0x01, 0x01, 10, 16, .wo, false, true, false, 0, false, 0, 0⟩,  -- TRACK_UNLOCK
  ⟨0xA100, 0x1, 1, 0x02, 0x02, 1, 1, .ro, false, false, false, 0, false, 0, 1⟩,  -- TRACK_UNLOCKED
  ⟨0xA100, 0x1, 1, 0x03, 0x03, 2, 1, .rw, false, false, false, 0, false, 0, 63⟩,  -- TRACK_GROUP
  ⟨0xA100, 0x1, 1, 0x04, 0x04, 1, 1, .wo, false, false, false, 0, false, 0, 1⟩,  -- TRACK_LOCK
  ⟨0xA100, 0x1, 1, 0x05, 0x05, 10, 32, .wonce, false, true, false, 0, true, 0, 0⟩,  -- TRACK_UNLOCK_HASH
  ⟨0xA200, 0x1, 1, 0x01, 0x01, 3, 2, .rw, false, false, false, 0, false, 0, 65535⟩,  -- INJECT_UNIT
  ⟨0xA200, 0x1, 1, 0x02, 0x02, 2, 1, .rw, false, false, false, 0, false, 0, 255⟩,  -- INJECT_KIND
  ⟨0xA200, 0x1, 1, 0x03, 0x03, 1, 1, .wo, false, true, false, 0, false, 0, 1⟩,  -- INJECT_ARM
  ⟨0xA200, 0x1, 1, 0x04, 0x04, 5, 8, .ro, false, false, false, 0, false, 0, 18446744073709551615⟩  -- INJECTIONS
]

/-- Every object. -/
def catalogue : List Obj := objs1 ++ objs1b ++ objs1c ++ objs2 ++ objs3 ++ objs4 ++ objs4b ++ objs5 ++ objs6 ++ objs7 ++ objs8 ++ objs9 ++ objsA

/-- Whether a row covers an index. -/
def Obj.covers (o : Obj) (index : Nat) : Bool :=
  decide (o.base ≤ index ∧ (index - o.base) % o.step = 0 ∧ (index - o.base) / o.step < o.count)

/-- The row of an object. -/
def findObj (index sub : Nat) : Option Obj :=
  catalogue.find? fun o => o.covers index && decide (o.sub0 ≤ sub ∧ sub ≤ o.sub1)

/-- Whether any object has the index. -/
def indexKnown (index : Nat) : Bool := catalogue.any fun o => o.covers index

/-- Key of an object in the value maps. -/
def okey (index sub : Nat) : Nat := index * 256 + sub

/-- The default of an object given as a number (R194). -/
def dfltOf (key : Nat) : Nat := ((findObj (key / 256) (key % 256)).map (·.dflt)).getD 0

/-- Whether an object is persistent (R195). -/
def persists (key : Nat) : Bool := ((findObj (key / 256) (key % 256)).map (·.persist)).getD false

end Sys2Proof.Machine
end

