-- ==== Sys2Proof/Machine/State.lean ====
section
/-! DEFINITION. The state of the T9: everything the manual gives the part, the queue of waiting commands, and what has left the
pins. Plain data. -/

namespace Sys2Proof.Machine

/-- The part as assembled (R3, R223, Table 10.3) and its straps (Table 14.2). variant: 0 T9-8S4P, 1 T9-6S4P, 2 T9-6S3P,
3 T9-6S2P, 4 T9-8S4P-M. -/
structure Part where
  variant : Nat
  stepping : Nat
  serial : List Byte
  mac : List Byte
  mfgDate : Nat
  azmorSigner : List Byte
  nodeId : Nat
  debugEn : Bool
  deriving DecidableEq, Repr

/-- A transition under way (R224, R266, R264). -/
inductive Trans where
  | none
  /-- PAUSE entry; restart says a warm start follows (SOFT_RESET 0x30, 0x31). -/
  | entering (restart : Bool)
  /-- PAUSE exit. -/
  | leaving
  deriving DecidableEq, Repr

/-- Run state, start-up, power and thermal state (spec/12, spec/14). -/
structure RunSt where
  /-- 0 MARKS, 1 SET, 2 GO, 3 PAUSE, 4 FALSE_START, 5 unpowered (R261). -/
  state : Nat
  trans : Trans
  /-- RUN_REQUEST_STATUS (Table 10.5). -/
  reqStatus : Nat
  /-- START_KIND of the start under way or last done: 0 cold, 1 warm, 2 PAUSE exit, 3 restart from FALSE_START. -/
  startKind : Nat
  /-- START_KIND and START_TIME as read. -/
  lastKind : Nat
  startTime : Nat
  startBegan : Nat
  /-- The distance step is done (step 6 of Tables 12.4, 12.5), and the Field step up to the PLLs. -/
  distReady : Bool
  fieldReady : Bool
  portsReleased : Bool
  /-- The dictionary is served: step 4 of start-up is past (R207). -/
  dictServed : Bool
  /-- The retention latch (R262). -/
  retention : Bool
  /-- FALSE_START_CAUSE (R268). -/
  cause : Nat
  /-- ns spent in GO since SET, and when the present GO began. -/
  goAccum : Nat
  goSince : Nat
  setAt : Nat
  /-- T9_READY released (R271), FIELD_EN, FIELD_PG, FIELD_POWER, PLL_LOCK (Table 10.14). -/
  ready : Bool
  fieldEn : Bool
  fieldPg : Bool
  fieldPower : Nat
  plls : Nat
  /-- THERMTRIP_N latched low (R296). -/
  thermtrip : Bool
  /-- Throttle level T (R293). -/
  throttle : Nat
  /-- TJ_HOTTEST, HUB_TEMP, IO_TEMP. -/
  tj : Int
  hubTemp : List Int
  ioTemp : List Int
  powerNow : Nat
  powerTrack : Nat
  /-- The lost-write record of the retention function (R269). -/
  lost : List Lost
  /-- SYS_RST_N is low. -/
  sysRstLow : Bool
  /-- FALSE_START was entered since the last step 6: R226 applies. -/
  fromFalse : Bool
  deriving DecidableEq, Repr

/-- The event ring, the NOTIFY sequence and the CXL event logs (R227, R212, R275). -/
structure EvSt where
  ring : List Evt
  next : Nat
  oldest : Nat
  overflow : Bool
  notifySeq : Nat
  /-- CXL event log records by port. -/
  cxl : List (Nat × Nat × CxlRecord)
  /-- Records raised now carry INJECTED (R283). -/
  injected : Bool
  deriving DecidableEq, Repr

/-- The dictionary, sessions, flash and firmware images (spec/09, spec/10). -/
structure DictSt where
  /-- Active values by index * 256 + subindex, where they differ from the default. -/
  nums : List (Nat × Nat)
  blobs : List (Nat × List Byte)
  /-- Commit counters by group index (R199). -/
  commits : List (Nat × Nat)
  ctxs : List Ctx
  sessions : List Session
  /-- Reply caches of sessionless sources (R211). -/
  srcCaches : List (Nat × List (Nat × List Byte))
  /-- Accesses that wait for a flash store (R205). -/
  waiting : List Waiting
  flashA : Flash
  flashB : Flash
  /-- A store is running, another is asked for after it, P values changed since the last store (R203). -/
  storeRunning : Bool
  storeQueued : Bool
  storePending : Bool
  /-- Write-once values (R202). -/
  wonce : List (Nat × List Byte)
  /-- Azmor banks: the image in use, the other bank, whether it is newer and to be tried first (R229). -/
  azmorRun : List Byte
  azmorOther : List Byte
  azmorNew : Bool
  /-- The stored policy module, its state of Table 10.13, times of its faults, a hook call under way (R230, R254). -/
  policy : List Byte
  policyState : Nat
  policyFaults : List Nat
  hook : Option HookCall
  epoch : Nat
  /-- A duplicate IPv6 address was found: the field door sends nothing (R208). -/
  fieldSilent : Bool
  /-- Delayed DISCOVER replies: address, UDP port and frame (R214). -/
  discoverQ : List (Nat × Nat × List Byte)
  deriving DecidableEq, Repr

/-- Logical memory (spec/02). -/
structure MapSt where
  /-- Window-map entries by port * 2^24 + host extent; block-map entries and access counters by logical page. -/
  windows : List (Nat × WinEntry)
  pages : List (Nat × Page)
  uses : List (Nat × PageUse)
  /-- Extent releases recorded and not done (R41), Clear Poison commands that wait (R175). -/
  releases : List Nat
  clears : List ClearWait
  passes : List Pass
  /-- PROVISION_SETTLED (R298). -/
  settled : Bool
  /-- RESERVE / 16 in plots and LOGICAL_EXTENTS in force (R35). -/
  share : Nat
  extents : Nat
  /-- Levels of withholding in force: BULK, STANDARD (R36). -/
  holdBulk : Bool
  holdStd : Bool
  /-- A discarded write has been reported since 0x1310.05 was cleared (R39). -/
  discardReported : Bool
  deriving DecidableEq, Repr

/-- The DRAM tiers (spec/07). -/
structure TierSt where
  /-- Sprint contents by stack * 24 GiB + address (R157), distance contents by channel * 512 GiB + address (R137). -/
  sprint : Memory
  dist : Memory
  chans : List Chan
  /-- Pseudo-channels by stack * 32 + number. -/
  pcs : List (Nat × Pc)
  stackTemp : List Int
  stackHot : List Bool
  /-- The slot free lists have been built. -/
  slotsBuilt : Bool
  /-- Slots not on the free lists, as stack * 2^20 + slot (R12), and the next pseudo-channel of each stack (R157). -/
  slotsUsed : List Nat
  slotPtr : List Nat
  /-- Plot runs in use (R36), and space that waits for its readers (R76). -/
  runs : List Run
  deferred : List Deferred
  /-- Granules that wait for credits of a DRAM queue, oldest first (R12). -/
  flows : List Flow
  /-- Refresh epoch of R144. -/
  epoch : Nat
  /-- DIST_RATE in force, and ranks of the reference configuration. -/
  rate : Nat
  /-- Units under march test, with the space withdrawn for it (R282). -/
  march : List (DramUnit × List Space)
  deriving DecidableEq, Repr

/-- The relay engines (spec/04) and codebooks (spec/03). -/
structure RelaySt where
  items : List Item
  moves : List Move
  engines : List Engine
  /-- Live codebook versions by region * 16 + slot (R61). -/
  cbs : List (Nat × CbVer)
  /-- Versions written per region so far. -/
  cbNums : List (Nat × Nat)
  /-- Seal record per region, oldest first (R65); ESCAPE counts of the last seals as (sum, blocks) (R88). -/
  seals : List (Nat × List Nat)
  escapes : List (Nat × List (Nat × Nat))
  builds : List BuildReq
  deriving DecidableEq, Repr

/-- Jobs, legs and the stride engines (spec/05). -/
structure StrideSt where
  jobs : List Job
  legs : List Leg
  /-- Finish unit: partials of completed legs by job, KV head, leg number, one per query head (R103). -/
  partials : List ((Nat × Nat × Nat) × List Partial)
  engines : List Engine
  deriving DecidableEq, Repr

/-- The lap test, fault injection, the trackside mux and the TAP (spec/13). -/
structure TestSt where
  lapNext : Nat
  lap : Option Lap
  inject : Option Inject
  unlocked : Bool
  tap : Tap
  /-- Blocks an injected fault of kind 0x12 left with a wrong CRC, as (page, block) (R283). -/
  spoiled : List (Nat × Nat)
  deriving DecidableEq, Repr

/-- The T9. -/
structure State where
  /-- Commands that wait, first in, first out. -/
  pending : List Instr
  /-- What has left the pins, oldest first. -/
  out : List Output
  /-- ns of the model clock (DESIGN CHOICE, log entry 1). -/
  now : Nat
  /-- Free values drawn so far and ids given out: fields of the model (DESIGN CHOICE, log entry 2). -/
  freeCtr : Nat
  nextId : Nat
  part : Part
  run : RunSt
  ev : EvSt
  dict : DictSt
  map : MapSt
  tier : TierSt
  relay : RelaySt
  stride : StrideSt
  ports : List Port
  /-- Host requests in progress, oldest first, and BAR2 transfers. -/
  reqs : List Req
  xfers : List Xfer
  bibs : List Bib
  cores : List Core
  test : TestSt
  deriving DecidableEq, Repr

/-- Faults of the model. No meaning raises one: every error the manual describes is an outcome the T9 reports and goes on from
(spec/13 section 13.1). -/
inductive Fault where
  /-- Kept so that the type is inhabited; raised by no command (safe). -/
  | none
  deriving DecidableEq, Repr

/-- Refusals of the model. -/
inductive Refusal where
  /-- A command whose meaning is not written; raised by an arm of exec alone (safe: the run stops). -/
  | notModelled (mnemonic : String)
  deriving DecidableEq, Repr

/-- The part of the model: a T9-8S4P of stepping B0 with identity constants the manual leaves to manufacture (DESIGN CHOICE, log entry 3). -/
def Part.reset : Part :=
  { variant := 0, stepping := 0xB0, serial := List.replicate 8 0, mac := List.replicate 6 0, mfgDate := 0,
    azmorSigner := List.replicate 32 0, nodeId := 0, debugEn := false }

/-- Held by SYS_RST_N in MARKS (R261); values without a reset are those of DESIGN CHOICE, log entry 4. -/
def RunSt.reset : RunSt :=
  { state := 0, trans := .none, reqStatus := 0, startKind := 0, lastKind := 0, startTime := 0, startBegan := 0,
    distReady := false, fieldReady := false, portsReleased := false, dictServed := false, retention := false, cause := 0,
    goAccum := 0, goSince := 0, setAt := 0, ready := false, fieldEn := false, fieldPg := false, fieldPower := 0, plls := 0,
    thermtrip := false, throttle := 0, tj := 0, hubTemp := [0, 0, 0, 0], ioTemp := [0, 0, 0, 0], powerNow := 0,
    powerTrack := 0, lost := [], sysRstLow := true, fromFalse := false }

def EvSt.reset : EvSt :=
  { ring := [], next := 0, oldest := 0, overflow := false, notifySeq := 0, cxl := [], injected := false }

/-- Every object at its default (R194); the flash as manufactured (DESIGN CHOICE, log entry 5). -/
def DictSt.reset : DictSt :=
  { nums := [], blobs := [], commits := [], ctxs := [], sessions := [], srcCaches := [], waiting := [],
    flashA := ⟨1, true, [], []⟩, flashB := ⟨0, true, [], []⟩, storeRunning := false, storeQueued := false,
    storePending := false, wonce := [], azmorRun := [], azmorOther := [], azmorNew := false, policy := [], policyState := 0,
    policyFaults := [], hook := none, epoch := 0, fieldSilent := false, discoverQ := [] }

def MapSt.reset : MapSt :=
  { windows := [], pages := [], uses := [], releases := [], clears := [], passes := [], settled := true, share := 0,
    extents := 0, holdBulk := false, holdStd := false, discardReported := false }

def TierSt.reset : TierSt :=
  { sprint := [], dist := [], chans := List.replicate 16 Chan.init, pcs := [], stackTemp := List.replicate 8 (-32768),
    stackHot := List.replicate 8 false, slotsBuilt := false, slotsUsed := [], slotPtr := List.replicate 8 0, runs := [],
    deferred := [], flows := [], epoch := 0, rate := 0, march := [] }

def RelaySt.reset : RelaySt :=
  { items := [], moves := [], engines := List.replicate 16 Engine.init, cbs := [], cbNums := [], seals := [], escapes := [],
    builds := [] }

def StrideSt.reset : StrideSt :=
  { jobs := [], legs := [], partials := [], engines := List.replicate 16 Engine.init }

def TestSt.reset : TestSt :=
  { lapNext := 0, lap := none, inject := none, unlocked := false, tap := Tap.init, spoiled := [] }

/-- The T9 right after reset: MARKS with SYS_RST_N low, an empty queue, nothing listed in memory. -/
def State.reset : State :=
  { pending := [], out := [], now := 0, freeCtr := 0, nextId := 0, part := Part.reset, run := RunSt.reset, ev := EvSt.reset,
    dict := DictSt.reset, map := MapSt.reset, tier := TierSt.reset, relay := RelaySt.reset, stride := StrideSt.reset,
    ports := List.replicate 4 Port.init, reqs := [], xfers := [], bibs := List.replicate 16 Bib.init,
    cores := List.replicate 4 coreReset, test := TestSt.reset }

end Sys2Proof.Machine
end

