-- ==== Sys2Proof/Machine/Ops.lean ====
section
/-! DEFINITION. The named operations of the model: dictionary values, pages and windows, events and what leaves the pins. -/

namespace Sys2Proof.Machine

/-! ### Values of dictionary objects -/

/-- The stored value of a number object (R194). -/
def State.num (s : State) (index sub : Nat) : Nat := mget s.dict.nums (dfltOf (okey index sub)) (okey index sub)

/-- A number object set. -/
def State.setNum (s : State) (index sub v : Nat) : State :=
  { s with dict := { s.dict with nums := mput s.dict.nums (dfltOf (okey index sub)) (okey index sub) v } }

/-- A value of a persistent object changed: a store follows (R203). -/
def State.touchP (s : State) : State := { s with dict := { s.dict with storePending := true } }

/-- A counter goes up by n and saturates (R236). -/
def State.add (s : State) (index sub n : Nat) : State := s.setNum index sub (min (s.num index sub + n) 0xFFFFFFFFFFFFFFFF)

/-- A counter goes up by one. -/
def State.bump (s : State) (index sub : Nat) : State := s.add index sub 1

/-- The stored octets of an object; empty when never written. -/
def State.blob (s : State) (index sub : Nat) : List Byte := mget s.dict.blobs [] (okey index sub)

/-- Octets of an object set. -/
def State.setBlob (s : State) (index sub : Nat) (v : List Byte) : State :=
  { s with dict := { s.dict with blobs := mput s.dict.blobs [] (okey index sub) v } }

/-! ### Free values, ids, time, outputs -/

/-- The clock advances one ns: what an idle block does (DESIGN CHOICE, log entry 1). -/
def tick (s : State) : State := { s with now := s.now + 1 }

/-- The counter of free values moves on. -/
def State.drawn (s : State) : State := { s with freeCtr := s.freeCtr + 1 }

/-- An id is used up. -/
def State.newId (s : State) : State := { s with nextId := s.nextId + 1 }

/-- Something leaves the pins. -/
def State.emit (s : State) (o : Output) : State := { s with out := s.out ++ [o] }

/-- Run states by name (R261). -/
def State.inGo (s : State) : Bool := s.run.state == 2

/-! ### The part -/

/-- Ports of a variant (Table 0.1). -/
def portCount (variant : Nat) : Nat := if variant = 2 then 3 else if variant = 3 then 2 else 4

def State.portPresent (s : State) (p : Nat) : Bool := decide (p < portCount s.part.variant)

/-- Present stacks (Table 7.8): all 8, or 0, 1, 2, 4, 5, 6. -/
def stacksOf (variant : Nat) : List Nat :=
  if variant = 0 ∨ variant = 4 then [0, 1, 2, 3, 4, 5, 6, 7] else [0, 1, 2, 4, 5, 6]

def State.stacks (s : State) : List Nat := stacksOf s.part.variant

/-- Whether the part has stride engines (R4). -/
def State.hasStride (s : State) : Bool := s.part.variant != 4

/-- Slots of a stack: positions below the reserve (R157). -/
def stackSlots (variant stack : Nat) : Nat :=
  if variant = 0 ∨ variant = 4 then 393216 - 32768
  else if stack = 2 ∨ stack = 6 then 393216 - 32768 else 393216 - 49152

/-- The port beside a quadrant, for the far cost and engine choice (Table 1.1). -/
def quadrantOfStack (stack : Nat) : Nat := stack / 2

/-! ### Ports and links -/

def State.port (s : State) (p : Nat) : Port := nth s.ports Port.init p

def State.modPort (s : State) (p : Nat) (f : Port → Port) : State := { s with ports := updAt s.ports p f }

def Port.link (p : Port) : LinkId → Link
  | .a => p.a
  | .b => p.b

def Port.modLink (p : Port) (l : LinkId) (f : Link → Link) : Port :=
  match l with
  | .a => { p with a := f p.a }
  | .b => { p with b := f p.b }

def State.link (s : State) (p : Nat) (l : LinkId) : Link := (s.port p).link l

def State.modLink (s : State) (p : Nat) (l : LinkId) (f : Link → Link) : State := s.modPort p fun x => x.modLink l f

/-- A link of the port exists: link B only when the port is bifurcated (R165). -/
def State.linkPresent (s : State) (p : Nat) (l : LinkId) : Bool :=
  s.portPresent p && (l == .a || (s.port p).bifurcated)

/-- The link that holds a queue (R165). -/
def State.queueLink (s : State) (p q : Nat) : LinkId := if (s.port p).bifurcated ∧ q ≥ 8 then .b else .a

def State.queue (s : State) (p q : Nat) : Queue := nth (s.port p).queues Queue.init q

def State.modQueue (s : State) (p q : Nat) (f : Queue → Queue) : State :=
  s.modPort p fun x => { x with queues := updAt x.queues q f }

/-- A source fires an MSI-X vector (R181); a link outside D0 issues nothing but PM_PME, and what fires then is lost as while MSI-X Enable
is 0 (R183; DESIGN CHOICE, log entry 77). -/
def State.fire (s : State) (p : Nat) (l : LinkId) (vec : Nat) : State :=
  let k := s.link p l
  if vec ≥ 64 ∨ !k.msixEn ∨ k.dstate ≠ 0 then s
  else
    let e := nth k.msix ⟨0, 0, true, false⟩ vec
    if e.masked ∨ k.funcMask then s.modLink p l fun x => { x with msix := updAt x.msix vec fun y => { y with pending := true } }
    else s.emit (.msix p l e.addr e.data)

/-! ### Logical memory -/

/-- Key of a window-map entry. -/
def wkey (p extent : Nat) : Nat := p * 2 ^ 24 + extent

def State.win (s : State) (p extent : Nat) : WinEntry := mget s.map.windows WinEntry.zero (wkey p extent)

/-- A window-map entry swapped whole (R13). -/
def State.setWin (s : State) (p extent : Nat) (e : WinEntry) : State :=
  { s with map := { s.map with windows := mput s.map.windows WinEntry.zero (wkey p extent) e } }

def State.page (s : State) (lpn : Nat) : Page := mget s.map.pages Page.zero lpn

/-- A block-map entry swapped whole (R13). -/
def State.setPage (s : State) (lpn : Nat) (e : Page) : State :=
  { s with map := { s.map with pages := mput s.map.pages Page.zero lpn e } }

def State.use (s : State) (lpn : Nat) : PageUse := mget s.map.uses PageUse.zero lpn

def State.setUse (s : State) (lpn : Nat) (u : PageUse) : State :=
  { s with map := { s.map with uses := mput s.map.uses PageUse.zero lpn u } }

/-- The handle of a logical page (Table 2.2). -/
def handleOf (lpn : Nat) : Nat := lpn / 32

/-- Region n covers a handle (R23). -/
def State.regionHas (s : State) (n h : Nat) : Bool :=
  decide (0 < s.num (0x2100 + n) 2 ∧ s.num (0x2100 + n) 1 ≤ h ∧ h < s.num (0x2100 + n) 1 + s.num (0x2100 + n) 2)

/-- The region of a handle. -/
def State.regionOf (s : State) (h : Nat) : Option Nat := (upto 64).find? fun n => s.regionHas n h

/-- The region of a page; 64 stands for none. -/
def State.region (s : State) (lpn : Nat) : Nat := (s.regionOf (handleOf lpn)).getD 64

def State.element (s : State) (lpn : Nat) : Nat := s.num (0x2100 + s.region lpn) 3
def State.isVault (s : State) (lpn : Nat) : Bool := bit (s.num (0x2100 + s.region lpn) 4) 0
def State.poisonUnwritten (s : State) (lpn : Nat) : Bool := bit (s.num (0x2100 + s.region lpn) 4) 1
def State.noCode (s : State) (lpn : Nat) : Bool := bit (s.num (0x2100 + s.region lpn) 4) 2

/-- The home stack of a page at its first allocation (Table 2.3). -/
def State.homeFor (s : State) (lpn : Nat) : Nat :=
  let h := s.num (0x2100 + s.region lpn) 5
  if h = 0xFF then nth s.stacks 0 (lpn % s.stacks.length) else h

/-- The partition whose window maps a handle, with the host extent (R26). -/
def State.mappedAt (s : State) (h : Nat) : Option (Nat × Nat) :=
  (s.map.windows.find? fun x => x.2.valid && x.2.handle == h).map fun x => (x.1 / 2 ^ 24, x.1 % 2 ^ 24)

/-! ### Events (R15, R212, R227, R274, R275) -/

/-- Severity of an event code (Table 13.3). -/
def severityOf (code : Nat) : Nat :=
  if [0x0208, 0x0320, 0x0321, 0x0402, 0x0405, 0x0412, 0x0483, 0x0521, 0x0611, 0x0802, 0x0804, 0x0902, 0x0903, 0x0A10,
      0x0B20].contains code then 0
  else if [0x0120, 0x0122, 0x0123, 0x0124, 0x0206, 0x0401, 0x0406, 0x0410, 0x0411, 0x0480, 0x0481, 0x0510, 0x0520, 0x0610,
      0x0803, 0x0A20, 0x0B10].contains code then 1
  else if [0x0127, 0x0404, 0x0484, 0x0901, 0x0905, 0x0906].contains code then 3
  else 2

/-- The 32 bytes of a record (Table 13.2). -/
def Evt.bytes (e : Evt) : List Byte :=
  natLe 4 e.seq ++ natLe 2 e.code ++ natLe 1 e.sev ++ natLe 1 e.port ++ natLe 8 e.time ++ natLe 2 e.unit ++ natLe 2 e.aux
    ++ natLe 4 e.page ++ natLe 8 e.detail

/-- A Welair frame (Table 9.5). -/
def welair (op flags status sess seq index sub type offset : Nat) (body : List Byte) : List Byte :=
  [0x57, 0x4C, 1] ++ natLe 1 op ++ natLe 1 flags ++ natLe 1 status ++ natLe 2 body.length ++ natLe 4 sess ++ natLe 4 seq
    ++ natLe 2 index ++ natLe 1 sub ++ natLe 1 type ++ natLe 4 offset ++ body

/-- A frame with the TAG of a session key (R215 step 4). -/
def tagged (key frame : List Byte) : List Byte := frame ++ (hmacSha256 key frame).take 16

/-- The event ring holds EVT_DEPTH records (R227). -/
def EvSt.full (e : EvSt) : Bool := (e.next + 0x100000000 - e.oldest) % 0x100000000 == 1024

/-- DPA of the block that an event about a page of a window names, of the page where it names no block (Table 13.4). -/
def Evt.dpa (e : Evt) (extent : Nat) : Nat :=
  extent * 2 ^ 21 + e.page % 32 * 2 ^ 16 + (if e.code = 0x0207 then 0 else e.detail * 2048)

/-- Channel and rank of a DRAM event record, by the unit of the event (Tables 13.2, 13.4). -/
def Evt.dramUnit (e : Evt) : CxlRecord :=
  let n := e.unit % 4096
  match e.unit / 4096 with
  | 3 => .dram (some n) none
  | 4 => .dram (some (0x10 + n / 32)) (some (n % 32))
  | _ => .dram none none

/-- The record of an event in the CXL event logs of a partition; extent is where its window maps the page. None if it stays out of them
(Table 13.4). -/
def cxlRecord (extent : Option Nat) (e : Evt) : Option CxlRecord :=
  match [0x0207, 0x0209, 0x0310].contains e.code, extent with
  | true, some x => some (.media (e.dpa x) (e.code == 0x0207))
  | _, _ =>
    if [0x0401, 0x0402, 0x0403, 0x0480, 0x0481, 0x0482].contains e.code then some e.dramUnit
    else if e.code = 0x0406 then some .health
    else if e.sev % 4 = 0 then none
    else some (.vendor e.bytes)

/-- The extent of a partition's window that maps a page. -/
def State.extentIn (s : State) (p lpn : Nat) : Option Nat := ((s.mappedAt (handleOf lpn)).filter fun x => x.1 == p).map (·.2)

/-- Whether an event concerns a partition (R275). -/
def State.evtReaches (s : State) (e : Evt) (p : Nat) : Bool :=
  e.port == p || (e.page != 0xFFFFFFFF && (s.extentIn p e.page).isSome)
    || (e.port == 0xFF && e.page == 0xFFFFFFFF)

/-- The interrupt of a CXL event record on each link of its port (R181). -/
def State.fireEvent (s : State) (p : Nat) : State :=
  let s1 := s.fire p .a 0
  if (s.port p).bifurcated then s1.fire p .b 0 else s1

/-- A mailbox command completes with its interrupt, vector 0 (R181). -/
def State.mailboxDone (s : State) (p : Nat) (l : LinkId) (rc : MboxRc) (payload : List Byte) : State :=
  (s.emit (.mailbox p l rc payload)).fire p l 0

/-- The record goes into the CXL event logs it belongs to, with its interrupt (R181, R275). -/
def State.cxlLog (s : State) (e : Evt) : State :=
  (upto 4).foldl (fun s p =>
    if s.portPresent p ∧ !(s.port p).pcieOnly ∧ s.evtReaches e p then
      match cxlRecord (s.extentIn p e.page) e with
      | some r =>
        (({ s with ev := { s.ev with cxl := s.ev.cxl ++ [(p, e.sev % 4, r)] } }).emit (.cxlEvent p (e.sev % 4) r)).fireEvent p
      | none => s
    else s) s

/-- The field door sends NOTIFY frames: served, no duplicate address, and not the boot ROM (R207, R208, R269). -/
def State.fieldLive (s : State) : Bool :=
  s.run.dictServed && !s.dict.fieldSilent && s.run.cause != 0x0127

/-- A NOTIFY of an event (R212). -/
def State.notify (s : State) (e : Evt) : State :=
  if !s.fieldLive then s
  else
    let seq := s.ev.notifySeq
    let f := fun fl => welair 0x08 fl 0 0 seq 0 0 0 0 e.bytes
    let o1 := if s.num 0x1280 5 = 1 then [Output.notify none (f 0)] else []
    let o2 := s.dict.sessions.map fun x => Output.notify (some x.id) (tagged x.key (f 2))
    { s with ev := { s.ev with notifySeq := (seq + 1) % 0x100000000 }, out := s.out ++ o1 ++ o2 }

/-- An event is raised with a severity; must says that its rule reports it by NOTIFY whatever the mask. -/
def State.raiseWith (s : State) (sev : Nat) (must : Bool) (code port unit aux page detail : Nat) : State :=
  let lost := s.ev.full
  let e : Evt := {
    seq := s.ev.next, code := code, sev := sev + 4 * b2n s.ev.injected + 8 * b2n lost, port := port,
    time := (s.now - s.run.setAt) / 1000, unit := unit, aux := aux, page := page, detail := detail }
  let s1 :=
    if lost then { s with ev := { s.ev with overflow := true } }.bump 0x1300 8
    else { s with ev := { s.ev with ring := s.ev.ring ++ [e], next := (s.ev.next + 1) % 0x100000000 } }
  let s2 := s1.cxlLog e
  if must ∨ bit (s.num 0x1280 4) (code / 256) then s2.notify e else s2

/-- A device-wide event. -/
def State.raise (s : State) (code unit aux detail : Nat) : State :=
  s.raiseWith (severityOf code) false code 0xFF unit aux 0xFFFFFFFF detail

/-- An event about a page. -/
def State.raisePage (s : State) (code unit aux lpn detail : Nat) : State :=
  s.raiseWith (severityOf code) false code 0xFF unit aux lpn detail

/-- An event about a port. -/
def State.raisePort (s : State) (code p aux detail : Nat) : State :=
  s.raiseWith (severityOf code) (code == 0x0801) code p (0x6000 + p) aux 0xFFFFFFFF detail

/-- UNIT values (Table 13.2). -/
def unitStride (e : Nat) : Nat := 0x1000 + e
def unitRelay (e : Nat) : Nat := 0x2000 + e
def unitChan (c : Nat) : Nat := 0x3000 + c
def unitPc (stack pc : Nat) : Nat := 0x4000 + stack * 32 + pc
def unitCore (n : Nat) : Nat := 0x5000 + n
def unitBib (b : Nat) : Nat := 0x7000 + b
def unitRegion (n : Nat) : Nat := 0x8000 + n

end Sys2Proof.Machine
end

