-- ==== Sys2Proof/Machine/Space.lean ====
section
/-! DEFINITION. Sprint slots, plot runs, capacity and the low mark: the free lists of R12, R34-R37, R76, R84, R157. -/

namespace Sys2Proof.Machine

/-! ### Sprint slots -/

def State.pc (s : State) (stack pc : Nat) : Pc := mget s.tier.pcs Pc.init (stack * 32 + pc)

def State.modPc (s : State) (stack pc : Nat) (f : Pc → Pc) : State :=
  { s with tier := { s.tier with pcs := mput s.tier.pcs Pc.init (stack * 32 + pc) (f (s.pc stack pc)) } }

/-- Key of a slot in the list of slots in use. -/
def slotKey (stack slot : Nat) : Nat := stack * 2 ^ 20 + slot

/-- Byte address of a slot in the sprint memory (R157). -/
def slotAddr (stack slot : Nat) : Nat := stack * 24 * 2 ^ 30 + (slot % 32) * 768 * 2 ^ 20 + (slot / 32) * 65536

/-- Slots in use on a pseudo-channel. -/
def State.pcUsed (s : State) (stack pc : Nat) : List Nat :=
  s.tier.slotsUsed.filter fun k => k / 2 ^ 20 == stack && k % 2 ^ 20 % 32 == pc

/-- Free slots of a pseudo-channel: none unless it is in service and the lists are built. -/
def State.pcFree (s : State) (stack pc : Nat) : Nat :=
  if !s.tier.slotsBuilt ∨ (s.pc stack pc).out ≠ 0 then 0
  else stackSlots s.part.variant stack / 32 - (s.pcUsed stack pc).length

/-- STACK_FREE_SLOTS (Table 7.9). -/
def State.stackFree (s : State) (stack : Nat) : Nat :=
  if s.stacks.contains stack then total ((upto 32).map (s.pcFree stack)) else 0

/-- All slots of the part (R157). -/
def State.allSlots (s : State) : Nat := total (s.stacks.map (stackSlots s.part.variant))

/-- Free slots fall below DEMOTE_FREE_MARK (Table 4.3). -/
def State.slotsLow (s : State) : Bool :=
  decide (total (s.stacks.map s.stackFree) * 10000 < s.num 0x5000 4 * s.allSlots)

/-- A free slot of a stack: the next pseudo-channel in turn that has one (R157), any free slot of it (DESIGN CHOICE, log entry 9). -/
def State.pickSlot (s : State) (stack : Nat) : Option Nat :=
  let start := nth s.tier.slotPtr 0 stack
  match ((upto 32).map fun i => (start + i) % 32).find? fun pc => decide (0 < s.pcFree stack pc) with
  | none => none
  | some pc =>
    let rows := stackSlots s.part.variant stack / 32
    let used := s.pcUsed stack pc
    let r0 := Config.freePick s.freeCtr % rows
    (((upto (used.length + 1)).map fun k => (r0 + k) % rows * 32 + pc).find? fun sl => !used.contains (slotKey stack sl))

/-- The picked slot taken off the free list. -/
def State.takeSlot (s : State) (stack slot : Nat) : State :=
  { s with
    freeCtr := s.freeCtr + 1
    tier := { s.tier with
      slotsUsed := s.tier.slotsUsed ++ [slotKey stack slot]
      slotPtr := updAt s.tier.slotPtr stack fun _ => (slot % 32 + 1) % 32 } }

/-! ### Plot runs and capacity -/

def State.chan (s : State) (c : Nat) : Chan := nth s.tier.chans Chan.init c

def State.modChan (s : State) (c : Nat) (f : Chan → Chan) : State :=
  { s with tier := { s.tier with chans := updAt s.tier.chans c f } }

/-- Raw plots of a channel. -/
def Chan.rawPlots (c : Chan) : Nat := c.rdimms * c.gib * 2 ^ 18

/-- Data plots of a channel: those below the metadata region (R138). -/
def State.dataPlots (s : State) (c : Nat) : Nat := (s.chan c).rawPlots - s.map.share

/-- A channel that counts in USABLE: ONLINE or SELF_REFRESH (R35). -/
def Chan.counts (c : Chan) : Bool := c.state == 2 || c.state == 3

/-- USABLE / 4 KiB (R35). -/
def State.usablePlots (s : State) : Nat :=
  total ((upto 16).map fun c => if (s.chan c).counts then s.dataPlots c else 0)

/-- LOGICAL_EXTENTS for a ratio (R35). -/
def State.extentsFor (s : State) (ratio : Nat) : Nat := min (ratio * s.usablePlots / (100 * 512)) 16777216

/-- Data plots of a channel in use, the runs of its relocation pool that lie among them included (R84). -/
def State.usedPlots (s : State) (c : Nat) : Nat :=
  total ((s.tier.runs.filter fun r => r.chan == c && decide (r.first < s.dataPlots c)).map (·.len))
    + 16 * ((s.chan c).pool.filter fun f => decide (f < s.dataPlots c)).length

/-- CHAN_FREE_PLOTS: free, filled data plots (Table 7.6). -/
def State.chanFree (s : State) (c : Nat) : Nat := min (s.chan c).fillPos (s.dataPlots c) - s.usedPlots c

/-- FREE_PLOTS, with plots that await their fill (Table 2.10). -/
def State.freePlots (s : State) : Nat :=
  total ((upto 16).map fun c => if (s.chan c).counts then s.dataPlots c - s.usedPlots c else 0)

/-- PROVISION_RATIO at 100 with every page placed (R34, R84, R298). -/
def State.oneToOne (s : State) : Bool := s.num 0x2000 1 == 100 && s.map.settled

/-- No regulation of writes: R37 last paragraph. -/
def State.unregulated (s : State) : Bool := s.oneToOne && (s.tier.chans.all fun c => c.counts)

/-- Two runs share a plot. -/
def Run.meets (a b : Run) : Bool := a.chan == b.chan && decide (a.first < b.first + b.len ∧ b.first < a.first + a.len)

/-- x rounded up to a multiple of a. -/
def alignUp (a x : Nat) : Nat := ceilDiv x a * a

/-- A free run of filled data plots on a channel, aligned; any the free list holds (R83, DESIGN CHOICE, log entry 9). -/
def State.findRun (s : State) (c len align : Nat) : Option Run :=
  if !(s.chan c).counts then none
  else
    let top := min (s.chan c).fillPos (s.dataPlots c)
    let ends := ((s.tier.runs.filter fun r => r.chan == c).map fun r => r.first + r.len) ++ (s.chan c).pool.map (· + 16)
    let cands := ([Config.freePick s.freeCtr % (top + 1), 0] ++ ends).map fun x => (⟨c, alignUp align x, len⟩ : Run)
    let pool := (s.chan c).pool.map fun f => (⟨c, f, 16⟩ : Run)
    cands.find? fun r => decide (r.first + r.len ≤ top) && !((s.tier.runs ++ pool).any r.meets)

/-- The run of a page's distance copy. -/
def State.runOf (s : State) (e : Page) : Option Run :=
  s.tier.runs.find? fun r => r.chan == e.channel && r.first == e.plot

/-- A run reserved under R34. -/
def Run.reserved (r : Run) : Bool := r.len == 16 && r.first % 16 == 0

/-- The run for a new image of n granules: of the channel's relocation pool for a page that holds a run under R34 there already (R84), an
aligned run of 16 plots (R34; of the pool for a page that comes from another channel and finds none), or the plots the image needs
(R33). An image of no granule takes one plot, since R33 gives a page at least one
(DEDUCED, log entry 61). -/
def State.placeRun (s : State) (c n : Nat) (old : Option Run) : Option Run :=
  if s.num 0x2000 1 = 100 then
    let held := (old.map Run.reserved).getD false
    let pool := if s.map.settled ∧ (s.chan c).counts ∧ held then (s.chan c).pool.head?.map fun f => (⟨c, f, 16⟩ : Run) else none
    if (old.map (·.chan)) = some c then pool.orElse fun _ => s.findRun c 16 16 else (s.findRun c 16 16).orElse fun _ => pool
  else s.findRun c (max 1 (plotsFor n)) 1

/-- The run stands in its channel's relocation pool. -/
def State.inPool (s : State) (r : Run) : Bool := r.len == 16 && (s.chan r.chan).pool.contains r.first

/-- The level at which withholding of a class starts, in 0.01% doubled: PLOT_LOW_MARK, and half of it (R36). -/
def State.below (s : State) (mark2 : Nat) : Bool := decide (2 * s.freePlots * 10000 < mark2 * s.usablePlots)

/-- Withholding follows the free fraction (R36): each level ends 0.5 points above the level that started it. -/
def State.regulate (s : State) : State :=
  let m := s.num 0x2000 4
  if m = 0 ∨ s.unregulated then { s with map := { s.map with holdBulk := false, holdStd := false } }
  else
    let bulk := if s.map.holdBulk then s.below (2 * m + 100) else s.below (2 * m)
    let std := if s.map.holdStd then s.below (m + 100) else s.below m
    let s1 := { s with map := { s.map with holdBulk := bulk, holdStd := std } }
    if bulk ∧ !s.map.holdBulk then s1.raise 0x0206 0 0 0 else s1

/-- A run taken off its free list, or out of its pool; the free fraction falls with it (R36). -/
def State.takeRun (s : State) (r : Run) : State :=
  ({ s with
    freeCtr := s.freeCtr + 1
    tier := { s.tier with
      runs := s.tier.runs ++ [r]
      chans := updAt s.tier.chans r.chan fun c => { c with pool := c.pool.filter (· != r.first) } } }).regulate

/-- A run returned: to its channel's relocation pool when it comes from there or replaces a run that does (R84), else to its free
list. -/
def State.freeRun (s : State) (r : Run) (pooled : Bool) : State :=
  let pool := pooled && s.oneToOne && (r.reserved && (s.chan r.chan).counts)
  let s1 := { s with tier := { s.tier with
    runs := s.tier.runs.filter (· != r)
    chans := updAt s.tier.chans r.chan fun c => if pool then { c with pool := c.pool ++ [r.first] } else c } }
  s1.regulate

/-- An entry with its source's state while the page is IN_TRANSIT (R19). -/
def State.seen (s : State) (lpn : Nat) (e : Page) : Page :=
  if e.st = 7 then
    match s.relay.moves.find? fun m => m.item.lpn == lpn with
    | some m => { e with st := m.prior.st }
    | none => e
  else e

/-- A slot returned to its free list. -/
def State.freeSlot (s : State) (stack slot : Nat) : State :=
  { s with tier := { s.tier with slotsUsed := s.tier.slotsUsed.filter (· != slotKey stack slot) } }

def State.freeSpace (s : State) : Space → State
  | .slot st sl => s.freeSlot st sl
  | .run r pooled => s.freeRun r pooled

/-- Requests and legs that looked a page up and still read it (R76). -/
def State.readersOf (s : State) (lpn : Nat) : List Nat :=
  ((s.reqs.filter fun r => r.lpn == lpn && !r.write && (r.stage == .dram || r.stage == .item || r.stage == .queue)).map (·.id))
    ++ ((s.stride.legs.filter fun l => !l.done && l.pins.any fun p => p.1 == lpn).map (·.id))

/-- Space that a switch frees: at once without readers, else under a ticket for SPACE_FREED (R76). -/
def State.release (s : State) (lpn : Nat) (sp : Space) : State :=
  match s.readersOf lpn with
  | [] => s.freeSpace sp
  | rs => { s.newId with tier := { s.tier with deferred := s.tier.deferred ++ [⟨s.nextId, sp, rs⟩] } }

/-- Capacity recomputed (R35): a change of LOGICAL_EXTENTS raises event 0x0406. -/
def State.recapacity (s : State) : State :=
  let n := s.extentsFor (s.num 0x2000 1)
  let s1 := if n = s.map.extents then s else { s with map := { s.map with extents := n } }.raise 0x0406 0 0 n
  s1.regulate

/-- RESERVE / 16 in plots for the reference configuration (R35). -/
def shareOf (plotsPerChannel : Nat) : Nat := ceilDiv (16 * plotsPerChannel * 15) 512000 * 32

/-- Slot and run that a page holds, by its state (Table 2.8). -/
def Page.inSprint (e : Page) : Bool :=
  e.st == 1 || e.st == 2 || e.st == 4 || e.st == 5 || (e.st == 6 && e.vLoc != 3)
def Page.inDist (e : Page) : Bool :=
  e.st == 3 || e.st == 4 || e.st == 5 || (e.st == 6 && e.vLoc != 0)

/-- A dirty page (section 2.5). -/
def Page.dirty (e : Page) : Bool := e.st == 1 || e.st == 2 || e.st == 5 || (e.st == 6 && (e.vLoc == 0 || e.vLoc == 2))

/-! ### Placement under R34 (R84, R298) -/

/-- A page's distance image holds an aligned run of 16 plots reserved to it (R34, R298). -/
def State.placed (s : State) (e : Page) : Bool :=
  match s.runOf e with
  | some r => r.reserved
  | none => false

/-- PROVISION_SETTLED as the placements give it. -/
def State.settledNow (s : State) : Bool := s.num 0x2000 1 != 100 || s.map.pages.all fun x => !(s.seen x.1 x.2).inDist || s.placed x.2

/-- First aligned plot of a channel's relocation pool, in the metadata region (R84; its place there is the model's choice). -/
def State.poolBase (s : State) (c : Nat) : Nat := alignUp 16 (s.dataPlots c)

/-- A channel's relocation pool as R84 forms it: 64 aligned runs of 16 plots that no page holds. -/
def State.newPool (s : State) (c : Nat) : List Nat :=
  (((upto 128).map fun i => s.poolBase c + 16 * i).filter fun f => !(s.tier.runs.any fun r => r.meets ⟨c, f, 16⟩)).take 64

/-- Pools kept while PROVISION_RATIO is 100 and every page is placed (R84). -/
def State.formPools (s : State) : State :=
  if s.oneToOne then
    (upto 16).foldl (fun s c => if (s.chan c).counts ∧ (s.chan c).pool.isEmpty then
      s.modChan c fun x => { x with pool := s.newPool c } else s) s
  else { s with tier := { s.tier with chans := s.tier.chans.map fun c => { c with pool := [] } } }

/-- PROVISION_SETTLED becomes 1 once every page is placed, whatever placed or removed the last one; pools then form (R84, R298). -/
def State.resettle (s : State) : State :=
  if !s.map.settled ∧ s.settledNow then ({ s with map := { s.map with settled := true } }).formPools else s

/-- Space of a page's copies given back. -/
def State.releaseCopies (s : State) (lpn : Nat) (e : Page) : State :=
  let s1 := if e.inSprint then s.release lpn (.slot e.home e.slot) else s
  if e.inDist then
    match s1.runOf e with
    | some r => s1.release lpn (.run r false)
    | none => s1
  else s1

/-- A page leaves the seal record of its region (R65). -/
def State.forgetSeal (s : State) (lpn : Nat) : State :=
  let n := s.region lpn
  { s with relay := { s.relay with seals := mput s.relay.seals [] n ((mget s.relay.seals [] n).filter (· != lpn)) } }

/-- VAULT_KEY_CHECK returns to 0 once every page of a vault region is UNWRITTEN (section 4.7). -/
def State.vaultRelease (s : State) (lpn : Nat) : State :=
  let n := s.region lpn
  if n < 64 ∧ bit (s.num (0x2100 + n) 4) 0 ∧ !(s.map.pages.any fun x => s.region x.1 == n && x.2.st != 0) then
    (s.setNum (0x1810 + n) 3 0).touchP
  else s

end Sys2Proof.Machine
end

