-- ==== Sys2Proof/Machine/Flags.lean ====
section
/-! DEFINITION. Conditions and status values computed from the state: pacer levels (R125, R129), guards and pins (R62, R145),
fences, drains and census. -/

namespace Sys2Proof.Machine

/-! ### Pacer -/

/-- BIB_CLASS: 0 GUARANTEED, 1 STANDARD, 2 BULK. -/
def State.bibClass (s : State) (b : Nat) : Nat := s.num (0x7010 + b) 1

/-- BIB_BASE with the class default for 0 (Table 6.1). -/
def State.bibBase (s : State) (b : Nat) : Nat :=
  let v := s.num (0x7010 + b) 2
  if v = 0 then (if s.bibClass b = 0 then 5 else 3) else v

def State.bib (s : State) (b : Nat) : Bib := nth s.bibs Bib.init b

def State.modBib (s : State) (b : Nat) (f : Bib → Bib) : State := { s with bibs := updAt s.bibs b f }

/-- The urgency level of a port (R130, R188): its pins, unless they are disabled, or the port is absent, held in PERST_N, frozen, or not
in GO. -/
def State.urgLevel (s : State) (p : Nat) : Nat :=
  if s.num (0x7080 + p) 1 = 1 ∧ s.portPresent p ∧ s.inGo ∧ !(s.port p).perstLow ∧ !(s.port p).frozen then (s.port p).urgPin
  else 0

/-- The urgency raise of a port in force (R125, R130, R131): none without a port, while suspended, or with a budget of 0. -/
def State.urgency (s : State) : Option Nat → Nat
  | none => 0
  | some p => if (s.port p).suspended ∨ s.num (0x7080 + p) 2 = 0 then 0 else s.urgLevel p

/-- Level of a bib with an urgency raise (R125). -/
def State.levelWith (s : State) (b u : Nat) : Nat :=
  if s.num (0x7010 + b) 5 = 1 then 7
  else
    let l := if s.bibClass b = 2 then 1 else if s.bibClass b = 1 then s.bibBase b else s.bibBase b + (s.bib b).steps
    if u = 3 then 7 else min 7 (l + u)

/-- The level of a request (R125). -/
def State.level (s : State) (b : Nat) (port : Option Nat) : Nat := s.levelWith b (s.urgency port)

/-- pct of R129: 0 without a target. -/
def pct (a t : Nat) : Nat := if t = 0 then 0 else 100 * a / t

/-- r of R129 for a bib. -/
def State.strain (s : State) (b : Nat) : Nat :=
  max (pct (s.bib b).readAvg (s.num (0x7010 + b) 3)) (pct (s.bib b).legAvg (s.num (0x7010 + b) 4))

/-- The escalation loops of R129. -/
def stepsUp (r n : Nat) : Nat :=
  let n1 := if n < 1 ∧ r ≥ 50 then 1 else n
  let n2 := if n1 = 1 ∧ r ≥ 75 then 2 else n1
  if n2 = 2 ∧ r ≥ 90 then 3 else n2

def stepsDown (r n : Nat) : Nat :=
  let n3 := if n = 3 ∧ r < 80 then 2 else n
  let n2 := if n3 = 2 ∧ r < 65 then 1 else n3
  if n2 = 1 ∧ r < 40 then 0 else n2

/-- Steps recomputed after a sample or a decay of a GUARANTEED bib (R129). -/
def State.resteps (s : State) (b : Nat) : State :=
  if s.bibClass b = 0 then
    let r := s.strain b
    s.modBib b fun x => { x with steps := stepsDown r (stepsUp r x.steps) }
  else s

/-- The lap skip rule: r at least 75 for some GUARANTEED bib (R281). -/
def State.strained (s : State) : Bool := (upto 16).any fun b => s.bibClass b == 0 && decide (75 ≤ s.strain b)

/-- Slots charged to a bib: those its pages hold, the source of a move among them (R133). -/
def State.chargedSlots (s : State) (b : Nat) : Nat :=
  (s.map.pages.filter fun x => (s.seen x.1 x.2).inSprint && s.num (0x2100 + s.region x.1) 8 == b).length

/-! ### Channels -/

/-- CHAN_GUARDED (R145). -/
def State.guarded (s : State) (c : Nat) : Bool :=
  s.map.pages.any fun x => (s.seen x.1 x.2).inDist && x.2.channel == c && s.bibClass (s.num (0x2100 + s.region x.1) 8) == 0

/-- The fill of a channel is done (DIST_FILL). -/
def State.fillDone (s : State) (c : Nat) : Bool :=
  decide (0 < s.dataPlots c ∧ s.dataPlots c ≤ (s.chan c).fillPos)

/-- Idle self-refresh is forbidden (R145). -/
def State.srForbidden (s : State) (c : Nat) : Bool :=
  let pol := s.num (0x4000 + 0x10 * c) 4
  pol == 2 || (pol == 0 && s.guarded c) || (s.chan c).state == 1 || (s.chan c).state == 4 || !s.fillDone c

/-- The mirror partner of a channel (R138). -/
def mirrorOf (c : Nat) : Nat := (c + 8) % 16

/-- Channels OUT after training that stop a start: 4 or more, or both of a mirror pair (R149). -/
def State.tooManyOut (s : State) : Bool :=
  decide (4 ≤ (s.tier.chans.filter fun c => c.state == 5).length)
    || (upto 8).any fun c => (s.chan c).state == 5 && (s.chan (c + 8)).state == 5

/-! ### Codebooks -/

def State.cb (s : State) (n slot : Nat) : Option CbVer := (s.relay.cbs.find? fun x => x.1 == n * 16 + slot).map (·.2)

/-- Live slots of a region (CB_LIVE), retiring ones included (R64). -/
def State.liveSlots (s : State) (n : Nat) : List Nat := (upto 16).filter fun v => (s.cb n v).isSome

/-- Live slots that are not retiring. -/
def State.freshSlots (s : State) (n : Nat) : List Nat :=
  (upto 16).filter fun v => ((s.cb n v).map fun c => !c.retiring).getD false

def State.cbNum (s : State) (n v : Nat) : Nat := ((s.cb n v).map (·.num)).getD 0

/-- The newest version: highest number, not retiring (R61). -/
def State.newest (s : State) (n : Nat) : Option Nat :=
  (s.freshSlots n).foldl (fun b v => match b with
    | none => some v
    | some w => some (if s.cbNum n w < s.cbNum n v then v else w)) none

/-- The oldest live version: lowest number (R61). -/
def State.oldest (s : State) (n : Nat) : Option Nat :=
  (s.liveSlots n).foldl (fun b v => match b with
    | none => some v
    | some w => some (if s.cbNum n v < s.cbNum n w then v else w)) none

/-- Versions can be built in a region: BUILT, coded type, neither NO_CODE nor VAULT (R65). -/
def State.buildable (s : State) (n : Nat) : Bool :=
  s.num (0x5100 + n) 4 == 0 && elemCoded (s.num (0x2100 + n) 3) && bits (s.num (0x2100 + n) 4) 0 1 == 0
    && bits (s.num (0x2100 + n) 4) 2 1 == 0

/-- A page carries a codebook slot: it holds a coded block (R64). -/
def Page.carries (e : Page) (v : Nat) : Bool := e.cbv == v && e.gran.any fun g => g != 0 && g != 15

/-- Pages of a region that carry a slot, in logical page order. -/
def State.carriers (s : State) (n v : Nat) : List Nat :=
  (s.map.pages.filter fun x => x.2.carries v && s.region x.1 == n).map (·.1)

/-- The read is of a coded block of that version: a host read pins the version for the block it handles (R62). -/
def Req.pins (r : Req) (v : Nat) : Bool :=
  let g := nth r.entry.gran 0 r.blk
  !r.write && (r.stage == .queue || r.stage == .dram || r.stage == .item) && r.entry.st != 6 && r.entry.cbv == v && g != 0 && g != 15

/-- Readers that pin a version (R62): host reads past their lookup, moves, legs. -/
def State.pinned (s : State) (n v : Nat) : Bool :=
  (s.reqs.any fun r => r.pins v && s.region r.lpn == n)
    || (s.relay.moves.any fun m => m.prior.carries v && s.region m.item.lpn == n)
    || (s.stride.legs.any fun l => !l.done && l.pins.any fun p => p.2 == n * 16 + v)

/-! ### Engines -/

def State.relayEng (s : State) (e : Nat) : Engine := nth s.relay.engines Engine.init e
def State.strideEng (s : State) (e : Nat) : Engine := nth s.stride.engines Engine.init e

def State.modRelay (s : State) (e : Nat) (f : Engine → Engine) : State :=
  { s with relay := { s.relay with engines := updAt s.relay.engines e f } }
def State.modStride (s : State) (e : Nat) (f : Engine → Engine) : State :=
  { s with stride := { s.stride with engines := updAt s.stride.engines e f } }

/-- A bit mask of the indices with a property. -/
def maskOf (n : Nat) (f : Nat → Bool) : Nat := total ((upto n).map fun i => if f i then 2 ^ i else 0)

/-- Legs an engine holds. -/
def State.legsOn (s : State) (e : Nat) : Nat := (s.stride.legs.filter fun l => l.engine == some e && !l.done).length

/-- LEGS_IN_FLIGHT. -/
def State.legsInFlight (s : State) : Nat := (s.stride.legs.filter fun l => l.engine.isSome && !l.done).length

/-- Items a relay engine holds. -/
def State.itemsOn (s : State) (e : Nat) : Nat := (s.relay.items.filter fun i => i.engine == some e).length

/-! ### Ports and work in progress -/

/-- Descriptors in progress of a port. -/
def State.portJobs (s : State) (p : Nat) : List Job := s.stride.jobs.filter fun j => j.port == p

/-- Outstanding work of a port (R224 value 1). -/
def State.portBusy (s : State) (p : Nat) : Bool :=
  !(s.portJobs p).isEmpty || s.reqs.any (fun r => r.port == p)

/-- Device Control of a link's PCI Express capability (PRESUMED, log entry 70: its places and reset value are those of PCI Express). -/
def Link.devCtl (k : Link) : Nat := mget k.cfg 0x2010 0x58

/-- Max Payload Size and Max_Read_Request_Size in force (R176, R178, Table 8.2). -/
def Link.maxPayload (k : Link) : Nat := min 512 (128 * 2 ^ bits k.devCtl 5 3)
def Link.maxRead (k : Link) : Nat := min 4096 (128 * 2 ^ bits k.devCtl 12 3)

/-- Reads a link may have outstanding: 10-bit tags when the host enables them (R178; PRESUMED, log entry 70). -/
def Link.readTags (k : Link) : Nat := if bit (mget k.cfg 0 0x78) 12 then 768 else if bit k.devCtl 8 then 256 else 32

/-- A DMA read of a link is on its way. -/
def Link.reading (k : Link) : Bool := k.dma.any fun d => d.phase == .issued

/-- Nothing of the port remains in the device but its completed or waiting descriptors (R189). -/
def State.portIdle (s : State) (p : Nat) : Bool :=
  !(s.reqs.any fun r => r.port == p) && !(s.relay.items.any fun i => i.port == some p)
    && !(s.relay.moves.any fun m => m.item.port == some p)
    && !(s.stride.legs.any fun l => l.port == p && !l.done && l.engine.isSome)
    && !(s.port p).a.reading && !(s.port p).b.reading

/-- PAGE_COUNT: pages of defined regions in a state (Table 10.8). -/
def State.census (s : State) (st : Nat) : Nat :=
  let inRegion := s.map.pages.filter fun x => decide (s.region x.1 < 64)
  if st = 0 then
    32 * total ((upto 64).map fun n => s.num (0x2100 + n) 2) - (inRegion.filter fun x => x.2.st != 0).length
  else (inRegion.filter fun x => x.2.st == st).length

/-- The overflow area of the coach cores can be reached (R240). -/
def State.ovfReach (s : State) : Bool := (s.run.state == 1 && s.run.distReady) || s.run.state == 2

/-- log2 W of a partition (R21, R22). -/
def State.windowLog2 (s : State) (p : Nat) : Nat :=
  let x := s.port p
  if x.pcieOnly then (if s.num (0x2200 + p) 5 = 0xFF then x.bar2Log2 - 4 else x.bar2Log2) else s.num (0x2200 + p) 1

/-- Host extents of a window: W / 2 MiB. -/
def State.windowExtents (s : State) (p : Nat) : Nat := 2 ^ (s.windowLog2 p - 21)

/-- Window pages: W / 64 KiB. -/
def State.windowPages (s : State) (p : Nat) : Nat := 2 ^ (s.windowLog2 p - 16)

/-- The logical page of a window page, none when its slot is unmapped. -/
def State.pageAt (s : State) (p wp : Nat) : Option Nat :=
  let e := s.win p (wp / 32)
  if e.valid then some (e.handle * 32 + wp % 32) else none

/-- Core 1 runs: CORE_STATE 0 with a heartbeat (R37). -/
def State.core1Runs (s : State) : Bool :=
  let c := nth s.cores coreReset 1
  s.inGo && c.state == 0 && c.heartbeat

/-- Core 2 runs. -/
def State.core2Runs (s : State) : Bool := s.inGo && (nth s.cores coreReset 2).state == 0

/-- RUN_STATE as the registers report it. -/
def State.runCode (s : State) : Nat := s.run.state % 8

/-- Maximum power of a variant in W (Table 14.5). -/
def maxPower (variant : Nat) : Nat := nth [450, 380, 355, 330, 402] 0 variant

end Sys2Proof.Machine
end

