-- ==== Sys2Proof/Machine/DramOps.lean ====
section
/-! DEFINITION. DRAM queues and their schedulers: entries, the hurdle, drains and picks (R138a-R143, R145, R146). -/

namespace Sys2Proof.Machine

/-- The queues of a unit. -/
def State.dramQ (s : State) : DramUnit → DramQ
  | .dist c => (s.chan c).q
  | .pc st p => (s.pc st p).q

def State.modDramQ (s : State) (u : DramUnit) (f : DramQ → DramQ) : State :=
  match u with
  | .dist c => s.modChan c fun x => { x with q := f x.q }
  | .pc st p => s.modPc st p fun x => { x with q := f x.q }

/-- Entries of a queue (Table 7.3). -/
def queueCap (u : DramUnit) (write : Bool) : Nat :=
  match u, write with
  | .dist _, false => 128
  | .dist _, true => 64
  | .pc _ _, false => 32
  | .pc _ _, true => 16

/-- The entries of a unit's read or write queue. -/
def State.entries (s : State) (u : DramUnit) (write : Bool) : List QEnt :=
  if write then (s.dramQ u).writes else (s.dramQ u).reads

/-- Entries of a bib in a queue. -/
def bibHolds (es : List QEnt) (b : Nat) : Nat := (es.filter fun e => e.bib == some b).length

/-- The queue share of a bib alone holds a request back (R132); accesses at level 0 have no share. -/
def State.shareHolds (s : State) (u : DramUnit) (write : Bool) : Option Nat → Bool
  | none => false
  | some b => !decide (bibHolds (s.entries u write) b < max 1 (s.num (0x7010 + b) 8 * queueCap u write / 100))

/-- A request of n granules may enter: free entries, and the queue share of its bib (R12, R132). -/
def State.mayEnter (s : State) (u : DramUnit) (write : Bool) (b : Option Nat) (n : Nat) : Bool :=
  decide ((s.entries u write).length + n ≤ queueCap u write) && !s.shareHolds u write b

/-- A read matches an older queued write of its granule (R141). -/
def hurdled (q : DramQ) (e : QEnt) : Bool := q.writes.any fun w => w.granule == e.granule && decide (w.id < e.id)

/-- A request reaches a channel: it leaves self-refresh, and its idle time restarts (R145, R146). -/
def State.touchUnit (s : State) : DramUnit → State
  | .dist c => s.modChan c fun x => { x with busyAt := s.now, exiting := x.exiting || x.state == 3 }
  | .pc _ _ => s

/-- One granule enters a queue. A distance write replaces the data of the granule's youngest queued write unless a read of it
arrived since, and that entry then serves both owners (R142, R269); a sprint write takes an entry of its own (R143). -/
def State.enqueue (s : State) (u : DramUnit) (write : Bool) (granule : Nat) (owner : QOwner) (bib port : Option Nat) : State :=
  let q := s.dramQ u
  let e : QEnt := ⟨s.nextId, write, granule, owner, bib, port, s.now, false, []⟩
  let dist := match u with
    | .dist _ => true
    | .pc _ _ => false
  let merged : Option QEnt := match (q.writes.filter fun w => w.granule == granule).getLast? with
    | some w => if dist && write && !(q.reads.any fun r => r.granule == granule && decide (w.id < r.id)) then some w else none
    | none => none
  let s0 := s.newId.touchUnit u
  if let some w := merged then
    s0.modDramQ u fun x => { x with writes := updFirst (fun y => y.id == w.id) (fun y => { y with also := y.also ++ [owner] }) x.writes }
  else if write then s0.modDramQ u fun x => { x with writes := x.writes ++ [e] }
  else if dist && hurdled q e then
    let s1 := s0.modDramQ u fun x => { x with reads := x.reads ++ [{ e with hurdle := true }] }
    match u with
    | .dist c => s1.bump (0x4002 + 0x10 * c) 3
    | .pc _ _ => s1
  else s0.modDramQ u fun x => { x with reads := x.reads ++ [e] }

/-- Granules first to first + n - 1 enter a queue. -/
def State.enqueueN (s : State) (u : DramUnit) (write : Bool) (first n : Nat) (owner : QOwner) (bib port : Option Nat) : State :=
  (upto n).foldl (fun s i => s.enqueue u write (first + i) owner bib port) s

/-! ### Self-refresh (R145, R146) -/

/-- A channel in self-refresh starts its exit. -/
def State.leaveSr (s : State) (c : Nat) : State :=
  if (s.chan c).state = 3 ∧ s.inGo then s.modChan c fun x => { x with exiting := true, busyAt := s.now } else s

/-- Channels that the policy or a guard keeps out of self-refresh exit at once, in GO (R145). -/
def State.guardExits (s : State) : State :=
  (upto 16).foldl (fun s c =>
    let pol := s.num (0x4000 + 0x10 * c) 4
    if pol = 2 ∨ (pol = 0 ∧ s.guarded c) then s.leaveSr c else s) s

/-! ### Granules that wait for a queue (R12) -/

/-- The owner is a move, item, leg or job of this number. -/
def QOwner.isWork (id : Nat) : QOwner → Bool
  | .work i _ _ => i == id
  | _ => false

/-- The entry, or a write merged into it, serves such an owner. -/
def QEnt.serves (e : QEnt) (f : QOwner → Bool) : Bool := f e.owner || e.also.any f

def DramQ.serving (q : DramQ) (f : QOwner → Bool) : Bool := q.reads.any (·.serves f) || q.writes.any (·.serves f)

/-- Granules of such owners wait for a queue or stand in one. -/
def State.working (s : State) (f : QOwner → Bool) : Bool :=
  (s.tier.flows.any fun x => f x.owner) || (s.tier.chans.any fun c => c.q.serving f) || s.tier.pcs.any fun x => x.2.q.serving f

/-- Granules of a request that still stand in a read queue. -/
def DramQ.holds (q : DramQ) (id : Nat) : Bool := q.reads.any fun e => e.owner == .req id

/-- Granules of a move, item, leg or job are still to be read or written. -/
def State.busy (s : State) (id : Nat) : Bool := s.working (QOwner.isWork id)

/-- n granules of an owner wait for their queue, behind what waits already. -/
def State.addFlow (s : State) (owner : QOwner) (u : DramUnit) (write : Bool) (first n : Nat) (bib port : Option Nat) : State :=
  if n = 0 then s
  else { s.newId with tier := { s.tier with flows := s.tier.flows ++ [⟨s.nextId, owner, u, write, first, n, bib, port, false⟩] } }

/-- What a work of this number still had to bring into a queue is dropped. -/
def State.dropFlows (s : State) (id : Nat) : State :=
  { s with tier := { s.tier with flows := s.tier.flows.filter fun x => !x.owner.isWork id } }

/-- The queues of a unit that leaves service end, with what waits for them. -/
def State.clearUnit (s : State) (u : DramUnit) : State :=
  ({ s with tier := { s.tier with flows := s.tier.flows.filter fun x => x.unit != u } }).modDramQ u fun _ => DramQ.empty

/-- Owners of the granules that a unit's queues hold or that wait for them. -/
def State.ownersOn (s : State) (u : DramUnit) : List QOwner :=
  let q := s.dramQ u
  ((q.reads ++ q.writes).flatMap fun e => e.owner :: e.also) ++ (s.tier.flows.filter fun x => x.unit == u).map (·.owner)

/-- Distance reads one move may keep outstanding (MOVE_READ_CREDITS, Table 4.3). -/
def State.readCredits (s : State) (f : Flow) : Bool :=
  match f.owner, f.unit with
  | .work id _ _, .dist c =>
    f.write || !(s.relay.moves.any fun m => m.id == id)
      || decide (((s.chan c).q.reads.filter fun e => e.serves (QOwner.isWork id)).length < s.num 0x5000 1)
  | _, _ => true

/-- Older granules of the same bib wait for the same queue (R12). -/
def State.flowOlder (s : State) (id : Nat) (u : DramUnit) (write : Bool) (bib : Option Nat) : Bool :=
  s.tier.flows.any fun x => decide (x.id < id) && x.unit == u && x.write == write && x.bib == bib

/-- One granule of a waiting flow enters its queue when it has a credit; held by its bib's share it counts once in BIB_HELD (R12,
R132). -/
def State.stepFlow (s : State) (id : Nat) : State :=
  match s.tier.flows.find? fun x => x.id == id with
  | none => s
  | some f =>
    if s.flowOlder id f.unit f.write f.bib ∨ !s.readCredits f then s
    else if s.mayEnter f.unit f.write f.bib 1 then
      let rest := if f.left ≤ 1 then s.tier.flows.filter fun x => x.id != id
        else updFirst (fun x => x.id == id) (fun x => { x with first := x.first + 1, left := x.left - 1 }) s.tier.flows
      ({ s with tier := { s.tier with flows := rest } }).enqueue f.unit f.write f.first f.owner f.bib f.port
    else
      match f.held || !s.shareHolds f.unit f.write f.bib, f.bib with
      | false, some b =>
        { s.bump (0x7040 + b) 8 with
          tier := { s.tier with flows := updFirst (fun x => x.id == id) (fun x => { x with held := true }) s.tier.flows } }
      | _, _ => s

/-- A waiting flow brings in what its credits allow. -/
def State.runFlow (s : State) (f : Flow) : State := (upto f.left).foldl (fun s _ => s.stepFlow f.id) s

/-- Age limit of a unit in ns (R138a). -/
def State.ageLimit (s : State) : DramUnit → Nat
  | .dist _ => s.num 0x4100 3
  | .pc _ _ => s.num 0x4880 1

def State.aged (s : State) (u : DramUnit) (e : QEnt) : Bool := decide (s.ageLimit u ≤ s.now - e.arrival)

/-- Level of an entry at a pick: 0 without a bib (R122); a write the hurdle waits on ranks at its read's level (R141). -/
def State.entLevel (s : State) (q : DramQ) (e : QEnt) : Nat :=
  let own := fun (x : QEnt) => match x.bib with
    | some b => s.level b x.port
    | none => 0
  if e.write then
    (q.reads.filter fun r => r.granule == e.granule && decide (e.id < r.id)).foldl (fun a r => max a (own r)) (own e)
  else own e

/-- Ranks of a channel: of every slot (Table 7.2). -/
def Chan.allRanks (c : Chan) : Nat := max 1 (c.ranks * c.rdimms)

/-- Bank position of a granule in the ROTATE order (R137, R138a). -/
def Chan.bankPos (c : Chan) (granule : Nat) : Nat :=
  let a := granule * 64
  let cc := if c.width = 4 then 7 else 6
  let rk := Nat.log2 c.allRanks
  let row := a / 2 ^ (12 + cc + rk)
  let bank := bits a (10 + cc) 2 ^^^ (row % 4)
  bits a 7 3 + 8 * (bank + 4 * (bits a 6 1 + 2 * bits a (12 + cc) rk))

/-- Whether entry a ranks above b by (key, row hit, age) (R138a). -/
def ranks (key : QEnt → Nat) (hits : List Nat) (a b : QEnt) : Bool :=
  let ka := key a
  let kb := key b
  let ha := b2n (hits.contains a.id)
  let hb := b2n (hits.contains b.id)
  decide (kb < ka) || (ka == kb && (decide (hb < ha) || (ha == hb && decide (a.id < b.id))))

/-- The best of a list under an order. -/
def bestBy {α : Type} (better : α → α → Bool) : List α → Option α
  | [] => none
  | x :: r =>
    match bestBy better r with
    | none => some x
    | some y => if better y x then some y else some x

/-- The pick among candidates (R138a): CLASS, or ROTATE by bank then (aged, level). -/
def State.pick (s : State) (u : DramUnit) (cands : List QEnt) (hits : List Nat) : Option QEnt :=
  let q := s.dramQ u
  let key := fun e => if s.aged u e then 8 else s.entLevel q e
  match u with
  | .pc _ _ => bestBy (ranks key hits) cands
  | .dist c =>
    if s.num (0x4000 + 0x10 * c) 3 = 1 then bestBy (ranks key hits) cands
    else
      let n := 64 * (s.chan c).allRanks
      let pos := fun (e : QEnt) => (s.chan c).bankPos e.granule % n
      match ((upto n).map fun i => (q.pointer + i) % n).find? fun b => cands.any fun e => pos e == b with
      | none => none
      | some b => bestBy (ranks (fun e => 8 * b2n (s.aged u e) + s.entLevel q e) hits) (cands.filter fun e => pos e == b)

/-- Conditions to start a drain (R140): 48 writes, or a write and no read; a read under the hurdle. -/
def drainWanted (q : DramQ) : Bool := decide (48 ≤ q.writes.length) || (q.reads.isEmpty && !q.writes.isEmpty)
def hurdleWanted (q : DramQ) : Bool := q.reads.any (hurdled q)

/-- Candidates of a distance channel among its timing-legal entries: reads not under the hurdle in read mode; in a drain, writes
with no older read of their granule, those that a read waits for ahead of the others (R140-R142). -/
def distCands (q : DramQ) (drain : Bool) (legal : List Nat) : List QEnt :=
  if drain then
    let ws := q.writes.filter fun w =>
      legal.contains w.id && !(q.reads.any fun r => r.granule == w.granule && decide (r.id < w.id))
    let matched := ws.filter fun w => q.reads.any fun r => r.granule == w.granule && decide (w.id < r.id)
    if matched.isEmpty then ws else matched
  else q.reads.filter fun r => legal.contains r.id && !hurdled q r

/-- Candidates of a pseudo-channel: accesses to one granule issue in the order they arrived (R143). -/
def pcCands (q : DramQ) : List QEnt :=
  let all := q.reads ++ q.writes
  all.filter fun e => !(all.any fun x => x.granule == e.granule && decide (x.id < e.id))

/-- A drain that one of its end conditions meets is over (R140): for an aged read after 8 writes no new one starts before a read has
issued; a hurdle's drain ends with its matched writes unless another entry condition holds. -/
def drainSettled (q : DramQ) (agedRead : Bool) : DramQ :=
  let ended := { q with draining := false, hurdleDrain := false, drained := 0 }
  if !q.draining then q
  else if agedRead ∧ 8 ≤ q.drained then { ended with needRead := true }
  else if q.hurdleDrain then
    if hurdleWanted q then q else if drainWanted q then { q with hurdleDrain := false } else ended
  else if (q.writes.length ≤ 16 ∧ !q.reads.isEmpty) ∨ q.writes.isEmpty then ended
  else q

/-- The drain state before a pick (R140). -/
def State.drainBefore (s : State) (u : DramUnit) (q : DramQ) : DramQ :=
  let q1 := drainSettled q (q.reads.any (s.aged u))
  if q1.draining ∨ q1.needRead then q1
  else if drainWanted q1 then { q1 with draining := true, hurdleDrain := false, drained := 0 }
  else if hurdleWanted q1 then { q1 with draining := true, hurdleDrain := true, drained := 0 }
  else q1

/-- The drain state after an entry has issued (R140). -/
def State.drainAfter (s : State) (u : DramUnit) (q : DramQ) (e : QEnt) : DramQ :=
  if e.write then drainSettled { q with drained := q.drained + 1 } (q.reads.any (s.aged u)) else { q with needRead := false }

/-- The entry taken out of its queue. -/
def DramQ.remove (q : DramQ) (e : QEnt) : DramQ :=
  { q with reads := q.reads.filter fun x => x.id != e.id, writes := q.writes.filter fun x => x.id != e.id }

/-- The entry whose burst completes now, and the state after it has left its queue; a channel that is leaving self-refresh or
training serves nothing (R146). -/
def State.burst (s : State) (u : DramUnit) (legal hits : List Nat) : Option QEnt × State :=
  match u with
  | .pc st p =>
    if (s.pc st p).out = 2 then (none, s)
    else
      match s.pick u ((pcCands (s.dramQ u)).filter fun e => legal.contains e.id) hits with
      | none => (none, s)
      | some e => (some e, s.modDramQ u fun q => q.remove e)
  | .dist c =>
    if !((s.chan c).state == 2 || (s.chan c).state == 4) then (none, s)
    else
      let s0 := s.modDramQ u (s.drainBefore u)
      let q := s0.dramQ u
      match s0.pick u (distCands q q.draining legal) hits with
      | none => (none, s0)
      | some e =>
        let s1 := s0.modDramQ u fun q => s0.drainAfter u (q.remove e) e
        let rotate := s.num (0x4000 + 0x10 * c) 3 == 0
        (some e, (s1.touchUnit u).modDramQ u fun q =>
          { q with pointer := if rotate then (q.pointer + 1) % (64 * (s.chan c).allRanks) else q.pointer })

/-! ### Metadata (R138, R147, R154, R158) -/

/-- The channel that holds a copy of the stripes mirrored on a channel: itself, or once it is OUT the channel whose spare stripe area
took them (R154 step 4). -/
def State.stripeHolder (s : State) (c : Nat) : Nat := if (s.chan c).state = 5 then (s.chan c).spare.getD c else c

/-- The stripes mirrored on a channel that leaves service are copied into the spare stripe area of the next channel in ascending order
that is ONLINE, or in self-refresh and so a request away from it; so are those that lay in its own spare area (R154 step 4, R155; DEDUCED,
log entry 66). -/
def State.respare (s : State) (c : Nat) : State :=
  let next := ((upto 15).map fun i => (c + 1 + i) % 16).find? fun d => (s.chan d).counts
  let chans := s.tier.chans.zipIdx.map fun x => if x.2 = c ∨ x.1.spare = some c then { x.1 with spare := next } else x.1
  { s with tier := { s.tier with chans := chans } }

/-- An access of the maintenance port in PAUSE takes a channel out of self-refresh; SR_IDLE_ENTRY returns it (R147). -/
def State.maintain (s : State) (c : Nat) : State :=
  if (s.chan c).state = 3 then s.modChan c fun x => { x with state := 2, busyAt := s.now } else s

/-- The pseudo-channel whose reserve positions hold a map granule (R158); positions of one that is OUT were fetched again into
unused ones of another. DESIGN CHOICE, log entry 12: the place is a free value. -/
def State.reserveUnit (s : State) (key : Nat) : Option DramUnit :=
  let all := s.stacks.flatMap fun st => (upto 32).map fun p => (st, p)
  let start := Config.reservePlace key % max 1 all.length
  ((all.drop start ++ all.take start).find? fun x => (s.pc x.1 x.2).out != 2).map fun x => .pc x.1 x.2

/-- Metadata of a swap: in GO its writes wait for the queues of both mirror copies and of the reserve, in order; in PAUSE the
retention function writes both copies (R138, R147, R158). -/
def State.metaWrite (s : State) (chan key granule n : Nat) (w0 w1 : LostWrite) : State :=
  let put := fun (s : State) (c : Nat) (w : LostWrite) =>
    let h := s.stripeHolder c
    if (s.chan h).state = 5 then s
    else if s.inGo then s.addFlow (.metadata w) (.dist h) true granule n none none
    else if s.run.state = 3 then s.maintain h
    else s
  let s1 := put (put s chan w0) (mirrorOf chan) w1
  match s.inGo && s.tier.slotsBuilt, s.reserveUnit key with
  | true, some u => s1.addFlow .reserve u true (Config.reserveGranule key) n none none
  | _, _ => s1

/-- Granule of a metadata entry within a channel: it lies in the metadata region (R138). -/
def State.metaGranule (s : State) (c key : Nat) : Nat := s.dataPlots c * 64 + key

/-- The writes of a metadata entry enter their queues as far as there is room (R12, R158). -/
def State.pushMeta (s : State) (c key n : Nat) (w0 w1 : LostWrite) : State :=
  let s1 := s.metaWrite c key (s.metaGranule c key) n w0 w1
  (s1.tier.flows.filter fun f => decide (s.nextId ≤ f.id)).foldl State.runFlow s1

/-- The channel of the first copy of the stripe of a page's entry, of a window-map entry, of a codebook set (R138; DESIGN CHOICE, log
entry 12). -/
def pageStripe (lpn : Nat) : Nat := Config.stripe lpn % 16
def winStripe (p extent : Nat) : Nat := Config.stripe (wkey p extent + 2 ^ 29) % 16
def setStripe (n slot : Nat) : Nat := Config.stripe (2 ^ 31 + n * 16 + slot) % 16

/-- A block-map entry swapped and its metadata writes queued (R158). -/
def State.swapPage (s : State) (lpn : Nat) (e : Page) : State :=
  (s.setPage lpn e).pushMeta (pageStripe lpn) (lpn * 24 / 64) 1 (.pageEntry lpn 0) (.pageEntry lpn 1)

/-- A window-map entry swapped and its metadata writes queued. -/
def State.swapWin (s : State) (p extent : Nat) (e : WinEntry) : State :=
  (s.setWin p extent e).pushMeta (winStripe p extent) (2 ^ 27 + wkey p extent / 8) 1
    (.winEntry p extent 0) (.winEntry p extent 1)

/-- A move's journal entry written to both mirror copies (R31, R75 step 2, R138). -/
def State.writeJournal (s : State) (lpn : Nat) : State :=
  s.pushMeta (Config.stripe (lpn + 2 ^ 30) % 16) (2 ^ 27 + 2 ^ 23 + lpn % 8192) 1 (.journal lpn 0) (.journal lpn 1)

/-- The journal entry of a page's move has not drained yet (R75, R269). -/
def State.journalWaits (s : State) (lpn : Nat) : Bool :=
  s.working fun o => o == .metadata (.journal lpn 0) || o == .metadata (.journal lpn 1)

/-- A codebook set written to its stripes and to the reserve: 256 granules (R138, R158). -/
def State.writeSet (s : State) (n slot : Nat) : State :=
  s.pushMeta (setStripe n slot) (2 ^ 28 + (n * 16 + slot) * 256) 256 (.codebook n slot 0)
    (.codebook n slot 1)

/-- The page returns to UNWRITTEN with its copies freed (Table 2.9, R40, R41); OWNER stays as the windows have it (R228). -/
def State.clearPage (s : State) (lpn : Nat) : State :=
  let e := s.page lpn
  ((s.swapPage lpn { Page.zero with owner := e.owner }).releaseCopies lpn e).forgetSeal lpn

/-- The page becomes POISONED and its copies are freed (Table 2.9). -/
def State.poisonPage (s : State) (lpn : Nat) : State :=
  let e := s.page lpn
  ((s.swapPage lpn { Page.zero with st := 8, owner := e.owner, home := e.home }).releaseCopies lpn e).forgetSeal lpn

end Sys2Proof.Machine
end

