-- ==== Sys2Proof/Machine/PacerOps.lean ====
section
/-! DEFINITION. The pacer: samples, averages, misses and the urgency budget (R127-R131, R134). -/

namespace Sys2Proof.Machine

/-- The average of R128 after a sample; the shift is arithmetic. -/
def ewma (shift e sample : Nat) : Nat := ((e : Int) + ((sample : Int) - e) / (2 ^ shift : Int)).toNat

/-- The interval MISS_HOLDOFF has passed since a report (R131, R134). -/
def State.holdoffOver (s : State) (last : Option Nat) : Bool :=
  match last with
  | none => true
  | some t => decide (t + 1000 * s.num 0x7000 3 ≤ s.now)

/-- The target of a kind of sample of a bib: leg false for reads (R134). -/
def State.target (s : State) (b : Nat) (leg : Bool) : Nat := s.num (0x7010 + b) (if leg then 4 else 3)

/-- A miss is counted; the first in a holdoff interval raises event 0x0610, fires MISS_VECTOR and sends the NOTIFY that
MISS_NOTIFY asks for (R134). The event's own NOTIFY under NOTIFY_MASK is the same frame and is sent once. -/
def State.miss (s : State) (b p : Nat) (leg : Bool) (sample : Nat) : State :=
  let s1 := s.bump (0x7040 + b) 7
  if s.holdoffOver (s.bib b).lastMiss then
    let d := min sample 0xFFFFFFFF + 2 ^ 32 * s.target b leg
    let s2 := (s1.modBib b fun x => { x with lastMiss := some s.now }).raiseWith 1 (s.num 0x7000 4 == 1) 0x0610 p (unitBib b)
      (b2n leg) 0xFFFFFFFF d
    let v := s.num (0x7080 + p) 7
    if v = 0xFF then s2 else s2.fire p .a v
  else s1

/-- A sample of a bib from a port: average, steps, monitoring and the miss report (R127-R129, R134). -/
def State.sample (s : State) (b p : Nat) (leg : Bool) (v : Nat) : State :=
  let sh := s.num 0x7000 1
  let s1 := s.modBib b fun x =>
    if leg then { x with legAvg := ewma sh x.legAvg v } else { x with readAvg := ewma sh x.readAvg v }
  let s2 := (s1.resteps b).bump (0x7040 + b) 6
  let m := if leg then 5 else 4
  let s3 := s2.setNum (0x7040 + b) m (max (s2.num (0x7040 + b) m) (min v 0xFFFFFFFF))
  if s.bibClass b = 0 ∧ 0 < s.target b leg ∧ s.target b leg < v then s3.miss b p leg v else s3

/-- The read sample of a host read that completes now (R127): the way to the pins takes a free time (DESIGN CHOICE, log entry 10). -/
def State.readSample (s : State) (b p arrival : Nat) : State :=
  s.drawn.sample b p false (s.now - arrival + Config.egressNs s.freeCtr)

/-- One kind of a bib's average is halved (R128). -/
def State.decay (s : State) (b : Nat) (leg : Bool) : State :=
  (s.modBib b fun x => if leg then { x with legAvg := x.legAvg / 2 } else { x with readAvg := x.readAvg / 2 }).resteps b

/-- The urgency budget of a port in bytes per 10 us (R131): 12,000,000 bytes per present stack at 100 percent. -/
def State.urgBudget (s : State) (p : Nat) : Nat := s.num (0x7080 + p) 2 * s.stacks.length * 12000000 / 100

/-- The raise of a port changes the level of a request of a bib (R131). -/
def State.raised (s : State) (b : Nat) (port : Option Nat) : Bool := s.level b port != s.levelWith b 0

/-- Sprint-tier bytes of a request whose level the raise of its port changed are counted; at the budget the raise is suspended
(R131). -/
def State.urgCount (s : State) (b : Nat) (port : Option Nat) (bytes : Nat) : State :=
  match port with
  | none => s
  | some p =>
    if !s.raised b port then s
    else
      let s1 := (s.add (0x7080 + p) 6 bytes).modPort p fun x => { x with slices := updAt x.slices 0 (· + bytes) }
      if total (s1.port p).slices < s.urgBudget p then s1
      else
        let s2 := (s1.modPort p fun x => { x with suspended := true }).bump (0x7080 + p) 5
        if s.holdoffOver (s.port p).urgReport then
          (s2.modPort p fun x => { x with urgReport := some s.now }).raisePort 0x0611 p 0 0
        else s2

/-- A slice boundary: the window moves on, and a suspension ends when the count is below the budget (R131). -/
def State.urgSliceOf (s : State) (p : Nat) : State :=
  let sl := 0 :: (s.port p).slices.take 9
  s.modPort p fun x => { x with slices := sl, suspended := x.suspended && decide (s.urgBudget p ≤ total sl) }

end Sys2Proof.Machine
end

