-- ==== Sys2Proof/Machine/PageOps.lean ====
section
/-! DEFINITION. Pages: where their blocks lie, what they hold, and how a page in a move is seen (R19, R31-R33, R56, R59, R86). -/

namespace Sys2Proof.Machine

/-- Granule codes of a page: every block of a vault page is RAW (section 4.7). -/
def Page.codes (e : Page) : List Nat := if e.st = 6 then List.replicate 32 15 else e.gran

/-- Code of a block. -/
def Page.code (e : Page) (b : Nat) : Nat := nth e.codes 0 b

/-- A code of a coded block (Table 2.7). -/
def isCoded (c : Nat) : Bool := c != 0 && c != 15

/-- The page holds a coded block. -/
def Page.anyCoded (e : Page) : Bool := e.gran.any isCoded

/-- A code set in GRANULES. -/
def Page.setCode (e : Page) (b c : Nat) : Page := { e with gran := updAt e.gran b fun _ => c }

/-- A page whose only copy is the distance copy. -/
def Page.distOnly (e : Page) : Bool := e.st == 3 || (e.st == 6 && e.vLoc == 3)

/-- First byte of a block in the sprint memory (R32). -/
def Page.sprintAddr (e : Page) (b : Nat) : Nat := slotAddr e.home e.slot + 2048 * b

/-- The pseudo-channel of a page's slot (R157). -/
def Page.sprintUnit (e : Page) : DramUnit := .pc e.home (e.slot % 32)

/-- Granule number of a block within its pseudo-channel. -/
def Page.sprintGranule (e : Page) (b : Nat) : Nat := e.slot / 32 * 1024 + 32 * b

/-- First byte of a plot in the distance memory (R137). -/
def plotAddr (chan plot : Nat) : Nat := chan * 2 ^ 39 + plot * 4096

/-- First byte of a block in the distance memory (R33). -/
def Page.distAddr (e : Page) (b : Nat) : Nat := plotAddr e.channel e.plot + 64 * imageOffset e.codes b

/-- Granule number of a block within its channel. -/
def Page.distGranule (e : Page) (b : Nat) : Nat := e.plot * 64 + imageOffset e.codes b

/-- The stored bytes of a block in the sprint copy. -/
def State.sprintBlock (s : State) (e : Page) (b : Nat) : List Byte :=
  s.tier.sprint.readN (e.sprintAddr b) (64 * codeGranules (e.code b))

/-- The stored bytes of a block in the distance copy. -/
def State.distBlock (s : State) (e : Page) (b : Nat) : List Byte :=
  s.tier.dist.readN (e.distAddr b) (64 * codeGranules (e.code b))

def State.writeSprint (s : State) (a : Nat) (bs : List Byte) : State :=
  { s with tier := { s.tier with sprint := s.tier.sprint.writeN a bs } }

def State.writeDist (s : State) (a : Nat) (bs : List Byte) : State :=
  { s with tier := { s.tier with dist := s.tier.dist.writeN a bs } }

/-- What the checks of R56 compare a block of a page with. -/
def State.checkCtx (s : State) (lpn : Nat) (e : Page) (b : Nat) : CheckCtx :=
  let n := s.region lpn
  ⟨s.element lpn, s.liveSlots n, e.cbv, s.num (0x5100 + n) 1, e.code b⟩

/-- The first failing check of a block's stored bytes; RAW, vault and unwritten blocks have none. -/
def State.blockFails (s : State) (lpn : Nat) (e : Page) (b : Nat) (stored : List Byte) : Option Nat :=
  if isCoded (e.code b) then checkBlock (s.checkCtx lpn e b) stored else none

/-- The 2048 bytes a block stands for, once it has passed its checks (R52). -/
def State.plain (s : State) (lpn : Nat) (e : Page) (b : Nat) (stored : List Byte) : List Byte :=
  if e.code b = 0 then List.replicate 2048 0
  else if e.code b = 15 then stored
  else expandBlock (s.element lpn) (((s.cb (s.region lpn) e.cbv).map (·.set)).getD []) stored

/-- The move of a page, at most one (R80). -/
def State.moveOn (s : State) (lpn : Nat) : Option Move := s.relay.moves.find? fun m => m.item.lpn == lpn

/-- The entry with its source's state while the page is IN_TRANSIT (R19). -/
def State.view (s : State) (lpn : Nat) : Page := s.seen lpn (s.page lpn)

/-- The prior state a page returns to: SPRINT_CODED without a coded block is SPRINT_RAW (Table 2.9). -/
def Page.settledState (e : Page) (st : Nat) : Nat := if st = 2 ∧ !e.anyCoded then 1 else st

/-- The vault key of a page's region; none until it is written (R87). -/
def State.vaultKey (s : State) (lpn : Nat) : Option (List Byte) :=
  let k := s.blob (0x1810 + s.region lpn) 1
  if k.isEmpty then none else some k

/-- XTS over whole 16-byte units of a vault block from a byte offset on (R86). -/
def vaultCrypt (enc : Bool) (key : List Byte) (lpn b off : Nat) (data : List Byte) : List Byte :=
  xtsAes enc key (lpn * 32 + b) (off / 16) data

/-- An access of a page is counted (R82, section 4.6). -/
def State.touchUse (s : State) (lpn : Nat) (write : Bool) (bib : Nat) : State :=
  let u := s.use lpn
  s.setUse lpn { u with
    accesses := u.accesses + 1, lastAccess := s.now
    lastWrite := if write then s.now else u.lastWrite
    lastBib := if write then bib else u.lastBib }

/-- The bridge swaps an entry only when it changes. -/
def State.swapIf (s : State) (lpn : Nat) (e : Page) : State := if s.page lpn = e then s else s.swapPage lpn e

end Sys2Proof.Machine
end

