-- ==== Sys2Proof/Machine/ItemOps.lean ====
section
/-! DEFINITION. Work items and moves: engines, item queues, ends of moves, failed checks (R19, R57, R69-R71, R75-R77, R132). -/

namespace Sys2Proof.Machine

/-! ### Engines and item queues -/

/-- Quadrants by ring distance; of two at equal distance the higher number first (R70). -/
def quadrantOrder (q : Nat) : List Nat :=
  [q, max ((q + 1) % 4) ((q + 3) % 4), min ((q + 1) % 4) ((q + 3) % 4), (q + 2) % 4]

/-- A relay engine that takes items: not fenced and not drained by a lap (R278, R280). -/
def State.relayOpen (s : State) (e : Nat) : Bool := !(s.relayEng e).fenced && !(s.relayEng e).drained

/-- The engine with the fewest occupied entries, ties to the lowest number (R70). -/
def State.fewest (s : State) (es : List Nat) : Option Nat :=
  (es.filter s.relayOpen).foldl (fun b e => match b with
    | none => some e
    | some x => some (if s.itemsOn e < s.itemsOn x then e else x)) none

/-- The engine for a quadrant, or for none across all 16 (R70). -/
def State.engineFor (s : State) : Option Nat → Option Nat
  | none => s.fewest (upto 16)
  | some q => (quadrantOrder q).findSome? fun x => s.fewest ((upto 4).map (4 * x + ·))

/-- The quadrant of Table 4.2. Moves to the distance tier carry their destination channel from the moment they are raised (R83). -/
def State.itemQuadrant (s : State) (it : Item) : Option Nat :=
  let e := s.view it.lpn
  let home := if e.st = 0 then s.homeFor it.lpn else e.home
  match it.kind with
  | .build => none
  | .bypass => some (e.channel / 4)
  | .promote => some (e.channel / 4)
  | .demote => some (it.chan.getD e.channel / 4)
  | .writeback => some (it.chan.getD e.channel / 4)
  | .evacuate => some (it.chan.getD e.channel / 4)
  | .compact => some (it.chan.getD e.channel / 4)
  | .recode => some (if e.st = 3 then e.channel / 4 else home / 2)
  | .repair => some (if e.st = 3 then e.channel / 4 else home / 2)
  | .copyIn => some (home / 2)
  | .copyOut => some (home / 2)
  | .expand => some (home / 2)
  | .xts => some (home / 2)
  | .sealing => some (home / 2)
  | .unseal => some (home / 2)

/-- The queue share of a bib holds an item back from an engine's item queue (R132). -/
def State.itemShareHolds (s : State) (e b : Nat) : Bool :=
  !decide ((s.relay.items.filter fun i => i.engine == some e && i.bib == b).length < max 1 (s.num (0x7010 + b) 8 * 64 / 100))

/-- An item-queue entry of the engine may be taken by a bib (R69, R132). -/
def State.mayItem (s : State) (e b : Nat) : Bool := decide (s.itemsOn e < 64) && !s.itemShareHolds e b

def State.modItem (s : State) (id : Nat) (f : Item → Item) : State :=
  { s with relay := { s.relay with items := updFirst (fun i => i.id == id) f s.relay.items } }

def State.item (s : State) (id : Nat) : Option Item := s.relay.items.find? fun i => i.id == id

def State.dropItem (s : State) (id : Nat) : State :=
  { s with relay := { s.relay with items := s.relay.items.filter fun i => i.id != id } }

/-- An item held by R132 counts once in BIB_HELD. -/
def State.itemHeld (s : State) (it : Item) : State :=
  if it.held then s else (s.bump (0x7040 + it.bib) 8).modItem it.id fun i => { i with held := true }

/-- An older item of the same bib waits for an entry in the same quadrant (R12). -/
def State.itemOlder (s : State) (it : Item) : Bool :=
  s.relay.items.any fun x => decide (x.id < it.id) && x.engine.isNone && x.bib == it.bib && s.itemQuadrant x == s.itemQuadrant it

/-- An item without an entry tries to take one, not before older ones of its bib (R12); held by R132 it counts once in BIB_HELD. -/
def State.placeItem (s : State) (it : Item) : State :=
  if it.engine.isSome ∨ s.itemOlder it then s
  else
    match s.engineFor (s.itemQuadrant it) with
    | none => s
    | some e =>
      if s.mayItem e it.bib then s.modItem it.id fun i => { i with engine := some e }
      else if s.itemShareHolds e it.bib then s.itemHeld it
      else s

/-- Every item that waits for an entry, oldest first. -/
def State.placeItems (s : State) : State := s.relay.items.foldl State.placeItem s

/-- A new item joins the queues. -/
def State.pushItem (s : State) (it : Item) : State :=
  ({ s.newId with relay := { s.newId.relay with items := s.newId.relay.items ++ [it] } }).placeItem it

/-- A work item is raised. -/
def State.addItem (s : State) (kind : ItemKind) (lpn blk bib : Nat) (port req chan : Option Nat) : State :=
  s.pushItem {
    id := s.nextId, kind := kind, lpn := lpn, blk := blk, bib := bib, port := port, engine := none, running := false,
    age := s.now, req := req, job := none, chan := chan, fails := 0, held := false }

/-- The item of a page that a COPY_IN or COPY_OUT has reached (Table 4.2). -/
def State.addCopyItem (s : State) (kind : ItemKind) (lpn : Nat) (j : Job) (bib : Nat) : State :=
  s.pushItem {
    id := s.nextId, kind := kind, lpn := lpn, blk := 0, bib := bib, port := some j.port, engine := none, running := false,
    age := s.now, req := none, job := some j.id, chan := none, fails := 0, held := false }

/-- FIRMWARE_BIB. -/
def State.firmwareBib (s : State) : Nat := s.num 0x5000 3

/-- A firmware item: FIRMWARE_BIB and no port (R122). -/
def State.addFirmware (s : State) (kind : ItemKind) (lpn : Nat) (chan : Option Nat) : State :=
  s.addItem kind lpn 0 s.firmwareBib none none chan

/-- A channel that takes a new image of n granules: ONLINE or SELF_REFRESH with a run, and none of a list (R154 step 1); core 1 picks
any such channel (DESIGN CHOICE, log entry 9). -/
def State.pickChannel (s : State) (n : Nat) (old : Option Run) (but : List Nat) : Option Nat :=
  let start := Config.freePick s.freeCtr % 16
  ((upto 16).map fun i => (start + i) % 16).find? fun c => (s.placeRun c n old).isSome && !but.contains c

/-- The destination channel an item of a move to the distance tier is raised with (R83, R84): the page's own for COMPACT and for a
WRITEBACK of a page placed under R34, another than its own for EVACUATE, else one with a run, or while none has one any in service. -/
def State.nameChan (s : State) (k : ItemKind) (lpn : Nat) : Option Nat :=
  let e := s.view lpn
  let old := if e.inDist then s.runOf e else none
  let but := if k = .evacuate then [e.channel] else []
  if k = .compact ∨ (k = .writeback ∧ (old.map Run.reserved).getD false ∧ s.num 0x2000 1 = 100 ∧ (s.chan e.channel).counts) then some e.channel
  else (s.pickChannel (imageGranules e.codes) old but).orElse fun _ =>
    (upto 16).find? fun c => (s.chan c).counts && !but.contains c

/-- A move to the distance tier that firmware raises, with its destination channel (R83). -/
def State.raiseMove (s : State) (k : ItemKind) (lpn : Nat) : State := s.drawn.addFirmware k lpn (s.nameChan k lpn)

/-- Level of an item: a promotion takes the highest among its waiters (R80, R125). -/
def State.itemLevel (s : State) (it : Item) : Nat :=
  let own := s.level it.bib it.port
  if it.kind = .promote then
    let ws := s.reqs.filter fun r => r.stage == .promotion && r.lpn == it.lpn
    match ws with
    | [] => own
    | _ => ws.foldl (fun a r => max a (s.level r.bib (some r.port))) 0
  else own

/-- Ingest units an item needs: those of R71, and for the kinds R71 gives none those of the work nearest to it, one block or one page
(DESIGN CHOICE, log entry 62). -/
def itemUnits (k : ItemKind) : Nat :=
  match k with
  | .expand => 1
  | .xts => 1
  | .bypass => 1
  | .unseal => 1
  | .repair => 1
  | .promote => 16
  | .sealing => 32
  | .recode => 32
  | .demote => 32
  | .writeback => 32
  | .evacuate => 32
  | .compact => 32
  | .copyIn => 32
  | .copyOut => 32
  | .build => 32

/-- A kind that runs as a move (section 4.3). -/
def isMove (k : ItemKind) : Bool :=
  match k with
  | .promote => true
  | .sealing => true
  | .demote => true
  | .writeback => true
  | .evacuate => true
  | .compact => true
  | .recode => true
  | _ => false

/-- Ingest units running items of an engine hold, those with a property. -/
def State.unitsHeld (s : State) (e : Nat) (f : Item → Bool) : Nat :=
  total ((s.relay.items.filter fun i => i.engine == some e && i.running && f i).map fun i => itemUnits i.kind)

/-- The fixed ingest split leaves units for an item of its class (R71, R132). -/
def State.splitLeaves (s : State) (e : Nat) (it : Item) : Bool :=
  let u := itemUnits it.kind
  let cls := s.bibClass it.bib
  (cls == 0 || decide (s.unitsHeld e (fun i => s.bibClass i.bib != 0) + u ≤ 384))
    && (cls != 2 || decide (s.unitsHeld e (fun i => s.bibClass i.bib == 2) + u ≤ 256))

/-- Kinds that use the coder, whose datapath a BUILD takes whole (R69, R73). -/
def usesCoder (k : ItemKind) : Bool := k == .sealing || k == .recode || k == .build

/-- The coder is free for an item: a BUILD runs alone on it (R73). -/
def State.coderFree (s : State) (e : Nat) (k : ItemKind) : Bool :=
  !usesCoder k || !(s.relay.items.any fun i =>
    i.engine == some e && i.running && usesCoder i.kind && (k == .build || i.kind == .build))

/-- Ingest units, move slots and the coder are free for an item (R69, R71, R73). -/
def State.engineReady (s : State) (e : Nat) (it : Item) : Bool :=
  decide (s.unitsHeld e (fun _ => true) + itemUnits it.kind ≤ 512) && s.splitLeaves e it && s.coderFree e it.kind
    && (!isMove it.kind || decide ((s.relay.items.filter fun i => i.engine == some e && i.running && isMove i.kind).length
          < s.num 0x5000 2))

/-! ### Moves -/

def State.modMove (s : State) (id : Nat) (f : Move → Move) : State :=
  { s with relay := { s.relay with moves := updFirst (fun m => m.id == id) f s.relay.moves } }

def State.move (s : State) (id : Nat) : Option Move := s.relay.moves.find? fun m => m.id == id

/-- A move and its item leave the engine; what it had not yet brought into a queue is dropped. -/
def State.endMove (s : State) (m : Move) : State :=
  (({ s with relay := { s.relay with moves := s.relay.moves.filter fun x => x.id != m.id } }).dropItem m.item.id).dropFlows m.id

/-- Destination space of a move given back. -/
def State.freeDest (s : State) (m : Move) : State :=
  let s1 := match m.slot with
    | some sl => s.freeSlot m.prior.home sl
    | none => s
  match m.run with
  | some r => s1.freeRun r m.pooled
  | none => s1

/-- The page returns to its prior state, TOUCHED cleared (R19, R31); a page poisoned or cleared meanwhile stays as it is. -/
def State.returnPrior (s : State) (m : Move) : State :=
  let e := s.page m.item.lpn
  if e.st = 7 then s.swapPage m.item.lpn { e with st := e.settledState m.prior.st, touched := false }
  else s.swapIf m.item.lpn { e with touched := false }

/-- A move ends without a switch: prior state, destination freed (R19, R31). -/
def State.undoMove (s : State) (m : Move) : State := ((s.returnPrior m).freeDest m).endMove m

/-- A move abandoned under R19 or R78. -/
def State.abandon (s : State) (m : Move) : State := (s.undoMove m).bump 0x5010 3

/-- A page is lost: its move ends, its copies are freed and it becomes POISONED (Table 2.9). -/
def State.losePage (s : State) (lpn : Nat) : State :=
  let s1 := match s.moveOn lpn with
    | some m => s.undoMove m
    | none => s
  s1.poisonPage lpn

/-! ### Failed checks -/

/-- Unit number of the tier a copy lies in, for event 0x0310 (DESIGN CHOICE, log entry 23). -/
def Page.tierUnit (e : Page) (dist : Bool) : Nat :=
  if dist then unitChan e.channel else unitPc e.home (e.slot % 32)

/-- The page has an intact copy of every block in the other tier: BOTH, or VAULT with both copies clean (R57, R152). -/
def Page.twoCopies (e : Page) : Bool := e.st == 4 || (e.st == 6 && e.vLoc == 1)

/-- Records of a check that meets a block spoiled by an injected fault carry INJECTED (R283). -/
def State.markSpoiled (s : State) (lpn b : Nat) : State :=
  if s.test.spoiled.contains (lpn, b) then
    { s with
      ev := { s.ev with injected := true }
      test := { s.test with spoiled := s.test.spoiled.filter (· != (lpn, b)) } }
  else s

/-- A REPAIR of the block is waiting or running. -/
def State.repairing (s : State) (lpn b : Nat) : Bool := s.relay.items.any fun i => i.kind == .repair && i.lpn == lpn && i.blk == b

/-- A REPAIR item for one failed copy of a block (Table 4.2, R57); chan names the channel when the distance copy failed. -/
def State.addRepair (s : State) (lpn b : Nat) (dist : Bool) : State :=
  if s.repairing lpn b then s
  else s.addItem .repair lpn b s.firmwareBib none none (if dist then some (s.page lpn).channel else none)

/-- Event 0x0310 of a failed check, and BLOCK_CHECK_FAILS for a check of R56; ecc marks check 0 (R57, R152). -/
def State.checkEvent (s : State) (sev lpn b unit check : Nat) : State :=
  let s0 := (if check = 0 then s else s.bump 0x5010 7).markSpoiled lpn b
  let s1 := s0.raiseWith sev false 0x0310 0xFF unit check lpn b
  { s1 with ev := { s1.ev with injected := s.ev.injected } }

/-- A block failed its check in a copy (dist true for the distance copy): served from the other copy, which a REPAIR then writes over
it, or the page is poisoned (R57). An uncorrectable granule (R152) is check 0. The bytes are the good copy's. -/
def State.checkFail (s : State) (lpn b : Nat) (dist : Bool) (check : Nat) : Option (List Byte) × State :=
  let e := s.page lpn
  let other := if dist then s.sprintBlock e b else s.distBlock e b
  if e.twoCopies ∧ (s.blockFails lpn e b other).isNone then
    (some other, (s.checkEvent 1 lpn b (e.tierUnit dist) check).addRepair lpn b dist)
  else
    let s1 := s.checkEvent 2 lpn b (e.tierUnit dist) check
    (none, if e.st = 8 ∨ e.st = 0 then s1 else s1.losePage lpn)

end Sys2Proof.Machine
end

