-- ==== Sys2Proof/Machine/Operands.lean ====
section
/-! DEFINITION. Operand forms: host addresses (R21, R22, R171), descriptors and page lists (R97-R101, Table 5.16), infield payloads
and Welair requests (Tables 9.5, 9.10). -/

namespace Sys2Proof.Machine

/-! ### Host addresses -/

/-- A decoded partition address (Table 2.1): bib, host extent, page, block, byte within the block. -/
structure PartAddr where
  bib : Nat
  extent : Nat
  page : Nat
  block : Nat
  off : Nat
  deriving DecidableEq, Repr

/-- Table 2.1 for W = 2^k. -/
def decodePart (k a : Nat) : PartAddr :=
  { bib := bits a k 4, extent := bits a 21 (k - 21), page := bits a 16 5, block := bits a 11 5, off := bits a 0 11 }

/-- The DPA a committed decoder makes of a host address: the interleave bits above bit 12 are removed (R171). -/
def Hdm.dpaOf (d : Hdm) (hpa : Nat) : Option Nat :=
  if !d.committed ∨ hpa < d.base ∨ d.base + d.size ≤ hpa then none
  else
    let off := hpa - d.base
    let chunk := off / 4096
    if chunk % d.ways = d.pos then some (d.dpa + chunk / d.ways * 4096 + off % 4096) else none

/-- The DPA of a host address on a link. -/
def State.dpaOf (s : State) (p : Nat) (l : LinkId) (hpa : Nat) : Option Nat := (s.link p l).hdm.findSome? fun d => d.dpaOf hpa

/-- The partition address of an offset in BAR2 (R22): APERTURE_BIB fixes the bib, or the aperture holds 16 aliases. -/
def State.decodeBar2 (s : State) (p off : Nat) : PartAddr :=
  let ap := s.num (0x2200 + p) 5
  let a := decodePart (s.windowLog2 p) off
  if ap = 0xFF then a else { a with bib := ap % 16 }

/-! ### Descriptors -/

def Job.op (j : Job) : Nat := field j.desc 0 1
def Job.flag (j : Job) (i : Nat) : Bool := bit (field j.desc 1 1) i
def Job.irq (j : Job) : Bool := j.flag 0
def Job.relaxed (j : Job) : Bool := j.flag 1
def Job.logical (j : Job) : Bool := j.flag 2
def Job.maskOnFault (j : Job) : Bool := j.flag 3
def Job.resume (j : Job) : Bool := j.flag 4
def Job.bib (j : Job) : Nat := field j.desc 2 1 % 16
def Job.tag (j : Job) : Nat := field j.desc 4 4
def Job.completion (j : Job) : Nat := field j.desc 8 8
def Job.query (j : Job) : Nat := field j.desc 0x10 8
def Job.output (j : Job) : Nat := field j.desc 0x18 8
def Job.lse (j : Job) : Nat := field j.desc 0x20 8
def Job.pageList (j : Job) : Nat := field j.desc 0x28 8
def Job.tokenCount (j : Job) : Nat := field j.desc 0x30 8
def Job.firstToken (j : Job) : Nat := field j.desc 0x38 8
def Job.qHeads (j : Job) : Nat := field j.desc 0x40 2
def Job.kvHeads (j : Job) : Nat := field j.desc 0x42 1
def Job.dimLog2 (j : Job) : Nat := field j.desc 0x43 1
def Job.dim (j : Job) : Nat := 2 ^ j.dimLog2
def Job.kvFormat (j : Job) : Nat := field j.desc 0x44 1
def Job.qFormat (j : Job) : Nat := field j.desc 0x45 1
def Job.outFormat (j : Job) : Nat := field j.desc 0x46 1
def Job.indexPtr (j : Job) : Nat := field j.desc 0x58 8
def Job.elements (j : Job) : Nat := field j.desc 0x60 8
def Job.resumePtr (j : Job) : Nat := field j.desc 0x68 8
/-- SEAL and PREFETCH. -/
def Job.firstPage (j : Job) : Nat := field j.desc 0x10 4
def Job.pages (j : Job) : Nat := field j.desc 0x14 4
/-- COPY_IN and COPY_OUT. -/
def Job.buffer (j : Job) : Nat := field j.desc 0x10 8
def Job.copyFirst (j : Job) : Nat := field j.desc 0x18 4
def Job.copyPages (j : Job) : Nat := field j.desc 0x1C 4
def Job.form (j : Job) : Nat := field j.desc 0x20 1
def Job.length (j : Job) : Nat := field j.desc 0x24 4
/-- BATON and CATCH. -/
def Job.token (j : Job) : Nat := field j.desc 0x10 8
def Job.extentList (j : Job) : Nat := field j.desc 0x18 8
def Job.extents (j : Job) : Nat := field j.desc 0x20 4
def Job.regionPage (j : Job) : Nat := field j.desc 0x10 4
def Job.scope (j : Job) : Nat := field j.desc 0x10 1

/-- Whether a job runs on the stride engines. -/
def Job.stride (j : Job) : Bool := j.op == 1 || j.op == 2

/-- Tokens per page (Table 5.13): a page holds 64 KiB of one head's elements. -/
def Job.tpp (j : Job) : Nat := 65536 / kvBytes j.kvFormat j.dim

/-- Positions of the page list: p0 and P (R100); a GATHER_ATTEND starts at 0. -/
def Job.p0 (j : Job) : Nat := if j.op = 1 then j.firstToken / j.tpp else 0
def Job.positions (j : Job) : Nat := ceilDiv j.tokenCount j.tpp - j.p0

/-- Reserved parts of a descriptor's body by opcode, as (offset, length) (Tables 5.12, 5.16). -/
def reservedParts (op : Nat) : List (Nat × Nat) :=
  match op with
  | 0x01 => [(0x47, 1), (0x58, 8), (0x60, 8), (0x68, 8), (0x70, 16)]
  | 0x02 => [(0x38, 8), (0x47, 1), (0x70, 16)]
  | 0x10 => [(0x18, 0x68)]
  | 0x11 => [(0x18, 0x68)]
  | 0x12 => [(0x21, 3), (0x28, 0x58)]
  | 0x13 => [(0x21, 3), (0x28, 0x58)]
  | 0x20 => [(0x24, 0x5C)]
  | 0x21 => [(0x24, 0x5C)]
  | 0x30 => [(0x14, 0x6C)]
  | 0x3F => [(0x11, 0x6F)]
  | _ => []

/-- FLAGS an opcode accepts (Table 5.5). -/
def flagsAllowed (op : Nat) : Nat := if op = 1 then 0x0F else if op = 2 then 0x1F else 0x07

/-- The ranges of Table 5.12 (R101). -/
def strideRanges (j : Job) : Bool :=
  decide (1 ≤ j.qHeads ∧ j.qHeads ≤ 64 ∧ 1 ≤ j.kvHeads ∧ j.kvHeads ≤ 16 ∧ j.qHeads % j.kvHeads = 0)
    && decide (6 ≤ j.dimLog2 ∧ j.dimLog2 ≤ 8) && [1, 3, 4, 0x10].contains j.kvFormat
    && (j.qFormat == 1 || j.qFormat == j.kvFormat) && decide (j.outFormat ≤ 1)
    && j.pageList % 4096 == 0
    && (if j.op = 1 then decide (j.firstToken ≤ j.tokenCount) else decide (1 ≤ j.elements ∧ j.elements ≤ 2 ^ 48))

/-- The ranges of Table 5.16 and the window end (R97), wp the number of window pages. LENGTH has a meaning in FORM 1 alone, so a
FORM 0 carries 0 there (DEDUCED, log entry 81). -/
def bodyOk (wp : Nat) (j : Job) : Bool :=
  match j.op with
  | 0x01 => strideRanges j
  | 0x02 => strideRanges j
  | 0x10 => decide (1 ≤ j.pages ∧ j.pages ≤ 65536 ∧ j.firstPage + j.pages ≤ wp)
  | 0x11 => decide (1 ≤ j.pages ∧ j.pages ≤ 65536 ∧ j.firstPage + j.pages ≤ wp)
  | 0x12 => copyOk
  | 0x13 => copyOk
  | 0x20 => decide (1 ≤ j.extents ∧ j.extents ≤ 4096)
  | 0x21 => decide (1 ≤ j.extents ∧ j.extents ≤ 4096)
  | 0x30 => true
  | 0x3F => decide (j.scope ≤ 1)
  | _ => false
where
  copyOk : Bool :=
    decide (j.copyFirst + j.copyPages ≤ wp)
      && (if j.form = 0 then decide (1 ≤ j.copyPages ∧ j.copyPages ≤ 32) && j.length == 0
          else j.form == 1 && j.copyPages == 1 && decide (64 ≤ j.length ∧ j.length ≤ 65600))

/-- The format check of R97: opcode, Reserved fields, bib allowed, flags, ranges, end of the window. -/
def formatOk (bibMask wp : Nat) (j : Job) : Bool :=
  [0x01, 0x02, 0x10, 0x11, 0x12, 0x13, 0x20, 0x21, 0x30, 0x3F].contains j.op
    && decide (field j.desc 2 1 < 16) && field j.desc 3 1 == 0 && bit bibMask j.bib
    && field j.desc 1 1 &&& flagsAllowed j.op == field j.desc 1 1
    && (reservedParts j.op).all (fun r => allZero (slice j.desc r.1 r.2)) && bodyOk wp j

/-! ### Infield payloads (Table 9.10) -/

/-- The fields of an infield input payload. -/
structure Payload where
  index : Nat
  sub : Nat
  type : Nat
  offset : Nat
  last : Bool
  data : List Byte
  deriving DecidableEq, Repr

/-- A payload parsed; none when it is too short or has a non-zero Reserved field (R218). -/
def parsePayload (bs : List Byte) : Option Payload :=
  if bs.length < 12 ∨ field bs 8 1 &&& 0xFB ≠ 0 ∨ field bs 9 3 ≠ 0 then none
  else some { index := field bs 0 2, sub := field bs 2 1, type := field bs 3 1, offset := field bs 4 4,
              last := bit (field bs 8 1) 2, data := bs.drop 12 }

/-- An infield output payload (Table 9.11). -/
def infieldReply (abort type flags : Nat) (data : List Byte) : List Byte :=
  natLe 1 abort ++ natLe 1 type ++ natLe 1 flags ++ [0] ++ natLe 4 data.length ++ data

/-! ### Welair requests (Table 9.5) -/

/-- FLAGS of a frame. -/
def frameAuth (f : Frame) : Bool := f.flags.getLsbD 1
def frameLast (f : Frame) : Bool := f.flags.getLsbD 2

/-- The bytes a TAG covers: MAGIC to the end of BODY (R215). -/
def frameWire (op : Nat) (f : Frame) : List Byte :=
  natLe 2 f.magic ++ natLe 1 f.version ++ natLe 1 op ++ [f.flags, f.status] ++ natLe 2 f.length ++ natLe 4 f.session
    ++ natLe 4 f.seq ++ natLe 2 f.index ++ natLe 1 f.sub ++ natLe 1 f.type ++ natLe 4 f.offset ++ f.body

/-- The frame is not dropped (R209): MAGIC, VERSION, LENGTH and Reserved fields are right. -/
def frameAccepted (f : Frame) : Bool :=
  f.magic == 0x4C57 && f.version == 1 && decide (f.length ≤ 1024) && f.length == f.body.length
    && decide (f.tag.length = if frameAuth f then 16 else 0) && decide (f.flags.toNat < 16)

end Sys2Proof.Machine
end

