-- ==== Sys2Proof/Machine/HostOps.lean ====
section
/-! DEFINITION. Host reads and writes from admission to completion (R12, R17-R19, R36-R40, R76-R82, R86, R132, R277). A write acts
on the contents as it enters its DRAM queue, its point of visibility; a read takes its data as it enters its queue (DESIGN CHOICE, log entry 24). -/

namespace Sys2Proof.Machine

/-! ### Requests -/

def State.req (s : State) (id : Nat) : Option Req := s.reqs.find? fun r => r.id == id
def State.modReq (s : State) (id : Nat) (f : Req → Req) : State := { s with reqs := updFirst (fun r => r.id == id) f s.reqs }
def State.dropReq (s : State) (id : Nat) : State := { s with reqs := s.reqs.filter fun r => r.id != id }
def State.setStage (s : State) (r : Req) (st : Stage) : State := s.modReq r.id fun x => { x with stage := st }

/-- Logical page of an unmapped slot. -/
def noPage : Nat := 0xFFFFFFFF

/-- A frozen port in CONTAIN sends no completion; in ALLONES reads return all ones (R188). -/
def State.muted (s : State) (p : Nat) : Bool := (s.port p).frozen && !(s.port p).allOnes
def State.onesOnly (s : State) (p : Nat) : Bool := (s.port p).frozen && (s.port p).allOnes

/-- PAUSE entry has begun (R266). -/
def State.pausing (s : State) : Bool :=
  match s.run.trans with
  | .entering _ => true
  | _ => false

/-- A request of a host port, not of a copy. -/
def Req.isHost (r : Req) : Bool :=
  match r.src with
  | .job _ _ => false
  | .fetch _ _ => false
  | _ => true

/-- n bytes of all ones. -/
def allOnesBytes (n : Nat) : List Byte := List.replicate n 0xFF

/-! ### Completions -/

/-- Pieces of an address range cut at multiples of a size: (address, length). -/
def pieces (size : Nat) : (fuel : Nat) → (addr len : Nat) → List (Nat × Nat)
  | 0, _, _ => []
  | f + 1, a, n =>
    if n = 0 then []
    else
      let k := min n (size - a % size)
      (a, k) :: pieces size f (a + k) (n - k)

/-- A BAR2 read is completed in pieces of at most Max Payload Size, split at multiples of it and so at 128-byte boundaries; one without
data in one (R176). -/
def State.completeBar2 (s : State) (p : Nat) (l : LinkId) (tag off : Nat) (data : List Byte) (ep : Bool) : State :=
  let m := (s.link p l).maxPayload
  if data.isEmpty then s.emit (.bar2Data p l tag [] ep)
  else (pieces m (data.length / m + 2) off data.length).foldl
    (fun s x => s.emit (.bar2Data p l tag (slice data (x.1 - off) x.2) ep)) s

/-- A BAR2 transfer whose last granule is done: a read is completed, with EP and all ones for poison (R176). -/
def State.finishXfer (s : State) (x : Xfer) : State :=
  let s0 := { s with xfers := s.xfers.filter fun y => y.id != x.id }
  if s.muted x.port then s0
  else if x.write then s0.bump 0x1310 2
  else
    let s1 := (s0.bump 0x1310 1).readSample x.bib x.port x.arrival
    if s.onesOnly x.port then s1.completeBar2 x.port x.link x.tag x.off (allOnesBytes x.len) false
    else if x.poison then (s1.bump 0x1310 3).completeBar2 x.port x.link x.tag x.off (allOnesBytes x.len) true
    else s1.completeBar2 x.port x.link x.tag x.off (x.got.flatMap (·.2)) false

/-- One piece of a BAR2 transfer is done. -/
def State.xferPiece (s : State) (xid off : Nat) (data : List Byte) (poison : Bool) : State :=
  match s.xfers.find? fun x => x.id == xid with
  | none => s
  | some x =>
    let y := { x with got := mput x.got [] off data, poison := x.poison || poison, left := x.left - 1 }
    if y.left = 0 then s.finishXfer y else { s with xfers := updFirst (fun z => z.id == xid) (fun _ => y) s.xfers }

/-- A granule of a copy is done; JobOps takes the job on from here. -/
def State.jobPiece (s : State) (id off : Nat) (data : List Byte) (bad : Bool) : State :=
  { s with stride := { s.stride with jobs := updFirst (fun j => j.id == id) (fun j => { j with
      itemsLeft := j.itemsLeft - 1
      got := if data.isEmpty then j.got else mput j.got [] off data
      faultCount := j.faultCount + b2n (bad && j.phase == .running) }) s.stride.jobs } }

/-- A read of a job's pointer through the window has ended. -/
def State.winPiece (s : State) (id a : Nat) (data : List Byte) (bad : Bool) : State :=
  let arrive := fun (w : WinRead) => { w with data := some data, poison := bad }
  let f := fun (j : Job) => { j with win := updFirst (fun w => w.addr == a && w.data.isNone) arrive j.win }
  { s with stride := { s.stride with jobs := updFirst (fun j => j.id == id) f s.stride.jobs } }

/-- A host read completes with data or poison (R127, R174, R176, R188). -/
def State.readDone (s : State) (r : Req) (data : List Byte) (poison : Bool) : State :=
  let s0 := s.dropReq r.id
  match r.src with
  | .job id off => s0.jobPiece id off data poison
  | .fetch id a => s0.winPiece id a data poison
  | .bar2 x off => s0.xferPiece x off data poison
  | .cxl tag =>
    if s.muted r.port then s0
    else
      let s1 := (s0.bump 0x1310 1).readSample r.bib r.port r.arrival
      if s.onesOnly r.port then s1.emit (.cxlData r.port r.link tag (allOnesBytes 64) false)
      else if poison then (s1.bump 0x1310 3).emit (.cxlData r.port r.link tag [] true)
      else s1.emit (.cxlData r.port r.link tag data false)

/-- A host write is completed (R17, R188). -/
def State.writeDone (s : State) (r : Req) : State :=
  let s0 := s.dropReq r.id
  match r.src with
  | .job id off => s0.jobPiece id off [] false
  | .fetch _ _ => s0
  | .bar2 x off => s0.xferPiece x off [] false
  | .cxl tag => if s.muted r.port then s0 else (s0.bump 0x1310 2).emit (.cxlCmp r.port r.link tag)

/-- A read answered under R38: zeros, or poison where the region asks for it. -/
def State.zeroAnswer (s : State) (r : Req) (poison : Bool) : State :=
  ((s.bump 0x1310 4).modPort r.port fun x => { x with zeroReads := x.zeroReads + 1 }).readDone r
    (List.replicate r.len 0) poison

/-- A write completed and discarded, counted in DISCARDED_WRITES (R39, R266, R277). -/
def State.discardCount (s : State) (r : Req) : State :=
  (s.bump 0x1310 5).modPort r.port fun x => { x with discards := x.discards + 1 }

/-- A write through an unmapped or frozen slot or to a page of another owner (R39, R43). -/
def State.discardWrite (s : State) (r : Req) : State :=
  let s1 := s.discardCount r
  let s2 :=
    if s.map.discardReported then s1
    else ({ s1 with map := { s1.map with discardReported := true } }).raiseWith 0 false 0x0208 r.port 0 0 r.lpn 0
  s2.writeDone r

/-- A host access of a vault page without the key (R87). -/
def State.lockedVault (s : State) (r : Req) : State :=
  let s1 := s.bump 0x5010 8
  if r.write then s1.writeDone r else s1.readDone r [] true

/-! ### DRAM queues -/

/-- Granules a byte range of a block covers. -/
def coverFirst (off : Nat) : Nat := off / 64
def coverCount (off len : Nat) : Nat := (off + len + 63) / 64 - off / 64

/-- The page still has the copy the request looked up. -/
def State.sameCopy (s : State) (dist : Bool) (r : Req) : Bool :=
  let e := s.view r.lpn
  if dist then e.inDist && e.channel == r.entry.channel && e.plot == r.entry.plot
  else e.inSprint && e.home == r.entry.home && e.slot == r.entry.slot

/-- The entry a waiting read goes on with: the one read at lookup (R13, R18), with the codes its copy has come to meanwhile. -/
def State.entryOf (s : State) (r : Req) : Page :=
  if s.sameCopy false r then { s.view r.lpn with owner := r.entry.owner } else r.entry

/-- The unit whose queue a waiting request wants: a write follows its page to a new slot (DEDUCED, log entry 63). -/
def State.wantedUnit (s : State) (r : Req) : DramUnit := (if r.write then s.view r.lpn else s.entryOf r).sprintUnit

/-- An older request, or older granules, of the same bib wait for the same queue (R12). -/
def State.queueOlder (s : State) (r : Req) (u : DramUnit) : Bool :=
  s.flowOlder r.id u r.write (some r.bib) || s.reqs.any fun x =>
    decide (x.id < r.id) && x.stage == .queue && x.bib == r.bib && x.write == r.write && s.wantedUnit x == u

/-- A request held by R132 counts once in BIB_HELD. -/
def State.countHeld (s : State) (r : Req) : State :=
  if r.held then s else (s.bump (0x7040 + r.bib) 8).modReq r.id fun x => { x with held := true }

/-- The request waits for its DRAM queue. -/
def State.waitQueue (s : State) (r : Req) (u : DramUnit) : State :=
  let s1 := if s.shareHolds u r.write (some r.bib) then s.countHeld r else s
  s1.modReq r.id fun x => { x with stage := .queue, entry := r.entry }

/-- What a read keeps of a block's stored bytes: all of a coded block, whole 16-byte units of a vault block, else its own bytes. -/
def Req.cut (r : Req) (e : Page) (stored : List Byte) : List Byte :=
  if isCoded (e.code r.blk) then stored
  else if e.st = 6 then slice stored (r.off / 16 * 16) (alignUp 16 (r.off + r.len) - r.off / 16 * 16)
  else slice stored r.off r.len

/-- A sprint read enters its pseudo-channel queue: a coded block's granules, or the granules asked for (R17, R74). -/
def State.sprintRead (s : State) (r : Req) (e : Page) : State :=
  let u := e.sprintUnit
  let c := e.code r.blk
  let coded := isCoded c
  let first := e.sprintGranule r.blk + (if coded then 0 else coverFirst r.off)
  let n := if coded then c else coverCount r.off r.len
  if s.queueOlder r u ∨ !s.mayEnter u false (some r.bib) n then s.waitQueue { r with entry := e } u
  else
    let data := r.cut e (s.sprintBlock e r.blk)
    ((s.enqueueN u false first n (.req r.id) (some r.bib) (some r.port)).touchUse r.lpn false r.bib).modReq r.id
      fun x => { x with stage := .dram, rdata := data, entry := e }

/-! ### Writes to the sprint copy -/

/-- Old bytes with the written ones laid over them; none leaves a byte alone (R173). -/
def overlay : List Byte → List (Option Byte) → List Byte
  | [], _ => []
  | o, [] => o
  | o :: os, d :: ds => d.getD o :: overlay os ds

/-- Contents of the page after a write: a block never written before is zero elsewhere (DEDUCED, log entry 25); a vault granule is decrypted,
merged and encrypted (R86). -/
def State.writeContents (s : State) (r : Req) (e : Page) : State :=
  if e.st = 6 then
    let key := (s.vaultKey r.lpn).getD []
    if bit e.vWritten r.blk then
      let lo := r.off / 16 * 16
      let n := (r.off + r.len + 15) / 16 * 16 - lo
      let old := vaultCrypt false key r.lpn r.blk lo (s.tier.sprint.readN (e.sprintAddr r.blk + lo) n)
      let new := old.take (r.off - lo) ++ overlay (old.drop (r.off - lo)) r.data
      s.writeSprint (e.sprintAddr r.blk + lo) (vaultCrypt true key r.lpn r.blk lo new)
    else
      let new := List.replicate r.off 0 ++ overlay (List.replicate (2048 - r.off) 0) r.data
      s.writeSprint (e.sprintAddr r.blk) (vaultCrypt true key r.lpn r.blk 0 new)
  else
    let s1 := if e.code r.blk = 0 then s.writeSprint (e.sprintAddr r.blk) (List.replicate 2048 0) else s
    { s1 with tier := { s1.tier with sprint := s1.tier.sprint.writeMasked (e.sprintAddr r.blk + r.off) r.data } }

/-- The block-map entry after a write to a block that is RAW or was never written: code 0xF, BOTH to BOTH_DIRTY, VAULT_LOC 1 to 2,
TOUCHED in a move (Table 2.9, R31). -/
def State.writtenEntry (s : State) (lpn b : Nat) (e : Page) : Page :=
  let moving := e.st == 7 || (e.st == 6 && ((s.moveOn lpn).map fun m => decide (2 ≤ m.step)).getD false)
  let e1 :=
    if e.st = 6 then { e with vWritten := e.vWritten ||| 2 ^ b, vLoc := if e.vLoc = 1 then 2 else e.vLoc }
    else { e.setCode b 15 with st := if e.st = 4 then 5 else e.st }
  { e1 with touched := e1.touched || moving }

/-- The coder of a seal or recode has read a block, at least in part: its reads are no longer all waiting for their queue (R78). -/
def State.coderRead (s : State) (m : Move) (b : Nat) : Bool :=
  decide (2 < m.step) || (m.step == 2 && !(s.tier.flows.any fun f =>
    f.owner == .work m.id m.item.lpn b && !f.write && f.left == codeGranules ((s.view m.item.lpn).code b)))

/-- A block written during a seal or recode within the sprint tier is marked once the coder has read it (R78). -/
def State.markBlock (s : State) (lpn b : Nat) : State :=
  match s.moveOn lpn with
  | some m =>
    if s.coderRead m b then
      s.modMove m.id fun x => { x with marked := if x.marked.contains b then x.marked else x.marked ++ [b] }
    else s
  | none => s

/-- A SEAL is queued or running for the page. -/
def State.sealPending (s : State) (lpn : Nat) : Bool := s.relay.items.any fun i => i.kind == .sealing && i.lpn == lpn

/-- The page is sealed once all 32 blocks are written (Table 1.7, Table 4.2). -/
def State.sealIfFull (s : State) (lpn : Nat) (before after : Page) (bib : Nat) (port : Option Nat) : State :=
  if before.gran.contains 0 ∧ !after.gran.contains 0 ∧ after.st ≠ 6 ∧ !s.sealPending lpn then
    s.addItem .sealing lpn 0 bib port none none
  else s

/-- The i-th granule of a write is a partial one: some byte of it is left alone (R143). -/
def Req.partialAt (r : Req) (i : Nat) : Bool :=
  let lo := (coverFirst r.off + i) * 64
  (upto 64).any fun k => decide (lo + k < r.off) || ((r.data.getD (lo + k - r.off) none).isNone)

def Req.writeOwner (r : Req) (i : Nat) : QOwner := if r.partialAt i then .part else .req r.id

/-- A write enters its pseudo-channel queue: contents and entry change, and it is completed (R17). -/
def State.sprintWrite (s : State) (r : Req) (e : Page) : State :=
  let u := e.sprintUnit
  let n := coverCount r.off r.len
  if s.queueOlder r u ∨ !s.mayEnter u true (some r.bib) n then s.waitQueue r u
  else
    let cur := s.page r.lpn
    let new := s.writtenEntry r.lpn r.blk cur
    let s1 := (s.writeContents r e).swapIf r.lpn new
    let s2 := (s1.markBlock r.lpn r.blk).touchUse r.lpn true r.bib
    let s3 := (upto n).foldl (fun s i => s.enqueue u true (e.sprintGranule r.blk + coverFirst r.off + i) (r.writeOwner i) (some r.bib)
      (some r.port)) s2
    (s3.sealIfFull r.lpn cur new r.bib (some r.port)).writeDone r

/-! ### Lookup and dispatch -/

/-- A promotion of the page is queued or in progress (R80). -/
def State.promoting (s : State) (lpn : Nat) : Bool :=
  (s.relay.items.any fun i => i.kind == .promote && i.lpn == lpn)

/-- A request joins the page's promotion, or raises it (R80). -/
def State.joinPromotion (s : State) (r : Req) : State :=
  let s1 := s.setStage r .promotion
  if s.promoting r.lpn then s1 else s1.addItem .promote r.lpn 0 r.bib (some r.port) (some r.id) none

/-- A read is served from the packed distance copy (R82). -/
def State.bypassRead (s : State) (r : Req) (e : Page) : State :=
  (s.modReq r.id fun x => { x with stage := .item, entry := e }).addItem .bypass r.lpn r.blk r.bib (some r.port) (some r.id) none

/-- An UNSEAL of the block is queued or running (R79). -/
def State.unsealing (s : State) (lpn b : Nat) : Bool :=
  s.relay.items.any fun i => i.kind == .unseal && i.lpn == lpn && i.blk == b

/-- Another move than a promotion works on the page's distance source. -/
def State.movingFromDist (s : State) (lpn : Nat) : Bool :=
  (s.moveOn lpn).isSome && !(s.view lpn).inSprint && !s.promoting lpn

/-- The entry a request acts on: the page as it stands, with the OWNER read at lookup, which decides for the rest of its life whether
it reaches the page (R13, R18, R43). -/
def State.acting (s : State) (r : Req) : Page := { s.view r.lpn with owner := r.entry.owner }

/-- A read past its lookups (R38, R40, R74, R80, R82, R87). -/
def State.dispatchRead (s : State) (r : Req) : State :=
  let e := s.acting r
  let pw := s.poisonUnwritten r.lpn
  if r.len = 0 then s.readDone r [] false
  else if !s.inGo then s.readDone r [] true
  else if r.lpn = noPage ∨ e.owner ≠ r.port then s.zeroAnswer r false
  else if e.st = 8 then s.readDone r [] true
  else if e.st = 0 then s.zeroAnswer r pw
  else if e.st = 6 ∧ (s.vaultKey r.lpn).isNone then s.lockedVault r
  else if (e.st = 6 ∧ !bit e.vWritten r.blk) ∨ e.code r.blk = 0 then s.zeroAnswer r pw
  else if e.inSprint then
    (if s.unsealing r.lpn r.blk then s.setStage r .hold else s.sprintRead r e)
  else if s.bibClass r.bib = 2 ∨ s.pausing ∨ s.movingFromDist r.lpn then s.bypassRead r e
  else s.joinPromotion r

/-- Writes of the bib's class that need new space are withheld (R36). -/
def State.withheld (s : State) (b : Nat) : Bool :=
  (s.bibClass b == 2 && s.map.holdBulk) || (s.bibClass b == 1 && s.map.holdStd)

/-- An older write of the same bib waits for a slot of the same stack (R12). -/
def State.slotOlder (s : State) (r : Req) (home : Nat) : Bool :=
  s.reqs.any fun x => decide (x.id < r.id) && x.stage == .slot && x.bib == r.bib && s.homeFor x.lpn == home

/-- A vault write is encrypted by an XTS item before it enters its queue (R86). -/
def State.writeOrXts (s : State) (r : Req) (e : Page) : State :=
  if e.st = 6 then
    (s.setStage r .item).addItem .xts r.lpn r.blk r.bib (some r.port) (some r.id) none
  else s.sprintWrite r e

/-- The first write of a page takes a slot: UNWRITTEN to SPRINT_RAW, or to VAULT (Table 2.9). -/
def State.backWrite (s : State) (r : Req) (home slot : Nat) : State :=
  let e := { Page.zero with
    st := if s.isVault r.lpn then 6 else 1, owner := (s.page r.lpn).owner, home := home, slot := slot }
  ((s.takeSlot home slot).swapPage r.lpn e).writeOrXts r e

/-- A write to an UNWRITTEN page: withheld, waiting for a slot credit, or backed (R12, R36). -/
def State.newPageWrite (s : State) (r : Req) : State :=
  let home := s.homeFor r.lpn
  if s.withheld r.bib then s.setStage r .withheld
  else if s.slotOlder r home then s.setStage r .slot
  else
    match s.pickSlot home with
    | none => s.setStage r .slot
    | some sl => s.backWrite r home sl

/-- A write past its lookups (R19, R36, R39, R40, R78-R80, R87, R266, R277). -/
def State.dispatchWrite (s : State) (r : Req) : State :=
  let e := s.acting r
  if !s.inGo then s.writeDone r
  else if s.pausing then (s.discardCount r).writeDone r
  else if r.lpn = noPage ∨ e.owner ≠ r.port then s.discardWrite r
  else if r.poison then ((s.discardCount r).raiseWith 2 false 0x0209 r.port 0 0 r.lpn r.blk).writeDone r
  else if e.st = 8 then (s.bump 0x1310 6).writeDone r
  else if (e.st = 6 ∨ (e.st = 0 ∧ s.isVault r.lpn)) ∧ (s.vaultKey r.lpn).isNone then s.lockedVault r
  else if e.st = 0 then s.newPageWrite r
  else if e.inSprint then
    (if s.unsealing r.lpn r.blk then s.setStage r .hold
     else if e.st ≠ 6 ∧ isCoded (e.code r.blk) then
       (s.setStage r .hold).addItem .unseal r.lpn r.blk r.bib (some r.port) (some r.id) none
     else s.writeOrXts r e)
  else if s.movingFromDist r.lpn then s.setStage r .promotion
  else if s.withheld r.bib ∧ !s.promoting r.lpn then s.setStage r .withheld
  else s.joinPromotion r

def State.dispatch (s : State) (r : Req) : State := if r.write then s.dispatchWrite r else s.dispatchRead r

/-! ### Admission (R132) -/

/-- Host reads or writes admitted and not complete. -/
def State.admitted (s : State) (f : Req → Bool) : Nat :=
  (s.reqs.filter fun x => x.isHost && x.stage != .atPort && x.stage != .barrier && f x).length

/-- The outstanding limit of the request's bib is reached (R132). -/
def State.bibFull (s : State) (r : Req) : Bool :=
  !decide (s.admitted (fun x => x.port == r.port && x.bib == r.bib) < s.num (0x7010 + r.bib) 6)

/-- The limits of R132 and the port limits, split between the links of a bifurcated port (R165). -/
def State.mayAdmit (s : State) (r : Req) : Bool :=
  let cap := (if r.write then 512 else 1024) / (if (s.port r.port).bifurcated then 2 else 1)
  !s.bibFull r
    && decide (s.admitted (fun x => x.port == r.port && x.link == r.link && x.write == r.write) < cap)
    && !(s.reqs.any fun x => decide (x.id < r.id) && x.isHost && x.stage == .atPort && x.port == r.port && x.bib == r.bib)

/-- Window-map and block-map lookup of an admitted request (R13, R24, R43): a write through a frozen slot is treated as unmapped. Both
map caches hit (DESIGN CHOICE, log entry 82). -/
def State.lookup (s : State) (r : Req) : Req :=
  let w := s.win r.port r.hostExtent
  let lpn := if w.valid ∧ !(r.write && w.frozen) then w.handle * 32 + r.lpn else noPage
  { r with lpn := lpn, entry := s.view lpn }

/-- The swap of a map entry that the request would look up is not visible yet: writes of it still wait for their queue (R158). -/
def State.swapWaits (s : State) (r : Req) : Bool :=
  let lpn := (s.lookup r).lpn
  s.tier.flows.any fun f => match f.owner with
    | .metadata (.pageEntry l _) => l == lpn
    | .metadata (.winEntry p x _) => p == r.port && x == r.hostExtent
    | _ => false

/-- A request is admitted, or held; the bib's limit counts it once in BIB_HELD (R132). Its lookup waits for a swap that is not visible
yet (R158; DEDUCED, log entry 22). -/
def State.tryAdmit (s : State) (r : Req) : State :=
  if s.swapWaits r then s
  else if !r.isHost ∨ s.mayAdmit r then
    let r1 := { s.lookup r with stage := .hold }
    (s.modReq r.id fun _ => r1).dispatch r1
  else if s.bibFull r then s.countHeld r
  else s

/-- An earlier BAR2 write of the same link, not relaxed, is under way (R177). -/
def State.barred (s : State) (r : Req) : Bool :=
  s.reqs.any fun x => decide (x.id < r.id) && x.write && !x.relaxed && x.port == r.port && x.link == r.link && x.isHost

/-! ### Requests that wait are looked at again -/

def State.pumpOne (s : State) (id : Nat) : State :=
  match s.req id with
  | none => s
  | some r =>
    match r.stage with
    | .atPort => s.tryAdmit r
    | .barrier => if s.barred r then s else (s.setStage r .atPort).tryAdmit r
    | .withheld => s.dispatch r
    | .slot => if (s.view r.lpn).st = 0 then s else s.dispatch r
    | .promotion => if s.promoting r.lpn ∨ s.movingFromDist r.lpn then s else s.dispatch r
    | .hold => if s.unsealing r.lpn r.blk then s else s.dispatch r
    | .queue =>
      let e := s.view r.lpn
      if r.write then (if e.st = 6 ∧ e.inSprint then s.sprintWrite r e else s.dispatch r)
      else if e.st = 0 ∨ e.st = 8 ∨ s.unsealing r.lpn r.blk then s.dispatch r
      else s.sprintRead r (s.entryOf r)
    | .dram => s
    | .item => s

/-- What waits for a DRAM queue: requests (false) and flows (true), by level, highest first, then age (R126). -/
def State.waiters (s : State) : List (Nat × Nat × Bool) :=
  let rs := (s.reqs.filter fun r => r.stage == .queue).map fun r => (s.level r.bib (some r.port), r.id, false)
  let fs := s.tier.flows.map fun f => ((f.bib.map fun b => s.level b f.port).getD 0, f.id, true)
  sortBy (fun a b => decide (b.1 < a.1) || (a.1 == b.1 && decide (a.2.1 < b.2.1))) (rs ++ fs)

/-- One that waits for a DRAM queue is looked at again. -/
def State.pumpWaiter (s : State) (w : Nat × Nat × Bool) : State :=
  if w.2.2 then
    match s.tier.flows.find? fun f => f.id == w.2.1 with
    | some f => s.runFlow f
    | none => s
  else s.pumpOne w.2.1

/-- What waits for a DRAM queue in the order of R126, then every other held request, oldest first; then items that wait for an
entry. -/
def State.pump (s : State) : State :=
  let s1 := s.waiters.foldl State.pumpWaiter s
  (((s1.reqs.filter fun r => r.stage != .queue).map (·.id)).foldl State.pumpOne s1).placeItems

/-- A new request joins the end of the list. -/
def State.addReq (s : State) (f : Nat → Req) : State := { s.newId with reqs := s.reqs ++ [f s.nextId] }

/-- A request of a port for bytes within one block, at an address of the window. -/
def State.hostReq (s : State) (write : Bool) (p : Nat) (l : LinkId) (src : ReqSrc) (a : PartAddr) (len : Nat)
    (data : List (Option Byte)) (stage : Stage) (relaxed poison : Bool) : State :=
  s.addReq fun id => {
    id := id, write := write, port := p, link := l, src := src, bib := a.bib, hostExtent := a.extent, lpn := a.page,
    blk := a.block, off := a.off, len := len, data := data, arrival := s.now, entry := Page.zero, stage := stage, rdata := [],
    relaxed := relaxed, poison := poison, held := false }

end Sys2Proof.Machine
end

