-- ==== Sys2Proof/Machine/MoveOps.lean ====
section
/-! DEFINITION. Moves of the relay engines step by step, seals, codebook builds (R31, R57, R59, R63-R68, R71, R75-R78, R80-R85, R88). -/

namespace Sys2Proof.Machine

/-! ### Seals and builds -/

/-- The T9 requests a build of a region; one request at a time is pending (R65, R88). -/
def State.requestBuild (s : State) (n bib : Nat) (port : Option Nat) : State :=
  if s.relay.builds.any fun b => b.region == n then s
  else { s with relay := { s.relay with builds := s.relay.builds ++ [⟨n, bib, port, false⟩] } }

/-- The seal record of a region as it counts: its last REGION_BUILD_PAGES pages (R65). -/
def State.sealRecord (s : State) (n : Nat) : List Nat :=
  let l := mget s.relay.seals [] n
  l.drop (l.length - s.num (0x2100 + n) 6)

/-- The record of a region, full while no version is live, asks for a build, whatever filled it or made it count (R65). -/
def State.checkRecord (s : State) (n : Nat) : State :=
  let l := s.sealRecord n
  let s1 := { s with relay := { s.relay with seals := mput s.relay.seals [] n l } }
  if s.inGo ∧ n < 64 ∧ s.buildable n ∧ s.num (0x2100 + n) 6 ≤ l.length ∧ (s.liveSlots n).isEmpty then
    s1.requestBuild n s.firmwareBib none
  else s1

/-- Every seal record (R65). -/
def State.checkRecords (s : State) : State := (s.relay.seals.map (·.1)).foldl State.checkRecord s

/-- A page is sealed: it takes the newest place of its region's seal record (R65). -/
def State.recordSeal (s : State) (lpn : Nat) : State :=
  let n := s.region lpn
  let l := (mget s.relay.seals [] n).filter (· != lpn) ++ [lpn]
  ({ s with relay := { s.relay with seals := mput s.relay.seals [] n l } }).checkRecord n

/-- ESCAPEs of a seal against the newest version: the last REGION_BUILD_PAGES seals are kept (R88). -/
def State.recordEscapes (s : State) (n esc blocks : Nat) : State :=
  let l := mget s.relay.escapes [] n ++ [(esc, blocks)]
  { s with relay := { s.relay with escapes := mput s.relay.escapes [] n (l.drop (l.length - s.num (0x2100 + n) 6)) } }

/-- Mean ESCAPE count of the last REGION_BUILD_PAGES seals above the mark (R88). -/
def State.escapesHigh (s : State) (n : Nat) : Bool :=
  let all := mget s.relay.escapes [] n
  let k := s.num (0x2100 + n) 6
  let l := all.drop (all.length - k)
  decide (k ≤ all.length) && decide (0 < total (l.map (·.2))) &&
    decide (s.num 0x5000 9 * total (l.map (·.2)) < 100 * total (l.map (·.1)))

/-- A version slot becomes retiring (R64). -/
def State.setRetiring (s : State) (n v : Nat) : State :=
  let cs := updFirst (fun (x : Nat × CbVer) => x.1 == n * 16 + v) (fun x => (x.1, { x.2 with retiring := true })) s.relay.cbs
  { s with relay := { s.relay with cbs := cs } }

/-- Pending builds go on: with a free version slot the BUILD is raised; with 16 live versions firmware core 1 has each page of the
oldest recoded, and with none left makes it retiring (R11, R63, R88). -/
def State.advanceBuild (s : State) (b : BuildReq) : State :=
  if b.raised then s
  else
    let n := b.region
    if (s.liveSlots n).length < 16 then
      let bs := updFirst (fun (x : BuildReq) => x.region == n) (fun x => { x with raised := true }) s.relay.builds
      ({ s with relay := { s.relay with builds := bs } }).addItem .build (32 * s.num (0x2100 + n) 1) n b.bib b.port none none
    else if !s.core1Runs then s
    else
      match s.oldest n with
      | none => s
      | some v =>
        let cs := s.carriers n v
        if cs.isEmpty then
          s.setRetiring n v
        else (cs.filter fun p => !(s.relay.items.any fun i => i.kind == .recode && i.lpn == p)).foldl
          (fun s p => s.addFirmware .recode p none) s

def State.advanceBuilds (s : State) : State := s.relay.builds.foldl State.advanceBuild s

/-- One block of a seal or recode: new code, stored bytes, and its ESCAPES when it was coded (RAW fallback counts 17) (R59, R60). -/
def State.sealBlock (s : State) (lpn v : Nat) (e : Page) (fresh : Bool) (keepRaw : Bool) (b : Nat) : Nat × List Byte × Option Nat :=
  let c := e.code b
  let stored := s.sprintBlock e b
  if c = 0 then (0, [], none)
  else if keepRaw then (15, s.plain lpn e b stored, none)
  else if isCoded c ∧ !fresh then (c, stored, none)
  else
    let n := s.region lpn
    let raw := s.plain lpn e b stored
    match codeBlock (s.element lpn) (s.num (0x5100 + n) 1) v (((s.cb n v).map (·.set)).getD []) raw with
    | none => (15, raw, some 17)
    | some (len, esc, bytes) => (len, bytes, some esc)

/-- The blocks of a page coded for a new slot: those in keep stay RAW (R59, R78). -/
def State.sealBlocks (s : State) (lpn v : Nat) (e : Page) (keep : List Nat) : List (Nat × List Byte × Option Nat) :=
  let fresh := e.anyCoded && e.cbv != v
  (upto 32).map fun b => s.sealBlock lpn v e fresh (keep.contains b) b

/-- Blocks written at their own offsets of a slot (R32). -/
def State.writeSlot (s : State) (stack slot : Nat) (blocks : List (List Byte)) : State :=
  blocks.zipIdx.foldl (fun s p => s.writeSprint (slotAddr stack slot + 2048 * p.2) p.1) s

/-- A page image written to a run (R33). -/
def State.writeRun (s : State) (r : Run) (blocks : List (List Byte)) : State := s.writeDist (plotAddr r.chan r.first) blocks.flatten

/-- Whether a region can code: element coded, neither NO_CODE nor VAULT (Table 2.9, section 4.7). -/
def State.codes (s : State) (lpn : Nat) : Bool := elemCoded (s.element lpn) && !s.noCode lpn && !s.isVault lpn

/-! ### Injected faults (R283) -/

/-- An armed fault of a unit that leaves service is dropped (R283, R286). -/
def State.dropInject (s : State) (unit : Nat) : State :=
  if (s.test.inject.map (·.unit)) = some unit then { s with test := { s.test with inject := none } } else s

/-- A fault of a kind is armed on a unit. -/
def State.armed (s : State) (unit kind : Nat) : Bool := s.test.inject == some ⟨unit, kind⟩

/-- Records raised on a path carry INJECTED (R283). -/
def State.asInjected (s : State) (path : State → State) : State :=
  let s1 := path { s with ev := { s.ev with injected := true } }
  { s1 with ev := { s1.ev with injected := s.ev.injected } }

/-- The armed fault fires: INJECTIONS, event 0x0A10, and the path of the fault (R283). -/
def State.fireInject (s : State) (unit kind : Nat) (path : State → State) : State :=
  s.asInjected fun x => path ((({ x with test := { x.test with inject := none } }).bump 0xA200 4).raise 0x0A10 unit kind 0)

/-! ### Starting a move -/

/-- A move applies to a page as it stands (Table 2.9, R83, R85). -/
def moveFits (k : ItemKind) (e : Page) : Bool :=
  match k with
  | .promote => e.st == 3 || (e.st == 6 && e.vLoc == 3)
  | .sealing => (e.st == 1 || e.st == 2 || e.st == 5) && e.gran.contains 15
  | .demote => e.st == 1 || e.st == 2 || (e.st == 6 && e.vLoc == 0)
  | .writeback => e.st == 5 || (e.st == 6 && e.vLoc == 2)
  | .evacuate => e.st == 3 || (e.st == 6 && e.vLoc == 3)
  | .compact => e.st == 3 || (e.st == 6 && e.vLoc == 3)
  | .recode => e.st == 2 || e.st == 4 || e.st == 5 || e.st == 3
  | _ => false

/-- A move whose destination is a sprint slot. -/
def toSlot (k : ItemKind) (e : Page) : Bool := k == .promote || k == .sealing || (k == .recode && e.st != 3)

/-- Codes of a recoded distance image. -/
def State.recodeDist (s : State) (lpn v : Nat) (e : Page) : List (Nat × List Byte) :=
  (upto 32).map fun b =>
    let c := e.code b
    if c = 0 then (0, [])
    else
      let raw := s.plain lpn e b (s.distBlock e b)
      let n := s.region lpn
      match codeBlock (s.element lpn) (s.num (0x5100 + n) 1) v (((s.cb n v).map (·.set)).getD []) raw with
      | none => (15, raw)
      | some (len, _, bytes) => (len, bytes)

/-- The source tier of a move. -/
def Move.fromDist (m : Move) : Bool :=
  m.prior.distOnly && (m.item.kind == .promote || m.item.kind == .evacuate || m.item.kind == .compact || m.item.kind == .recode)

/-- A move between tiers or within the distance tier (R75, R78 apart). -/
def Move.switches (m : Move) : Bool := m.item.kind != .sealing && !(m.item.kind == .recode && m.slot.isSome)

/-- The page is swapped to IN_TRANSIT after its journal entry is written (R31, R75 step 2); moves within the sprint tier and vault
moves keep the state. -/
def State.enterTransit (s : State) (m : Move) : State :=
  let e := s.page m.item.lpn
  if e.st = 6 ∨ !m.switches then s
  else s.swapPage m.item.lpn { e with st := 7, touched := false }

/-- A page sealed while its region has no live version, or cannot code, stays as it is and is recorded (R31, R65). -/
def State.sealIdle (s : State) (it : Item) : State := (s.recordSeal it.lpn).dropItem it.id

/-- The channel of a move's run: the one its item names, the page's own for RECODE; while an EVACUATE waits core 1 may name another
(R83, R154). -/
def State.destChan (s : State) (it : Item) (e : Page) (n : Nat) (old : Option Run) : Nat :=
  let c := if it.kind = .recode then e.channel else it.chan.getD e.channel
  if it.kind = .evacuate ∧ (s.placeRun c n old).isNone then (s.pickChannel n old [e.channel]).getD c else c

/-- A move that holds its space: its journal entry is written, and the coder works against the version newest now (R59, R75 steps 1
and 2). -/
def State.journal (s : State) (m : Move) : State :=
  (s.modMove m.id fun _ => { m with step := 1, cbv := s.newest (s.region m.item.lpn) }).writeJournal m.item.lpn

/-- A move takes its destination space, when there is some, and is journaled (R75 steps 1-2). -/
def State.takeSpace (s : State) (m : Move) : State :=
  let e := s.view m.item.lpn
  let v := s.newest (s.region m.item.lpn)
  let codes := if m.item.kind = .recode ∧ e.st = 3 then (s.recodeDist m.item.lpn (v.getD 0) e).map (·.1) else e.codes
  if m.slot.isSome ∨ m.run.isSome then s
  else if m.item.kind = .sealing ∧ v.isNone then (s.endMove m).sealIdle m.item
  else if m.item.kind = .recode ∧ v.isNone then s.endMove m
  else if toSlot m.item.kind e then
    match s.pickSlot m.prior.home with
    | none => s
    | some sl => (s.takeSlot m.prior.home sl).journal { m with slot := some sl }
  else
    let n := imageGranules codes
    let old := if e.inDist then s.runOf e else none
    match s.placeRun (s.destChan m.item e n old) n old with
    | none => s
    | some r => (s.takeRun r).journal { m with run := some r, pooled := s.inPool r, codes := codes }

def Move.hasSpace (m : Move) : Bool := m.slot.isSome || m.run.isSome

/-! ### The steps of a move (R75) -/

/-- Granules of some blocks of a page wait to be read from, or written to, one copy. -/
def State.blockFlows (s : State) (id lpn : Nat) (dist write : Bool) (e : Page) (blks : List Nat) (bib port : Option Nat) : State :=
  blks.foldl (fun s b =>
    if dist then s.addFlow (.work id lpn b) (.dist e.channel) write (e.distGranule b) (codeGranules (e.code b)) bib port
    else s.addFlow (.work id lpn b) e.sprintUnit write (e.sprintGranule b) (codeGranules (e.code b)) bib port) s

/-- The codes of a move's destination: those the coder gives, else the source's. -/
def State.destCodes (s : State) (m : Move) (e : Page) : List Nat :=
  if m.run.isSome then m.codes else if m.switches then e.codes
  else (s.sealBlocks m.item.lpn (m.cbv.getD 0) e []).map (·.1)

/-- The destination of a move as a place of blocks. -/
def Move.dest (m : Move) (e : Page) (codes : List Nat) : Page :=
  match m.run with
  | some r => { e with channel := r.chan, plot := r.first, gran := codes }
  | none => { e with slot := m.slot.getD 0, gran := codes }

/-- The granules of a step of a move. -/
def State.moveFlows (s : State) (m : Move) (step : Nat) : State :=
  let e := s.view m.item.lpn
  let s1 := s.modMove m.id fun x => { x with step := step, codes := if step = 3 then s.destCodes m e else x.codes }
  let go := fun (dist write : Bool) (p : Page) => s1.blockFlows m.id m.item.lpn dist write p (upto 32) (some m.item.bib) m.item.port
  if step = 2 then go m.fromDist false e
  else if step = 3 then go m.run.isSome true (m.dest e (s.destCodes m e))
  else if step = 4 then go m.run.isSome false (m.dest e m.codes)
  else s1

/-- A copy of a block written over. -/
def State.writeCopy (s : State) (e : Page) (b : Nat) (dist : Bool) (bytes : List Byte) : State :=
  if dist then s.writeDist (e.distAddr b) bytes else s.writeSprint (e.sprintAddr b) bytes

/-- First block of a copy that fails its check, with the check number, 0 for an ECC error (R56, R75 step 3). -/
def State.copyFault (s : State) (lpn : Nat) (e : Page) (dist : Bool) (bad : List Nat) : Option (Nat × Nat) :=
  (upto 32).findSome? fun b =>
    if e.code b = 0 then none
    else if bad.contains b then some (b, 0)
    else (s.blockFails lpn e b (if dist then s.distBlock e b else s.sprintBlock e b)).map fun c => (b, c)

/-- Every block of a copy is checked: a failed one is replaced from the other tier, or the page is lost, and its move with it
(R57, R75 step 3). -/
def State.checkCopy (s : State) (lpn : Nat) (dist : Bool) : (fuel : Nat) → List Nat → State
  | 0, _ => s
  | f + 1, bad =>
    let e := s.view lpn
    match s.copyFault lpn e dist bad with
    | none => s
    | some (b, c) =>
      match s.checkFail lpn b dist c with
      | (some good, s1) => (s1.writeCopy e b dist good).checkCopy lpn dist f (bad.filter (· != b))
      | (none, s1) => s1

/-- A move goes on to its next step once the last has drained: from the journal to the source, which is then checked, to the
destination, to its read-back, and to where it may switch (R75). -/
def State.stepMove (s : State) (id : Nat) : State :=
  match s.move id with
  | none => s
  | some m =>
    if m.step = 0 ∨ 5 ≤ m.step ∨ s.busy id then s
    else if m.step = 1 then (if s.journalWaits m.item.lpn then s else (s.enterTransit m).moveFlows m 2)
    else if m.step = 2 then
      let s1 := s.checkCopy m.item.lpn m.fromDist 33 m.srcBad
      if (s1.move id).isSome then s1.moveFlows m 3 else s1
    else s.moveFlows m (m.step + 1)

/-- Every move goes as far as it can without a burst. -/
def State.stepMoves (s : State) : State :=
  (s.relay.moves.map (·.id)).foldl (fun s id => (upto 5).foldl (fun s _ => s.stepMove id) s) s

/-- The move of an item starts. A promotion does not start during PAUSE entry (R91); a demotion or write-back without a run leaves
its page (R37, R83), and the write-back is raised again; a recode that R36 holds back waits. -/
def State.startMove (s : State) (it : Item) : State :=
  let e := s.view it.lpn
  let n := s.region it.lpn
  let v := s.newest n
  if !moveFits it.kind e then s.dropItem it.id
  else if it.kind = .promote ∧ s.pausing then s.dropItem it.id
  else if it.kind = .sealing ∧ (v.isNone ∨ !s.codes it.lpn) then s.sealIdle it
  else if it.kind = .recode ∧ v.isNone then s.dropItem it.id
  else
    let inj := match s.test.inject with
      | some i => if i.unit / 4096 = 2 ∧ it.engine = some (i.unit % 4096) then i.kind else 0
      | none => 0
    let m : Move := {
      id := s.nextId, item := { it with running := true }, prior := e, slot := none, run := none, pooled := false, cbv := v, marked := [],
      codes := [],
      inject := if inj = 0x10 ∨ inj = 0x11 ∨ inj = 0x12 then inj else 0, step := 0, srcBad := [], dstBad := [] }
    let s1 := (s.newId.modItem it.id fun i => { i with running := true })
    let s2 := { s1 with relay := { s1.relay with moves := s1.relay.moves ++ [m] } }
    let s3 := if m.inject = 0 then s2 else s2.fireInject (unitRelay (it.engine.getD 0)) m.inject id
    let s4 := s3.takeSpace m
    let waits := it.kind == .demote || it.kind == .writeback
    match s4.move m.id with
    | some m4 =>
      if waits ∧ !m4.hasSpace then
        let s5 := s4.endMove m4
        if it.kind = .writeback ∨ s.pausing then s5.raiseMove it.kind it.lpn else s5
      else s4
    | none => s4

/-! ### Starting an item (R71) -/

/-- Rank of kinds at equal priority and age: EXPAND, XTS and BYPASS first. -/
def kindRank (k : ItemKind) : Nat := if k = .expand ∨ k = .xts ∨ k = .bypass then 0 else 1

/-- Whether item a is taken before item b. -/
def State.itemBefore (s : State) (a b : Item) : Bool :=
  let la := s.itemLevel a
  let lb := s.itemLevel b
  decide (lb < la) || (la == lb && (decide (a.age < b.age) || (a.age == b.age &&
    (decide (kindRank a.kind < kindRank b.kind) || (kindRank a.kind == kindRank b.kind && decide (a.id < b.id))))))

/-- The request an item serves is still there. -/
def State.served (s : State) (it : Item) : Bool :=
  match it.req with
  | some id => it.kind == .promote || (s.req id).isSome
  | none => true

/-- A bypass read takes the packed granules of its block from the distance channel (R82). -/
def State.startBypass (s : State) (it : Item) (r : Req) : State :=
  let e := r.entry
  let c := e.channel
  let s1 := s.enqueueN (.dist c) false (e.distGranule r.blk) (codeGranules (e.code r.blk)) (.req r.id) (some r.bib) (some r.port)
  (s1.modReq r.id fun x => { x with rdata := s.distBlock e r.blk }).modItem it.id fun i => { i with running := true }

/-- The granules an UNSEAL, a BUILD, a REPAIR or a COPY_OUT of an image reads as it starts: the coded block, the pages of the record,
the block's good copy, the page (R57, R65, R79, R111). -/
def State.itemReads (s : State) (it : Item) : State :=
  let e := s.view it.lpn
  let reads := fun (s : State) (lpn : Nat) (dist : Bool) (e : Page) (bs : List Nat) =>
    s.blockFlows it.id lpn dist false e bs (some it.bib) it.port
  match it.kind with
  | .unseal => reads s it.lpn false e [it.blk]
  | .repair => reads s it.lpn it.chan.isNone e [it.blk]
  | .copyOut => match s.stride.jobs.find? fun j => some j.id == it.job with
    | some j => if j.form = 1 then reads s it.lpn (!e.inSprint) e (upto 32) else s
    | none => s
  | .build => (s.sealRecord it.blk).foldl (fun s l => reads s l (!(s.view l).inSprint) (s.view l) (upto 32)) s
  | _ => s

/-- Every credit an item needs is there. -/
def State.canStart (s : State) (e : Nat) (it : Item) : Bool :=
  s.engineReady e it &&
    (match it.kind, it.req.bind s.req with
      | .bypass, some r => s.mayEnter (.dist r.entry.channel) false (some r.bib) (codeGranules (r.entry.code r.blk))
      | _, _ => true)

/-- An item starts. -/
def State.startItem (s : State) (it : Item) : State :=
  if isMove it.kind then s.startMove it
  else
    match it.kind, it.req.bind s.req with
    | .bypass, some r => s.startBypass it r
    | _, _ => (s.modItem it.id fun i => { i with running := true }).itemReads it

/-- A recode that needs new plots is a write needing new space (R36, R88). -/
def State.recodeHeld (s : State) (it : Item) : Bool := it.kind == .recode && (s.view it.lpn).st == 3 && s.withheld it.bib

/-- The next item of an engine: an item whose page has a move in progress waits aside (R80); an item that lacks a credit holds
back later items of its bib (R12); held by the ingest split it counts once in BIB_HELD (R132). -/
def State.startNext (s : State) (e : Nat) : (fuel : Nat) → List Item → State
  | 0, _ => s
  | f + 1, cands =>
    match bestBy s.itemBefore cands with
    | none => s
    | some it =>
      if isMove it.kind ∧ ((s.moveOn it.lpn).isSome ∨ s.recodeHeld it) then s.startNext e f (cands.filter fun i => i.id != it.id)
      else if s.canStart e it then s.startItem it
      else (if s.splitLeaves e it then s else s.itemHeld it).startNext e f (cands.filter fun i => i.bib != it.bib)

/-- ITEM_START for an engine. -/
def State.engineTakes (s : State) (e : Nat) : State :=
  if !s.relayOpen e then s
  else
    let cands := s.relay.items.filter fun i => i.engine == some e && !i.running && s.served i && decide (i.age ≤ s.now)
    s.startNext e cands.length cands

/-! ### Engine failure (R77, R278, R279) -/

/-- Fences of an engine within 24 h (R278). -/
def recentFences (now : Nat) (fs : List Nat) : List Nat := fs.filter fun t => now < t + 86400000000000

/-- An engine fenced now; the third fence within 24 h is permanent (R278). -/
def Engine.fence (g : Engine) (now : Nat) : Engine :=
  let fs := recentFences now g.fences ++ [now]
  { g with fenced := true, drained := false, fences := fs, permanent := g.permanent || decide (3 ≤ fs.length) }

/-- Number of an item kind in event records (DESIGN CHOICE, log entry 23): the order of Table 4.2. -/
def kindCode (k : ItemKind) : Nat :=
  match k with
  | .expand => 0
  | .xts => 1
  | .bypass => 2
  | .promote => 3
  | .sealing => 4
  | .unseal => 5
  | .demote => 6
  | .writeback => 7
  | .evacuate => 8
  | .compact => 9
  | .recode => 10
  | .repair => 11
  | .copyIn => 12
  | .copyOut => 13
  | .build => 14

/-- A move is unwound from its journal and its item queued again (R77). -/
def State.restartMove (s : State) (m : Move) (why : Nat) : State :=
  let s1 := (s.raisePage 0x0410 (unitRelay why) (kindCode m.item.kind) m.item.lpn 0).bump 0x5010 4
  let s2 := (s1.returnPrior m).freeDest m
  (({ s2 with relay := { s2.relay with moves := s2.relay.moves.filter fun x => x.id != m.id } }).dropFlows m.id).modItem m.item.id
    fun i => { i with running := false, engine := none }

/-- Every move and item of an engine goes back to the queues (R77). -/
def State.unloadEngine (s : State) (e : Nat) : State :=
  let ms := s.relay.moves.filter fun m => m.item.engine == some e
  let s1 := ms.foldl (fun s m => s.restartMove m e) s
  let s2 := (s1.relay.items.filter fun i => i.engine == some e).foldl (fun s i => s.dropFlows i.id) s1
  let its := s2.relay.items.map fun i => if i.engine = some e then { i with engine := none, running := false } else i
  { s2 with relay := { s2.relay with items := its } }

/-- Unfenced relay engines. -/
def State.unfenced (s : State) : Nat := (s.relay.engines.filter fun g => !g.fenced).length

/-- A relay engine is fenced with event 0x0411, its work unwound and restarted elsewhere (R77, R278). -/
def State.fenceRelay (s : State) (e : Nat) : State :=
  let s1 := (s.dropInject (unitRelay e)).modRelay e fun g => g.fence s.now
  let s2 := s1.raise 0x0411 (unitRelay e) 0 (b2n (s1.relayEng e).permanent)
  (s2.unloadEngine e).placeItems

/-! ### Switches -/

/-- A wrong CRC left in the first coded block of a new copy (Table 13.7, 0x12). -/
def spoilCrc : List (List Byte) → List Nat → List (List Byte)
  | b :: bs, c :: cs => if isCoded c then patch b 8 [b.getD 8 0 ^^^ 0xFF] :: bs else b :: spoilCrc bs cs
  | bs, _ => bs

/-- The block that an injected wrong CRC lands in is noted (R283). -/
def State.noteSpoiled (s : State) (m : Move) (codes : List Nat) : State :=
  match m.inject == 0x12, (upto 32).find? fun b => isCoded (nth codes 0 b) with
  | true, some b => { s with test := { s.test with spoiled := s.test.spoiled ++ [(m.item.lpn, b)] } }
  | _, _ => s

/-- The old run of a page given back at a switch (R76); it joins the pool its new run came from (R84). -/
def State.freeOld (s : State) (lpn : Nat) (e : Page) (pooled : Bool) : State :=
  match s.runOf e with
  | some r => s.release lpn (.run r pooled)
  | none => s

/-- The switch of a move between tiers or within the distance tier (R31, R75 step 6, R80, R83, R85). -/
def State.switchTo (s : State) (m : Move) : State :=
  let lpn := m.item.lpn
  let cur := s.page lpn
  let e := s.view lpn
  let bad := fun (bs : List (List Byte)) (cs : List Nat) => if m.inject = 0x12 then spoilCrc bs cs else bs
  let s1 := s.bump 0x5010 2
  match m.item.kind, m.slot, m.run with
  | .promote, some sl, _ =>
    let blocks := (upto 32).map fun b => s.distBlock e b
    let s2 := ((s1.writeSlot m.prior.home sl (bad blocks e.codes)).noteSpoiled m e.codes).bump 0x1310 7
    (s2.swapPage lpn (if e.st = 6 then { cur with vLoc := 1, slot := sl, touched := false }
      else { cur with st := 4, slot := sl, touched := false })).endMove m
  | .recode, _, some r =>
    let bl := s.recodeDist lpn (m.cbv.getD 0) e
    let s2 := (s1.writeRun r (bad (bl.map (·.2)) (bl.map (·.1)))).noteSpoiled m (bl.map (·.1))
    let new := { cur with st := 3, gran := bl.map (·.1), cbv := m.cbv.getD 0, plot := r.first, channel := r.chan, touched := false }
    ((s2.swapPage lpn new).freeOld lpn e m.pooled).endMove m
  | k, _, some r =>
    let fromSprint := k = .demote ∨ k = .writeback
    let blocks := (upto 32).map fun b => if fromSprint then s.sprintBlock e b else s.distBlock e b
    let s2 := (s1.writeRun r (bad blocks e.codes)).noteSpoiled m e.codes
    let new := { cur with channel := r.chan, plot := r.first, touched := false }
    let done := if e.st = 6 then (if fromSprint then { new with vLoc := 1 } else new)
      else { new with st := if fromSprint then 4 else 3 }
    let s3 := if k = .demote then s2.bump 0x1310 8 else if k = .writeback then s2.bump 0x1310 9 else s2
    let s4 := s3.swapPage lpn done
    (if e.inDist then s4.freeOld lpn e m.pooled else s4).endMove m
  | _, _, _ => s

/-- The version a move codes against can still be taken: it is live and not retiring (R64). -/
def State.cbvOpen (s : State) (m : Move) : Bool :=
  match m.cbv with
  | some v => (s.freshSlots (s.region m.item.lpn)).contains v
  | none => true

/-- The close and switch of a seal or of a recode in the sprint tier; marked blocks are copied raw (R78, R85). -/
def State.closeSeal (s : State) (m : Move) (sl : Nat) : State :=
  let lpn := m.item.lpn
  let e := s.page lpn
  let n := s.region lpn
  let v := m.cbv.getD 0
  let bl := s.sealBlocks lpn v e m.marked
  let codes := bl.map (·.1)
  let stored := bl.map (·.2.1)
  let s1 := ((s.writeSlot e.home sl (if m.inject = 0x12 then spoilCrc stored codes else stored)).noteSpoiled m codes).bump 0x5010 2
  let any := codes.any isCoded
  let st := if e.st = 4 ∨ e.st = 5 then 5 else if any then 2 else 1
  let new := { e with st := st, slot := sl, gran := codes, cbv := if any then v else e.cbv, touched := false }
  let s2 := (((s1.swapPage lpn new).release lpn (.slot e.home e.slot)).endMove m).newId.blockFlows s.nextId lpn false true new m.marked
    (some m.item.bib) m.item.port
  if m.item.kind = .sealing then
    let es := bl.filterMap (·.2.2)
    let s3 := if s.newest n = some v then s2.recordEscapes n (total es) es.length else s2
    (s3.bump 0x5010 5).recordSeal lpn
  else s2

/-- A destination whose block fails a check, 0 for an uncorrectable granule, fails the move: event 0x0310 names the destination, which is freed; a
source block that fails too is met as R57 says (R68). -/
def State.destFault (s : State) (m : Move) (b check : Nat) : State :=
  let unit := match m.run with
    | some r => unitChan r.chan
    | none => unitPc m.prior.home (m.slot.getD 0 % 32)
  let lpn := m.item.lpn
  let s1 := (s.checkEvent 2 lpn b unit check).undoMove m
  let e := s1.view lpn
  match s1.blockFails lpn e b (if m.fromDist then s1.distBlock e b else s1.sprintBlock e b) with
  | some c => (s1.checkFail lpn b m.fromDist c).2
  | none => s1

/-- The block an injected bad destination names with its check: the CRC of the first coded block, else ECC of the first written one
(Table 13.7, 0x11; DESIGN CHOICE, log entry 23). -/
def injectedFault (codes : List Nat) : Nat × Nat :=
  match (upto 32).find? fun b => isCoded (nth codes 0 b) with
  | some b => (b, 9)
  | none => (((upto 32).find? fun b => nth codes 0 b != 0).getD 0, 0)

/-- A pending version whose pins have dropped is retired with event 0x0321 (R62-R64). -/
def State.retire (s : State) (n v : Nat) : State :=
  let ok := ((s.cb n v).map (·.retiring)).getD false && !s.pinned n v
  if ok then
    (({ s with relay := { s.relay with cbs := s.relay.cbs.filter fun x => x.1 != n * 16 + v } }).raise 0x0321 (unitRegion n) 0 v)
  else s

/-- Pages of a region's seal record that are still SPRINT_RAW are sealed again, with the bib of their last write (section 2.5, R65,
Table 4.2). -/
def State.reseal (s : State) (n : Nat) : State :=
  ((s.sealRecord n).filter fun l => (s.page l).st == 1 && !s.sealPending l).foldl
    (fun s l => s.addItem .sealing l 0 (s.use l).lastBib none none none) s

/-- A codebook set becomes a live version of a region and is written to both tiers' copies; version 1 has the counted pages sealed
again (section 2.5, R61, R64, R88, R138, R158). -/
def State.newVersion (s : State) (n slot : Nat) (set : List Byte) : State :=
  let k := mget s.relay.cbNums 0 n + 1
  let live : List (Nat × CbVer) := (s.relay.cbs.filter fun x => x.1 != n * 16 + slot) ++ [(n * 16 + slot, ⟨k, set, false⟩)]
  let s1 := { s with relay := { s.relay with
    cbs := live
    cbNums := mput s.relay.cbNums 0 n k
    escapes := mput s.relay.escapes [] n [] } }
  let s2 := ((s1.bump (0x5100 + n) 0x0C).raise 0x0320 (unitRegion n) 0 slot).writeSet n slot
  if k = 1 then s2.reseal n else s2

/-- Every block of the record's pages passes its checks before a build takes it (R56, R57). -/
def State.checkBuild (s : State) (n : Nat) : State :=
  (s.sealRecord n).foldl (fun s l => s.checkCopy l (!(s.view l).inSprint) 33 []) s

/-- The current blocks of a page for a build: none for code 0x0, coded ones expanded (R65). -/
def State.buildPage (s : State) (lpn : Nat) : Nat × List (Option (List Byte)) :=
  let e := s.view lpn
  (lpn, (upto 32).map fun b =>
    if e.code b = 0 then none
    else some (s.plain lpn e b (if e.inSprint then s.sprintBlock e b else s.distBlock e b)))

/-- A REPAIR whose good copy has been read rewrites the failing copy, if the page still has both (R57, R85). -/
def State.stepRepair (s : State) (it : Item) : State :=
  if it.kind ≠ .repair ∨ !it.running ∨ s.busy it.id then s
  else
    let e := s.page it.lpn
    let dist := it.chan.isSome
    let s1 := s.dropItem it.id
    if !e.twoCopies then s1
    else
      ((s1.writeCopy e it.blk dist (if dist then s.sprintBlock e it.blk else s.distBlock e it.blk)).blockFlows it.id it.lpn dist true e
        [it.blk] (some it.bib) none).bump 0x5010 9

/-- Moves, repairs, builds, held requests and items go on as far as they can. -/
def State.settle (s : State) : State :=
  let s1 := s.checkRecords.stepMoves
  ((s1.relay.items.foldl State.stepRepair s1).resettle.guardExits.advanceBuilds).pump

end Sys2Proof.Machine
end

