-- ==== Sys2Proof/Machine/DmaOps.lean ====
section
/-! DEFINITION. The T9's own requests to a host: translations, DMA reads, writes of results and completion records (R98, R114,
R116, R117, R178-R181), and host pointers under LOGICAL. -/

namespace Sys2Proof.Machine

/-! ### Links -/

/-- The link carries requests: trained, released, not under PERST_N (Table 8.7). -/
def State.linkOpen (s : State) (p : Nat) (l : LinkId) : Bool :=
  let st := (s.link p l).state
  s.linkPresent p l && (st == 2 || st == 3 || st == 4) && s.run.portsReleased && !(s.port p).perstLow
    && (s.run.state == 1 || s.run.state == 2)

/-- A request takes the link out of L1 (R182). -/
def State.wakeLink (s : State) (p : Nat) (l : LinkId) : State :=
  if (s.link p l).state = 4 then s.modLink p l fun k => { k with state := 2 } else s

/-- The link may issue requests of its own: Bus Master Enable, D0, not frozen (R183, R188, R189). -/
def State.mayIssue (s : State) (p : Nat) (l : LinkId) : Bool :=
  s.linkOpen p l && bit (s.link p l).command 2 && (s.link p l).dstate == 0 && !(s.port p).frozen

/-! ### Translations (R116, R178) -/

/-- What the cache of a link says of an access: some true, allowed; some false, failed or lacking the permission; none, unknown. -/
def Link.lookupXlate (k : Link) (addr len : Nat) (write : Bool) : Option Bool :=
  (k.cache.find? fun x => decide (x.addr ≤ addr ∧ addr + len ≤ x.addr + x.size)).map fun x => if write then x.w else x.r

/-- A translation used: it becomes the newest of the cache (least recently used first out, R178). -/
def Link.useXlate (k : Link) (addr len : Nat) : Link :=
  match k.cache.find? fun x => decide (x.addr ≤ addr ∧ addr + len ≤ x.addr + x.size) with
  | some x => { k with cache := (k.cache.filter (· != x)) ++ [x] }
  | none => k

/-- An access meets a range that is being invalidated: it pauses (R117). -/
def Link.paused (k : Link) (addr len : Nat) : Bool :=
  k.invals.any fun v => decide (v.2.1 < addr + len ∧ addr < v.2.1 + v.2.2)

/-- Entries of a link's translation cache: 512, or 256 for each link of a bifurcated port (R116, R165). -/
def State.cacheSize (s : State) (p : Nat) : Nat := if (s.port p).bifurcated then 256 else 512

/-- A translation enters the cache; the least recently used leaves a full one. -/
def State.cacheXlate (s : State) (p : Nat) (l : LinkId) (x : Xlate) : State :=
  s.modLink p l fun k =>
    let c := (k.cache.filter fun y => y.addr != x.addr || y.size != x.size) ++ [x]
    { k with cache := c.drop (c.length - s.cacheSize p) }

/-- Pieces of a host range, each within one 4 KiB page. -/
def hostPieces (addr len : Nat) : List (Nat × Nat) := pieces 4096 (len / 4096 + 2) addr len

/-- Pieces of a read, each of at most Max_Read_Request_Size and within one 4 KiB page (R178). -/
def Link.readPieces (k : Link) (addr len : Nat) : List (Nat × Nat) := pieces k.maxRead (len / k.maxRead + 2) addr len

/-! ### DMA reads -/

def State.modDma (s : State) (p : Nat) (l : LinkId) (id : Nat) (f : DmaRead → DmaRead) : State :=
  s.modLink p l fun k => { k with dma := updFirst (fun d => d.id == id) f k.dma }

/-- Reads of a link that are issued. -/
def Link.issued (k : Link) : Nat := (k.dma.filter fun d => d.phase == .issued).length

/-- A DMA read is issued: with a translation, or untranslated while ATS is disabled; without one it asks for it (R178). -/
def State.issueRead (s : State) (p : Nat) (l : LinkId) (d : DmaRead) : State :=
  let k := s.link p l
  if !s.mayIssue p l ∨ k.paused d.addr d.len ∨ k.readTags ≤ k.issued then s
  else if !k.atsEn then
    ((s.wakeLink p l).modDma p l d.id fun x => { x with phase := .issued }).emit (.dmaRead p l d.id d.addr d.len false)
  else
    match k.lookupXlate d.addr d.len false with
    | some true =>
      (((s.wakeLink p l).modDma p l d.id fun x => { x with phase := .issued }).modLink p l fun y => y.useXlate d.addr d.len).emit
        (.dmaRead p l d.id d.addr d.len true)
    | some false => s.modDma p l d.id fun x => { x with phase := .failed }
    | none =>
      if d.asked then s
      else ((s.wakeLink p l).modDma p l d.id fun x => { x with asked := true }).emit (.atsRequest p l d.addr)

/-- Every read that waits for a translation is looked at again. -/
def State.pumpDma (s : State) (p : Nat) (l : LinkId) : State :=
  ((s.link p l).dma.filter fun d => d.phase == .xlate).foldl (fun s d => s.issueRead p l d) s

/-- The state of fetching host bytes. -/
inductive Fetch where
  | ready (data : List Byte)
  | wait
  | fail
  deriving DecidableEq, Repr

/-- Two fetches in a row: a failed one fails both. -/
def Fetch.then : Fetch → Fetch → Fetch
  | .fail, _ => .fail
  | _, .fail => .fail
  | .ready a, .ready b => .ready (a ++ b)
  | .ready _, .wait => .wait
  | .wait, _ => .wait

/-- One piece of host memory for an owner: read already, failed, or asked for. -/
def State.fetchPiece (s : State) (p : Nat) (l : LinkId) (o : DmaOwner) (a n : Nat) : Fetch × State :=
  match (s.link p l).dma.find? fun d => d.owner == o && d.addr == a && d.len == n with
  | some d =>
    match d.phase with
    | .done bs => (.ready bs, s)
    | .failed => (.fail, s)
    | .issued => (.wait, s)
    | .xlate => (.wait, s)
  | none =>
    let d : DmaRead := ⟨s.nextId, o, a, n, .xlate, false⟩
    (.wait, (s.newId.modLink p l fun k => { k with dma := k.dma ++ [d] }).issueRead p l d)

/-- Host bytes for an owner, in order; every piece is asked for at once. -/
def State.fetchHost (s : State) (p : Nat) (l : LinkId) (o : DmaOwner) (addr len : Nat) : Fetch × State :=
  ((s.link p l).readPieces addr len).foldl (fun acc x =>
    let r := acc.2.fetchPiece p l o x.1 x.2
    (acc.1.then r.1, r.2)) (.ready [], s)

/-- The DMA reads of an owner are forgotten. -/
def State.dropReads (s : State) (p : Nat) (l : LinkId) (o : DmaOwner) : State :=
  s.modLink p l fun k => { k with dma := k.dma.filter fun d => d.owner != o }

/-! ### The window under LOGICAL (R38-R40, R116) -/

def State.job (s : State) (id : Nat) : Option Job := s.stride.jobs.find? fun j => j.id == id

def State.modJob (s : State) (id : Nat) (f : Job → Job) : State :=
  { s with stride := { s.stride with jobs := updFirst (fun j => j.id == id) f s.stride.jobs } }

/-- One piece of the window for a job: read already, poisoned, or asked for as a read of its partition with its bib. -/
def State.windowPiece (s : State) (j : Job) (a n : Nat) : Fetch × State :=
  match ((s.job j.id).getD j).win.find? fun w => w.addr == a && w.len == n with
  | some w =>
    match w.data with
    | none => (.wait, s)
    | some d => (if w.poison then .fail else .ready d, s)
  | none =>
    (.wait, (s.hostReq false j.port j.link (.fetch j.id a) { decodePart (s.windowLog2 j.port) a with bib := j.bib } n [] .atPort false
      false).modJob j.id fun x => { x with win := x.win ++ [⟨a, n, none, false⟩] })

/-- Bytes of the window from an offset, granule by granule (R39, R116). -/
def State.windowRead (s : State) (j : Job) (addr len : Nat) : Fetch × State :=
  (pieces 64 (len / 64 + 2) addr len).foldl (fun acc x =>
    let r := acc.2.windowPiece j x.1 x.2
    (acc.1.then r.1, r.2)) (.ready [], s)

/-- Bytes a job reads through one of its pointers; a range past the end of the window fails as a translation (DESIGN CHOICE, log entry
42). -/
def State.fetchJob (s : State) (j : Job) (addr len : Nat) : Fetch × State :=
  if j.logical then
    (if addr + len ≤ 2 ^ s.windowLog2 j.port then s.windowRead j addr len else (.fail, s))
  else s.fetchHost j.port j.link (.job j.id) addr len

/-! ### Jobs -/

/-- Legs leave with what they still had to read. -/
def State.dropLegs (s : State) (f : Leg → Bool) : State :=
  (s.stride.legs.filter f).foldl (fun s l => s.dropFlows l.id)
    { s with stride := { s.stride with legs := s.stride.legs.filter fun l => !f l } }

/-- The work items of a copy leave with what they still had to read or write. -/
def State.dropCopyItems (s : State) (id : Nat) : State :=
  (s.relay.items.filter fun i => i.job == some id).foldl (fun s i => (s.dropFlows i.id).dropItem i.id) s

/-- The reads of a job's pointers are forgotten. -/
def State.dropJobReads (s : State) (j : Job) : State :=
  (s.dropReads j.port j.link (.job j.id)).modJob j.id fun x => { x with win := [] }

/-- Legs, partials, work items and reads of a job end. -/
def State.dropJobWork (s : State) (j : Job) : State :=
  let s1 := ((s.dropJobReads j).dropLegs fun l => l.job == j.id).dropCopyItems j.id
  { s1 with stride := { s1.stride with partials := s1.stride.partials.filter fun x => x.1.1 != j.id } }

/-- The request serves this job. -/
def Req.ofJob (r : Req) (id : Nat) : Bool :=
  match r.src with
  | .job i _ => i == id
  | .fetch i _ => i == id
  | _ => false

/-- A job leaves the device with everything of it. -/
def State.dropJob (s : State) (j : Job) : State :=
  let s1 := s.dropJobWork j
  { s1 with
    stride := { s1.stride with jobs := s1.stride.jobs.filter fun x => x.id != j.id }
    reqs := s1.reqs.filter fun r => !r.ofJob j.id }

/-- The first fault: lowest list position or element, then lowest KV head, K before V (R98). -/
def firstFault (fs : List FaultRec) : FaultRec :=
  (bestBy (fun (a b : FaultRec) => decide (a.index < b.index) || (a.index == b.index && (decide (a.head < b.head) ||
    (a.head == b.head && decide (a.kv < b.kv))))) fs).getD ⟨0, 0, 0, 0, 0, 0⟩

/-- A completion record without DONE (Table 5.7). GATHER_ATTEND keeps faults by element: the record gives group and element. -/
def Job.record (j : Job) (status : Nat) : List Byte :=
  let masked := j.stride && status == 0 && j.faultCount != 0
  let f := if status = 1 ∨ j.faultCount ≠ 0 then firstFault j.faults else ⟨0, 0, 0, 0, 0, 0⟩
  let g := j.op == 2
  natLe 4 j.tag ++ natLe 1 j.op ++ natLe 1 status
    ++ natLe 2 (b2n (j.retries != 0) + 2 * b2n masked + 4 * b2n j.repaired) ++ natLe 8 j.result
    ++ natLe 8 (if g then f.index / 16 else f.index) ++ natLe 4 f.page ++ natLe 1 (if g then f.index % 16 else 0)
    ++ natLe 1 f.reason ++ natLe 1 f.head ++ natLe 1 f.kv ++ natLe 4 j.faultCount ++ natLe 4 j.retries
    ++ List.replicate 23 0

/-- The results of a job are fixed: they are written, then its record (R114). A status other than OK and FAULT shows no fault. The work
item of a copy ends. -/
def State.finish (s : State) (j : Job) (status result : Nat) (writes : List HostWrite) : State :=
  let keep := status ≤ 1
  let s1 := (s.dropCopyItems j.id).modJob j.id fun x => { x with
    phase := .writing status, result := result, writes := writes
    faults := if keep then x.faults else [], faultCount := if keep then x.faultCount else 0 }
  if j.stride then
    (if status = 1 then (s1.bump 0x1310 0x0B).bump 0x1310 0x0C else s1.bump 0x1310 0x0B)
  else s1

/-- A result cannot be written: the status becomes TRANSLATION (R116, section 5.13). -/
def State.cannotWrite (s : State) (j : Job) : State :=
  s.modJob j.id fun x => { x with phase := .writing 4, writes := [], result := 0, faults := [], faultCount := 0 }

/-- Results as writes within 4 KiB pages. -/
def resultWrites (addr : Nat) (data : List Byte) (relaxed : Bool) : List HostWrite :=
  (hostPieces addr data.length).map fun x => ⟨x.1, slice data (x.1 - addr) x.2, relaxed, false⟩

/-- Results under LOGICAL: granule writes through the partition's window (R39, R114). -/
def State.windowWrite (s : State) (j : Job) (addr : Nat) (data : List Byte) : State :=
  let ps := pieces 64 (data.length / 64 + 2) addr data.length
  let s1 := ps.foldl (fun s x =>
    s.hostReq true j.port j.link (.job j.id (x.1 - addr)) { decodePart (s.windowLog2 j.port) x.1 with bib := j.bib } x.2
      ((slice data (x.1 - addr) x.2).map some) .atPort false false) s
  s1.modJob j.id fun y => { y with itemsLeft := y.itemsLeft + ps.length }

/-- Results of a job go to host memory, or to the window under LOGICAL, where a range past its end fails as a translation (R116; DESIGN
CHOICE, log entry 42). -/
def State.deliver (s : State) (j : Job) (status result : Nat) (outs : List (Nat × List Byte)) : State :=
  if j.logical then
    (if outs.all fun x => decide (x.1 + x.2.length ≤ 2 ^ s.windowLog2 j.port) then
      outs.foldl (fun s x => s.windowWrite j x.1 x.2) (s.finish j status result [])
    else s.finish j 4 0 [])
  else s.finish j status result (outs.flatMap fun x => resultWrites x.1 x.2 j.relaxed)

/-- A queue stops: the completion record of a descriptor cannot be written, and the descriptor gets none (R116, Table 5.4). -/
def State.stopQueue (s : State) (j : Job) : State :=
  ((s.modQueue j.port j.q fun q => { q with enable := false, xlateStop := true }).raiseWith 1 false 0x0510 j.port
    (0x6000 + j.port) j.q 0xFFFFFFFF j.index).dropJob j

/-- Whether a write of a job may leave now: some true, yes; some false, its translation failed; none, it waits (asked for once). -/
def State.writeAccess (s : State) (j : Job) (addr len : Nat) : Option Bool × State :=
  let k := s.link j.port j.link
  if !s.mayIssue j.port j.link ∨ k.paused addr len then (none, s)
  else if !k.atsEn then (some true, s.wakeLink j.port j.link)
  else
    match k.lookupXlate addr len true with
    | some true => (some true, (s.wakeLink j.port j.link).modLink j.port j.link fun y => y.useXlate addr len)
    | some false => (some false, s)
    | none =>
      if j.asked.contains addr then (none, s)
      else (none, ((s.wakeLink j.port j.link).modJob j.id fun x => { x with asked := x.asked ++ [addr] }).emit
        (.atsRequest j.port j.link addr))

/-- A write leaves in pieces of at most Max Payload Size (R178). -/
def State.emitWrite (s : State) (p : Nat) (l : LinkId) (addr : Nat) (data : List Byte) (relaxed : Bool) : State :=
  let m := (s.link p l).maxPayload
  (pieces m (data.length / m + 2) addr data.length).foldl
    (fun s x => s.emit (.hostWrite p l x.1 (slice data (x.1 - addr) x.2) relaxed)) s

/-- COMPLETION is zero or misaligned: no record can be written (R116). -/
def Job.badCompletion (j : Job) : Bool := j.completion == 0 || j.completion % 64 != 0

/-- COMPLETION of a descriptor is translated as the T9 goes on to its queue's next one; when that fails the queue stops (R116, section
5.13; DEDUCED, log entry 28). -/
def State.checkCompletion (s : State) (j : Job) : State :=
  if j.badCompletion then s.stopQueue j
  else
    match s.writeAccess j j.completion 64 with
    | (none, s1) => s1
    | (some false, s1) => s1.stopQueue j
    | (some true, s1) => s1.modJob j.id fun x => { x with compOk := true }

/-- The completion record, then DONE, then MSI-X (R98, R180). -/
def State.writeRecord (s : State) (j : Job) (status : Nat) : State :=
  match s.writeAccess j j.completion 64 with
  | (none, s1) => s1
  | (some false, s1) => s1.stopQueue j
  | (some true, s1) =>
    let s2 := (s1.emit (.hostWrite j.port j.link j.completion (j.record status) false)).emit
      (.hostWrite j.port j.link (j.completion + 0x3F) [1] false)
    let s3 := if j.irq then s2.fire j.port j.link (s.queue j.port j.q).vector else s2
    s3.dropJob j

/-- Every result write gets its translation; the flag says that none has failed (R116). -/
def State.readyWrites (s : State) (j : Job) : Bool × State :=
  j.writes.foldl (fun acc w =>
    if w.ready then acc
    else
      match acc.2.writeAccess j w.addr w.data.length with
      | (some true, s1) => (acc.1, s1.modJob j.id fun x =>
          { x with writes := x.writes.map fun y => if y.addr = w.addr then { y with ready := true } else y })
      | (some false, s1) => (false, s1)
      | (none, s1) => (acc.1, s1)) (true, s)

/-- The result writes leave once all of them have their translations; a failed one gives status TRANSLATION and no result (R116). -/
def State.writeResults (s : State) (j : Job) : State :=
  match s.readyWrites j with
  | (false, s1) => s1.cannotWrite j
  | (true, s1) =>
    match s1.job j.id with
    | none => s1
    | some k =>
      if k.writes.all (·.ready) ∧ s1.mayIssue j.port j.link then
        k.writes.foldl (fun s w => s.emitWrite j.port j.link w.addr w.data w.relaxed) (s1.modJob j.id fun x => { x with writes := [] })
      else s1

/-- Translations of a range that results have obtained are obtained again (R117). -/
def State.unready (s : State) (p : Nat) (l : LinkId) (addr size : Nat) : State :=
  let clear := fun (w : HostWrite) => if w.addr < addr + size ∧ addr < w.addr + w.data.length then { w with ready := false } else w
  let job := fun (j : Job) => if j.port = p ∧ j.link = l then { j with writes := j.writes.map clear } else j
  { s with stride := { s.stride with jobs := s.stride.jobs.map job } }

/-- A job in its writing phase goes on. -/
def State.writeOut (s : State) (id : Nat) : State :=
  match s.job id with
  | none => s
  | some j0 =>
    let s1 := s.writeResults j0
    match s1.job id with
    | none => s1
    | some j =>
      match j.phase with
      | .writing status => if j.writes.isEmpty ∧ j.itemsLeft = 0 then s1.writeRecord j status else s1
      | _ => s1

end Sys2Proof.Machine
end

