-- ==== Sys2Proof/Machine/LegOps.lean ====
section
/-! DEFINITION. Stride jobs: page lists, legs, faults and results (R92, R93, R99-R110, R118, R119). -/

namespace Sys2Proof.Machine

/-! ### Operands of a stride job -/

/-- Bytes of one token of one head (R100). -/
def Job.tokenBytes (j : Job) : Nat := kvBytes j.kvFormat j.dim

/-- Query heads that share a KV head (R101). -/
def Job.group (j : Job) : Nat := j.qHeads / j.kvHeads

/-- The score factor c of R102. -/
def Job.scoreScale (j : Job) : Num :=
  mul32 (mul32 (ofF32 (field j.desc 0x48 4)) (ofF32 (field j.desc 0x4C 4))) (ofF32 (field j.desc 0x50 4))

def Job.vScale (j : Job) : Num := ofF32 (field j.desc 0x54 4)

/-- The query vector of a query head. -/
def Job.queryVec (j : Job) (i : Nat) : List Num :=
  let n := kvBytes j.qFormat j.dim
  kvVec j.qFormat (slice (mget j.got [] 0) (i * n) n)

/-- Window page of list position i (counted from p0), K or V, of a KV head (R100). -/
def Job.listPage (j : Job) (head i kv : Nat) : Nat := nth j.entries 0 (2 * (head * j.positions + i) + kv)

/-- Token index of element e of a GATHER_ATTEND (section 5.7). -/
def Job.tokenOf (j : Job) (e : Nat) : Nat := nth j.tokens 0 (e - j.from_)

/-- List position that a leg's unit lies on: the unit itself, or the page of the element's token. -/
def Job.unitPos (j : Job) (u : Nat) : Nat := if j.op = 1 then u else j.tokenOf u / j.tpp

/-- First token and token count of a unit: the attended tokens of a position (R102), or one element. -/
def Job.unitTokens (j : Job) (u : Nat) : Nat × Nat :=
  if j.op = 1 then
    let p := j.p0 + u
    let lo := max j.firstToken (p * j.tpp)
    (lo, min j.tokenCount ((p + 1) * j.tpp) - lo)
  else (j.tokenOf u, 1)

/-! ### Legs -/

/-- Legs of one KV head as (number, first unit, units): 16 positions each, or 16 groups from the group of the first element
(R92, R109). -/
def Job.cuts (j : Job) : List (Nat × Nat × Nat) :=
  if j.op = 1 then
    (upto (ceilDiv j.positions 16)).map fun i => (i, 16 * i, min 16 (j.positions - 16 * i))
  else
    let g0 := j.from_ / 16
    (upto (ceilDiv (ceilDiv j.elements 16 - g0) 16)).map fun i =>
      let lo := max j.from_ (16 * (g0 + 16 * i))
      (i, lo, min j.elements (16 * (g0 + 16 * (i + 1))) - lo)

/-- A leg joins the waiting legs. -/
def State.addLeg (s : State) (j : Job) (head : Nat) (c : Nat × Nat × Nat) : State :=
  let l : Leg := {
    id := s.nextId, job := j.id, bib := j.bib, port := j.port, head := head, num := c.1, lo := c.2.1, count := c.2.2,
    engine := none, home := 0, readyAt := s.now, nearExpired := false, runs := 0, next := 2 * c.2.1, ks := [], vs := [],
    faults := [], pins := [], reads := [], sampled := false, done := false, held := false }
  { s.newId with stride := { s.stride with legs := s.stride.legs ++ [l] } }

/-- The job is cut into legs (R92). -/
def State.cutLegs (s : State) (j : Job) : State :=
  (upto j.kvHeads).foldl (fun s h => j.cuts.foldl (fun s c => s.addLeg j h c) s) s

def State.leg (s : State) (id : Nat) : Option Leg := s.stride.legs.find? fun l => l.id == id

def State.modLeg (s : State) (id : Nat) (f : Leg → Leg) : State :=
  { s with stride := { s.stride with legs := updFirst (fun l => l.id == id) f s.stride.legs } }

/-- Legs of a job. -/
def State.legsOf (s : State) (j : Job) : List Leg := s.stride.legs.filter fun l => l.job == j.id

/-- Faults of a job found so far, each once (R105, R108). -/
def State.faultsOf (s : State) (j : Job) : List FaultRec := (j.faults ++ (s.legsOf j).flatMap (·.faults)).eraseDups

/-- A fault that stops the job: any without MASK_ON_FAULT, and ENGINE with it (R105, R108, R119). -/
def State.stopping (s : State) (j : Job) : List FaultRec := (s.faultsOf j).filter fun f => !j.maskOnFault || f.reason == 7

/-- E: the lowest element that stops a GATHER_ATTEND, or its end (R108). -/
def State.stopAt (s : State) (j : Job) : Nat := ((s.stopping j).map (·.index)).foldl min j.elements

/-- A leg of the job need not run: an ATTEND has stopped, or the leg lies wholly above E (R105, R108). -/
def State.legMoot (s : State) (j : Job) (l : Leg) : Bool :=
  if j.op = 1 then !(s.stopping j).isEmpty else decide (s.stopAt j < l.lo)

/-- The jobs of a port stand still: it is frozen, or a link of it is in D3hot (R121, R184). -/
def State.halted (s : State) (p : Nat) : Bool := (s.port p).frozen || (s.port p).a.dstate != 0 || (s.port p).b.dstate != 0

/-- Stride engines of the part that are not fenced (R119). -/
def State.strideAlive (s : State) : Bool := s.hasStride && s.stride.engines.any fun g => !g.fenced

/-! ### Dispatch (R93, R132) -/

/-- Home stack of a leg's first K page, as looked up at dispatch; an unmapped page has none, and the quadrant beside the port is
taken (DEDUCED, log entry 26). -/
def State.legHome (s : State) (j : Job) (l : Leg) : Nat :=
  match s.pageAt j.port (j.listPage l.head (j.unitPos l.lo) 0) with
  | some lpn =>
    let e := s.view lpn
    if e.st = 0 then s.homeFor lpn else e.home
  | none => 2 * j.port

/-- The engine of a quadrant with the most free leg slots, ties to the lowest number. -/
def State.freest (s : State) (q : Nat) : Option Nat :=
  ((upto 4).map (4 * q + ·)).foldl (fun b e =>
    if (s.strideEng e).fenced ∨ (s.strideEng e).drained ∨ 64 ≤ s.legsOn e then b
    else match b with
      | none => some e
      | some x => some (if s.legsOn e < s.legsOn x then e else x)) none

/-- The engine for a leg: the home quadrant, or once LEG_NEAR_WAIT is over the nearest with a free slot. -/
def State.legEngine (s : State) (home : Nat) (l : Leg) : Option Nat :=
  match s.freest (home / 2) with
  | some e => some e
  | none => if l.nearExpired then (quadrantOrder (home / 2)).findSome? s.freest else none

/-- Legs of a bib that engines hold. -/
def State.bibLegs (s : State) (b : Nat) : Nat :=
  (s.stride.legs.filter fun l => l.engine.isSome && !l.done && l.bib == b).length

/-- Whether leg a is dispatched before leg b: level, descriptor age, leg number (R93). -/
def State.legBefore (s : State) (a b : Leg) : Bool :=
  let la := s.level a.bib (some a.port)
  let lb := s.level b.bib (some b.port)
  decide (lb < la) || (la == lb && (decide (a.job < b.job) || (a.job == b.job &&
    (decide (a.num < b.num) || (a.num == b.num && decide (a.head < b.head))))))

/-- A leg that may be dispatched now. -/
def State.legReady (s : State) (l : Leg) : Bool :=
  l.engine.isNone && !l.done && (match s.job l.job with
    | some j => j.phase == .running && !s.halted j.port && !s.legMoot j l
    | none => false)

/-- The first leg in order that an engine can take is dispatched. -/
def State.dispatchFirst (s : State) : (fuel : Nat) → List Leg → State
  | 0, _ => s
  | f + 1, cands =>
    match bestBy s.legBefore cands with
    | none => s
    | some l =>
      let rest := cands.filter fun x => x.id != l.id
      if s.num (0x7010 + l.bib) 7 ≤ s.bibLegs l.bib then
        let s1 := if l.held then s else (s.bump (0x7040 + l.bib) 8).modLeg l.id fun x => { x with held := true }
        s1.dispatchFirst f rest
      else
        match s.job l.job with
        | none => s.dispatchFirst f rest
        | some j =>
          let home := s.legHome j l
          match s.legEngine home l with
          | none => s.dispatchFirst f rest
          | some e => s.modLeg l.id fun x => { x with engine := some e, home := home }

/-- LEG_DISPATCH: at most 1024 legs are held in the device. -/
def State.dispatchLeg (s : State) : State :=
  if 1024 ≤ s.legsInFlight then s
  else
    let cands := s.stride.legs.filter s.legReady
    s.dispatchFirst cands.length cands

/-! ### A leg reaches a page (R104, R105) -/

/-- Fault reason of a page for a job, in the order of Table 5.9 (DEDUCED, log entry 27). -/
def State.pageFault (s : State) (j : Job) (wpage : Nat) : Option Nat :=
  match s.pageAt j.port wpage with
  | none => some 1
  | some lpn =>
    let e := s.view lpn
    if e.owner ≠ j.port then some 2
    else if e.st = 8 then some 3
    else if s.isVault lpn then some 4
    else if s.element lpn ≠ (if j.kvFormat = 0x10 then 0 else j.kvFormat) then some 6
    else none

/-- Bytes of one block of a page for a leg: none is poison. The flag says the block was served from its other copy. -/
def State.legBlock (s : State) (lpn off n : Nat) : Option (List Byte) × Bool × State :=
  let b := off / 2048
  let e := s.view lpn
  if e.st = 8 then (none, false, s)
  else if e.st = 0 ∨ e.code b = 0 then (some (List.replicate n 0), false, s)
  else
    let stored := if e.inSprint then s.sprintBlock e b else s.distBlock e b
    match s.blockFails lpn e b stored with
    | none => (some (slice (s.plain lpn e b stored) (off % 2048) n), false, s)
    | some c =>
      match s.checkFail lpn b (!e.inSprint) c with
      | (some good, s1) => (some (slice (s1.plain lpn e b good) (off % 2048) n), true, s1)
      | (none, s1) => (none, false, s1)

/-- The blocks a span of a page lies in: (offset, length) of each piece. -/
def spanPieces (off n : Nat) : List (Nat × Nat) := pieces 2048 (n / 2048 + 2) off n

/-- Bytes of a span of a page for a leg, block by block. -/
def State.legSpan (s : State) (lpn off n : Nat) : Option (List Byte) × Bool × State :=
  (spanPieces off n).foldl (fun acc x =>
    match acc with
    | (none, r, s) => (none, r, s)
    | (some bs, r, s) =>
      match s.legBlock lpn x.1 x.2 with
      | (some d, r2, s2) => (some (bs ++ d), r || r2, s2)
      | (none, r2, s2) => (none, r || r2, s2)) (some [], false, s)

/-- The granules a leg reads of one piece of a page: all of a coded block, else those its tokens lie in (R17, R104). -/
def State.legFlow (s : State) (l : Leg) (lpn : Nat) (x : Nat × Nat) : State :=
  let e := s.view lpn
  let b := x.1 / 2048
  let c := e.code b
  if e.st = 0 ∨ e.st = 8 ∨ c = 0 then s
  else
    let first := if isCoded c then 0 else coverFirst (x.1 % 2048)
    let n := if isCoded c then c else coverCount (x.1 % 2048) x.2
    if e.inSprint then s.addFlow (.work l.id lpn b) e.sprintUnit false (e.sprintGranule b + first) n (some l.bib) (some l.port)
    else s.addFlow (.work l.id lpn b) (.dist e.channel) false (e.distGranule b + first) n (some l.bib) (some l.port)

/-- A leg's unit gets its bytes, or none for a fault, and the leg moves on to the next page. -/
def Leg.take (l : Leg) (data : Option (List Byte)) (fault : List FaultRec) (pin : List (Nat × Nat)) (reads : List (Nat × Nat × Nat)) :
    Leg :=
  let u := l.next / 2
  let l1 := { l with next := l.next + 1, faults := l.faults ++ fault, pins := l.pins ++ pin, reads := l.reads ++ reads }
  if l.next % 2 = 0 then { l1 with ks := l1.ks ++ [(u, data)] } else { l1 with vs := l1.vs ++ [(u, data)] }

/-- The fault record of a unit: index is the list position of R100, or the element. -/
def Job.faultAt (j : Job) (l : Leg) (u kv reason wpage : Nat) : FaultRec :=
  ⟨if j.op = 1 then j.p0 + u else u, wpage, 0, reason, l.head, kv⟩

/-- The leg reads the page it has reached, or faults: the codebook version is pinned when a coded block is read (R62), and the granules
wait for their queues (R104). -/
def State.legPage (s : State) (j : Job) (l : Leg) : State :=
  let u := l.next / 2
  let kv := l.next % 2
  if j.op ≠ 1 ∧ j.tokenCount ≤ j.tokenOf u then s.modLeg l.id fun x => x.take none [j.faultAt l u kv 5 0] [] []
  else
    let wp := j.listPage l.head (j.unitPos u) kv
    match s.pageFault j wp, s.pageAt j.port wp with
    | none, some lpn =>
      let t := j.unitTokens u
      let off := t.1 % j.tpp * j.tokenBytes
      let n := t.2 * j.tokenBytes
      let e := s.view lpn
      let s1 := s.touchUse lpn false j.bib
      let s2 := if e.inSprint ∨ e.st = 0 then s1 else
        s1.setUse lpn { s1.use lpn with bypasses := (s1.use lpn).bypasses + 1 }
      let s3 := (spanPieces off n).foldl (fun s x => s.legFlow l lpn x) s2
      let coded := (spanPieces off n).any fun x => isCoded (e.code (x.1 / 2048))
      let pin := (lpn, if coded then s.region lpn * 16 + e.cbv else 0xFFFF)
      let reads := (spanPieces off n).map fun x => (l.next, lpn, x.1 / 2048)
      match s3.legSpan lpn off n with
      | (some d, rep, s4) =>
        (s4.modLeg l.id fun x => x.take (some d) [] [pin] reads).modJob j.id fun x => { x with repaired := x.repaired || rep }
      | (none, _, s4) => s4.modLeg l.id fun x => x.take none [j.faultAt l u kv 3 wp] [pin] reads
    | some r, _ => s.modLeg l.id fun x => x.take none [j.faultAt l u kv r wp] [] []
    | none, none => s

/-- A unit of a leg loses the data of one page it reached: fault POISONED (Table 5.9). -/
def Leg.lose (l : Leg) (j : Job) (n : Nat) : Leg :=
  let u := n / 2
  let wp := j.listPage l.head (j.unitPos u) (n % 2)
  let gone := fun (x : Nat × Option (List Byte)) => if x.1 = u then (u, none) else x
  { l with
    ks := if n % 2 = 0 then l.ks.map gone else l.ks
    vs := if n % 2 = 1 then l.vs.map gone else l.vs
    faults := if l.faults.contains (j.faultAt l u (n % 2) 3 wp) then l.faults else l.faults ++ [j.faultAt l u (n % 2) 3 wp] }

/-- A block that a leg has read is lost: every page it reached there faults. -/
def State.legFault (s : State) (l : Leg) (lpn b : Nat) : State :=
  match s.job l.job with
  | none => s
  | some j => s.modLeg l.id fun x => ((x.reads.filter fun r => r.2 == (lpn, b)).map (·.1)).foldl (fun x n => x.lose j n) x

/-- A leg reads a block again from the copy its page has now, or faults when the page is lost. -/
def State.legAgain (s : State) (l : Leg) (lpn b : Nat) : State :=
  let e := s.view lpn
  if e.st = 8 then s.legFault l lpn b
  else if e.st = 0 then s
  else s.blockFlows l.id lpn (!e.inSprint) false e [b] (some l.bib) (some l.port)

/-- A granule that a leg reads came back uncorrectable: the block is served from its other copy, with REPAIRED, or its page is lost
(R57, R152); a copy that the page has left raises the event, and the block is read again. -/
def State.legBad (s : State) (id lpn b : Nat) (dist : Bool) : State :=
  match s.leg id with
  | none => s
  | some l =>
    let e := s.view lpn
    if (dist && !e.inDist) || (!dist && !e.inSprint) then
      (s.checkEvent 1 lpn b (e.tierUnit dist) 0).legAgain l lpn b
    else
      match s.checkFail lpn b dist 0 with
      | (some _, s1) => s1.modJob l.job fun x => { x with repaired := true }
      | (none, s1) => s1.legFault l lpn b

/-- The queue that held a leg's read is gone with its unit. -/
def State.legLost (s : State) (id lpn b : Nat) : State :=
  match s.leg id with
  | none => s
  | some l => s.legAgain l lpn b

/-- The leg has reached every page it needs. -/
def Leg.allRead (l : Leg) : Bool := decide (2 * (l.lo + l.count) ≤ l.next)

/-! ### Partials and results (R102, R103, R107-R110) -/

/-- Consecutive items of one key put together. -/
def groupRuns {α : Type} : List (Nat × α) → List (List α)
  | [] => []
  | (k, x) :: r =>
    match r, groupRuns r with
    | (k2, _) :: _, g :: gs => if k = k2 then (x :: g) :: gs else [x] :: g :: gs
    | _, gs => [x] :: gs

/-- Tokens of one unit of a leg, each with the key of its block: block of the page, or group of elements. -/
def Job.unitList (j : Job) (l : Leg) (masked : Nat → Bool) (u : Nat) : List (Nat × Token) :=
  let t := j.unitTokens u
  let n := j.tokenBytes
  let kd := mget l.ks none u
  let vd := mget l.vs none u
  (upto t.2).map fun i =>
    let key := if j.op = 1 then (t.1 + i) / (j.tpp / 32) else u / 16
    match kd, vd with
    | some k, some v =>
      if masked u then (key, ⟨true, [], []⟩)
      else (key, ⟨false, kvVec j.kvFormat (slice k (i * n) n), kvVec j.kvFormat (slice v (i * n) n)⟩)
    | _, _ => (key, ⟨true, [], []⟩)

/-- The partials of a leg, one per query head of its KV head. -/
def Job.legPartials (j : Job) (l : Leg) (masked : Nat → Bool) : List Partial :=
  let toks := groupRuns ((upto l.count).flatMap fun i => j.unitList l masked (l.lo + i))
  (upto j.group).map fun g => legPartial j.scoreScale (j.queryVec (l.head * j.group + g)) toks

/-- Key of a leg's partials in the finish unit. -/
def Leg.key (l : Leg) : Nat × Nat × Nat := (l.job, l.head, l.num)

/-- The partials the roots are made of: the finish unit's store; a GATHER_ATTEND with faults leaves out faulting elements for every
head, and everything from E on (R107, R108, R110). -/
def State.partialsFor (s : State) (j : Job) (head : Nat) : List (List Partial) :=
  let ls := (s.legsOf j).filter fun l => l.head == head && l.done
  if j.op = 1 ∨ (s.faultsOf j).isEmpty then
    ls.map fun l => ((s.stride.partials.find? fun x => x.1 == l.key).map (·.2)).getD []
  else
    let stop := s.stopAt j
    let bad := (s.faultsOf j).map (·.index)
    (ls.filter fun l => decide (l.lo < stop)).map fun l => j.legPartials l fun u => decide (stop ≤ u) || bad.contains u

/-- The root of each query head; a resumed job merges the record's state with it (R103, R109). -/
def State.roots (s : State) (j : Job) : List Partial :=
  (upto j.qHeads).map fun i =>
    let ps := (s.partialsFor j (i / j.group)).map fun x => nth x (Partial.empty j.dim) (i % j.group)
    if j.resume then
      let n := 8 + 4 * j.dim
      let st := stateOf j.dim (slice (mget j.got [] 1) (0x40 + i * n) n)
      if ps.isEmpty then st else st.merge (rootOf j.dim ps)
    else rootOf j.dim ps

/-- Results of the roots: outputs, and LSE when it is asked for (Table 5.12). -/
def Job.outputs (j : Job) (rs : List Partial) : List (Nat × List Byte) :=
  (j.output, rs.flatMap fun r => outBytes j.outFormat (headOut j.vScale r))
    :: (if j.lse = 0 then [] else [(j.lse, rs.flatMap fun r => natLe 4 (toF32 (headLse r)))])

/-- A stride job whose legs have ended: results, a fault, or a fault with its resume record (R103, R105, R108, R110). FAULT_COUNT of a
GATHER_ATTEND that stops counts every fault found (DESIGN CHOICE, log entry 71). -/
def State.closeStride (s : State) (j0 : Job) : State :=
  let fs := s.faultsOf j0
  let stop := s.stopping j0
  let count := if j0.op = 1 ∨ !stop.isEmpty then fs.length else (fs.map (·.index)).eraseDups.length
  let j := { j0 with faults := if stop.isEmpty then fs else stop, faultCount := count }
  let s1 := s.modJob j.id fun _ => j
  if stop.isEmpty then
    s1.deliver j 0 (if j.op = 1 then j.tokenCount - j.firstToken else j.elements) (j.outputs (s.roots j0))
  else if j.op = 1 then s1.finish j 1 0 []
  else
    let e := s.stopAt j0
    if j.resumePtr = 0 then s1.finish j 1 e []
    else s1.deliver j 1 e [(j.resumePtr, resumeRecord e j.dimLog2 j.qHeads (s.roots j0))]

/-- Legs that need not run are dropped, waiting ones and those of a GATHER_ATTEND wholly above E, with the faults they found; the job
closes when the others have ended (R103, R105, R108, R119). -/
def State.checkStride (s : State) (j : Job) : State :=
  let moot := fun (l : Leg) => l.job == j.id && !l.done && (l.engine.isNone || j.op != 1) && s.legMoot j l
  let fs := (s.stride.legs.filter moot).flatMap (·.faults)
  let s1 := (s.dropLegs moot).modJob j.id fun x => { x with faults := x.faults ++ fs }
  let open_ := (s1.legsOf j).filter fun l => !l.done
  if open_.isEmpty then s1.closeStride ((s1.job j.id).getD j)
  else if !s.strideAlive ∧ open_.all (fun l => l.engine.isNone) then s1.finish j 7 0 []
  else s1

/-- LEG_COMPLETE: the partials reach the finish unit, and the leg gives its one sample (R103, R127; log entry 68). -/
def State.legDone (s : State) (j : Job) (l : Leg) : State :=
  let ps := j.legPartials l fun _ => false
  let s1 := s.modLeg l.id fun x => { x with done := true, sampled := true }
  let s2 := { s1 with stride := { s1.stride with partials := s1.stride.partials ++ [(l.key, ps)] } }
  if l.sampled then s2 else s2.sample l.bib l.port true (s.now - l.readyAt)

/-- A leg starts over: its run's data, faults and partial are discarded, and it waits again (R118). -/
def Leg.rerun (l : Leg) : Leg :=
  { l with engine := none, nearExpired := false, runs := l.runs + 1, next := 2 * l.lo, ks := [], vs := [], faults := [], pins := [],
           reads := [], done := false }

/-- A failed run of a leg, its faults discarded with it: it runs again, or faults with reason ENGINE at LEG_RETRY_LIMIT; a job that has
stopped or stands still starts no further run (R105, R118, R119, R121). -/
def State.legFailed (s : State) (l : Leg) : State :=
  match s.job l.job with
  | none => s
  | some j =>
    let s1 := (s.dropFlows l.id).modLeg l.id Leg.rerun
    if s1.legMoot j l ∨ s.halted j.port then s1.dropLegs fun x => x.id == l.id
    else if s.num 0x6000 2 ≤ l.runs + 1 then
      let f := j.faultAt l l.lo 0 7 (j.listPage l.head (j.unitPos l.lo) 0)
      (s1.dropLegs fun x => x.id == l.id).modJob j.id fun x => { x with faults := x.faults ++ [f] }
    else (s1.bump 0x6000 6).modJob j.id fun x => { x with retries := x.retries + 1 }

/-- A stride engine is fenced with event 0x0520 and its legs run again (R118, R278). -/
def State.fenceStride (s : State) (e : Nat) : State :=
  let s1 := (s.dropInject (unitStride e)).modStride e fun g => g.fence s.now
  let s2 := s1.raise 0x0520 (unitStride e) 0 (b2n (s1.strideEng e).permanent)
  (s.stride.legs.filter fun l => l.engine == some e && !l.done).foldl State.legFailed s2

/-- A parity error in the store of one KV head's partials: they are discarded and every leg of that head runs again (R273). -/
def State.finishParity (s : State) (j : Job) (head : Nat) : State :=
  let ls := (s.legsOf j).filter fun l => l.head == head && l.done
  let s1 := { s with stride := { s.stride with
    partials := s.stride.partials.filter fun x => !(x.1.1 == j.id && x.1.2.1 == head) } }
  ls.foldl (fun s l => ((s.bump 0x6000 6).modJob j.id fun x => { x with retries := x.retries + 1 }).modLeg l.id
    fun x => { x.rerun with runs := x.runs }) s1

/-! ### Preparing a stride job -/

/-- The end of a page-list walk. -/
inductive Walk where
  | done (entries : List Nat)
  | wait
  | malformed
  | failed
  deriving DecidableEq, Repr

/-- Pages of the first n entries of a node, K then V (Table 5.11). -/
def nodePages (node : List Byte) (n : Nat) : List Nat :=
  (upto n).flatMap fun i => [field node (16 + 8 * i) 4, field node (20 + 8 * i) 4]

/-- The page list read node by node (R99, R100); each node holds at least one entry. Every entry of the count is one the job needs, and
a non-zero Reserved word is FORMAT as in a descriptor (DESIGN CHOICE, log entries 72 and 73). -/
def State.walk (s : State) (j : Job) : (fuel addr need : Nat) → List Nat → Walk × State
  | _, _, 0, es => (.done es, s)
  | 0, _, _, _ => (.malformed, s)
  | f + 1, addr, need + 1, es =>
    if addr = 0 ∧ !es.isEmpty then (.malformed, s)
    else
      match s.fetchJob j addr 4096 with
      | (.wait, s1) => (.wait, s1)
      | (.fail, s1) => (.failed, s1)
      | (.ready node, s1) =>
        let count := field node 8 4
        let new := nodePages node (min count (need + 1))
        if field node 12 4 ≠ 0 ∨ field node 0 8 % 4096 ≠ 0 ∨ count = 0 ∨ 510 < count ∨ new.any (s.windowPages j.port ≤ ·) then
          (.malformed, s1)
        else s1.walk j f (field node 0 8) (need + 1 - count) (es ++ new)

/-- Entries of the page list (R100). -/
def Job.listEntries (j : Job) : Nat := j.kvHeads * j.positions

/-- Token indices of the elements from the first one on. -/
def indices (bs : List Byte) (n : Nat) : List Nat := (upto n).map fun i => field bs (8 * i) 8

/-- A pointer is read: its bytes go on to k; a failed translation ends the job (R116). -/
def State.need (s : State) (j : Job) (addr len : Nat) (k : List Byte → State → State) : State :=
  match s.fetchJob j addr len with
  | (.ready d, s1) => k d s1
  | (.wait, s1) => s1
  | (.fail, s1) => s1.finish j 4 0 []

/-- Everything is read: the job is cut into legs. -/
def State.startLegs (s : State) (j : Job) (query record : List Byte) (from_ : Nat) (tokens entries : List Nat) : State :=
  let j1 := { j with phase := .running, got := [(0, query), (1, record)], entries := entries, tokens := tokens, from_ := from_ }
  ((s.modJob j.id fun _ => j1).dropJobReads j1).cutLegs j1

/-- Queries and page list (R100, R101). -/
def State.prepList (s : State) (j : Job) (record : List Byte) (from_ : Nat) (tokens : List Nat) : State :=
  s.need j j.query (j.qHeads * kvBytes j.qFormat j.dim) fun q s1 =>
    match s1.walk j j.listEntries j.pageList j.listEntries [] with
    | (.done es, s2) => s2.startLegs j q record from_ tokens es
    | (.wait, s2) => s2
    | (.malformed, s2) => s2.finish j 3 0 []
    | (.failed, s2) => s2.finish j 4 0 []

/-- Token indices of a GATHER_ATTEND from an element on (section 5.7). -/
def State.prepIndex (s : State) (j : Job) (record : List Byte) (from_ : Nat) : State :=
  let n := j.elements - from_
  s.need j (j.indexPtr + 8 * from_) (8 * n) fun d s1 => s1.prepList j record from_ (indices d n)

/-- The resume record of a RESUME descriptor is read and checked (R109). -/
def State.prepResume (s : State) (j : Job) : State :=
  s.need j j.resumePtr (0x40 + j.qHeads * (8 + 4 * j.dim)) fun r s1 =>
    if resumeOk j.dimLog2 j.qHeads j.elements r then s1.prepIndex j r (field r 0 8) else s1.finish j 3 0 []

/-- A stride job reads what it needs; with every engine fenced it completes with status STATE (R119), and an ATTEND of no token
reads no page (R103). -/
def State.prepStride (s : State) (j : Job) : State :=
  if !s.strideAlive then s.finish j 7 0 []
  else if j.op = 1 then
    (if j.firstToken = j.tokenCount then s.deliver j 0 0 (j.outputs (List.replicate j.qHeads (Partial.empty j.dim)))
     else s.prepList j [] 0 [])
  else if j.resume then s.prepResume j
  else s.prepIndex j [] 0

end Sys2Proof.Machine
end

