-- ==== Sys2Proof/Machine/JobOps.lean ====
section
/-! DEFINITION. Work queues, doorbells and the other opcodes: seals, prefetches, copies, baton passes, builds and fences
(R42-R44, R67, R94-R97, R111-R115, R118, R120), and how everything that waits goes on after a command. -/

namespace Sys2Proof.Machine

/-! ### Queues and doorbells (R94, R113) -/

/-- Descriptors of a queue in progress (IN_PROGRESS). -/
def State.queueJobs (s : State) (p q : Nat) : List Job := s.stride.jobs.filter fun j => j.port == p && j.q == q

/-- A doorbell reaches its queue: ignored, with TAIL_ERROR, when the queue is disabled or the value is out of reach (R94). -/
def State.setTail (s : State) (p q value : Nat) : State :=
  let k := s.queue p q
  if !k.enable ∨ 2 ^ k.size < (value + 2 ^ 32 - k.head) % 2 ^ 32 then s.modQueue p q fun x => { x with tailError := true }
  else s.modQueue p q fun x => { x with tail := value }

/-- The request is a granule of a BAR2 transfer. -/
def Req.isBar2 (r : Req) : Bool :=
  match r.src with
  | .bar2 _ _ => true
  | _ => false

/-- A BAR2 write of the port older than a bound is still on its way, relaxed ones apart (R113). -/
def State.bellHeld (s : State) (p bound : Nat) : Bool :=
  s.reqs.any fun x => decide (x.id < bound) && x.write && !x.relaxed && x.port == p && x.isBar2

/-- Doorbells of a port whose writes have become visible reach their queues, in order. -/
def State.ringBells (s : State) (p : Nat) : State :=
  (s.port p).bells.foldl (fun s x =>
    if s.bellHeld p x.2.2.2 then s
    else (s.setTail p x.2.1 x.2.2.1).modPort p fun y => { y with bells := y.bells.filter (· != x) }) s

/-- A doorbell write arrives (R94, R113). -/
def State.doorbell (s : State) (p : Nat) (l : LinkId) (q value : Nat) : State :=
  if s.bellHeld p s.nextId then s.modPort p fun y => { y with bells := y.bells ++ [(l, q, value, s.nextId)] }
  else s.setTail p q value

/-! ### Reading descriptors (R95, R97) -/

/-- The host address of ring slot QHEAD. -/
def Queue.slot (k : Queue) : Nat := k.base + k.head % 2 ^ k.size * 128

/-- A queue may copy its next descriptor: fewer than 64 of its own and 256 of its port are in progress (R95), and COMPLETION of every
earlier one is translated (section 5.13; DEDUCED, log entry 28). -/
def State.ringOpen (s : State) (p q : Nat) : Bool :=
  let k := s.queue p q
  k.enable && k.head != k.tail && decide ((s.queueJobs p q).length < 64) && decide ((s.portJobs p).length < 256)
    && (s.queueJobs p q).all (·.compOk)

/-- DESCRIPTOR_READ: the next descriptor is asked for while the limits allow it; one read of a queue is under way at a time. -/
def State.readRing (s : State) (p q : Nat) : State :=
  let l := s.queueLink p q
  let k := s.queue p q
  if s.ringOpen p q ∧ s.mayIssue p l ∧ !s.pausing ∧ !((s.link p l).dma.any fun d => d.owner == .ring q) then
    (s.fetchHost p l (.ring q) k.slot 128).2
  else s

/-- A new descriptor: without its capability it is UNSUPPORTED, malformed it is FORMAT, else it waits for its start (R8, R97). -/
def State.newJob (s : State) (p q : Nat) (desc : List Byte) : State :=
  let l := s.queueLink p q
  let k := s.queue p q
  let j : Job := {
    id := s.nextId, port := p, link := l, q := q, index := k.head, desc := desc, phase := .fetch, readAt := s.now, got := [],
    entries := [], tokens := [], itemsLeft := 0, asked := [], from_ := 0, pagesDone := 0, faults := [], faultCount := 0,
    retries := 0, repaired := false, result := 0, writes := [], win := [], compOk := false }
  let s1 := s.newId.modQueue p q fun x => { x with head := (x.head + 1) % 2 ^ 32 }
  let s2 := { s1 with stride := { s1.stride with jobs := s1.stride.jobs ++ [j] } }
  if j.stride ∧ !s.hasStride then s2.finish j 2 0 []
  else if !formatOk k.bibMask (s.windowPages p) j then s2.finish j 3 0 []
  else s2

/-- The descriptor read of a queue has ended: the T9 copies the descriptor once the limits allow it; a failed read leaves QHEAD and
ENABLE as they are, and the next DESCRIPTOR_READ tries again (DESIGN CHOICE, log entry 28). -/
def State.takeRing (s : State) (p q : Nat) : State :=
  let l := s.queueLink p q
  match (s.link p l).dma.find? fun d => d.owner == .ring q with
  | none => s
  | some d =>
    match d.phase with
    | .done bs =>
      if s.ringOpen p q then (s.dropReads p l (.ring q)).newJob p q bs else s
    | .failed => s.dropReads p l (.ring q)
    | _ => s

/-! ### Starting (R95, R115) -/

/-- An earlier FENCE whose scope takes the job in has not completed. -/
def State.fencedOff (s : State) (j : Job) : Bool :=
  s.stride.jobs.any fun f => decide (f.id < j.id) && f.op == 0x3F && f.port == j.port && (f.scope == 1 || f.q == j.q)
    && (match f.phase with
      | .writing st => st == 0
      | _ => true)

/-- An earlier descriptor of the queue has not started. -/
def State.queuedBefore (s : State) (j : Job) : Bool :=
  (s.queueJobs j.port j.q).any fun x => decide (x.id < j.id) && x.phase == .fetch

/-- The descriptor may start now. -/
def State.startable (s : State) (j : Job) : Bool :=
  j.phase == .fetch && j.compOk && !s.fencedOff j && !s.queuedBefore j && !s.halted j.port && s.inGo

/-! ### SEAL and PREFETCH (Table 5.17) -/

/-- Reason of a named page that is unmapped or not owned, none when it can be used. -/
def State.pageBar (s : State) (p wpage : Nat) : Option Nat :=
  match s.pageAt p wpage with
  | none => some 1
  | some lpn => if (s.page lpn).owner = p then none else some 2

/-- Pages of a descriptor skipped, with their records. -/
def State.skipped (s : State) (j : Job) : List FaultRec :=
  (upto j.pages).filterMap fun i => (s.pageBar j.port (j.firstPage + i)).map fun r => ⟨i, j.firstPage + i, 0, r, 0, 0⟩

/-- Logical pages a descriptor reaches. -/
def State.reached (s : State) (j : Job) : List Nat :=
  (upto j.pages).filterMap fun i =>
    if (s.pageBar j.port (j.firstPage + i)).isNone then s.pageAt j.port (j.firstPage + i) else none

/-- SEAL and PREFETCH: an item for every page that wants one; the job waits for those pages. -/
def State.startItems (s : State) (j : Job) (kind : ItemKind) (wants : Page → Bool) : State :=
  let skip := s.skipped j
  let ps := (s.reached j).filter fun p => wants (s.view p)
  let s1 := s.modJob j.id fun x => { x with
    phase := .running, entries := ps, faults := skip, faultCount := skip.length, pagesDone := j.pages - skip.length }
  ps.foldl (fun s p =>
    if s.relay.items.any fun i => i.kind == kind && i.lpn == p then s
    else s.addItem kind p 0 j.bib (some j.port) none none) s1

/-- SEAL raises an item for every page that holds a block with code 0xF; PREFETCH for DISTANCE_PACKED pages (Table 5.17). -/
def wantsSeal (e : Page) : Bool := e.st != 6 && e.gran.contains 15
def wantsPrefetch (e : Page) : Bool := moveFits .promote e

/-- No item of the kind is left for the pages of a job. -/
def State.itemsEnded (s : State) (j : Job) (kind : ItemKind) : Bool :=
  !(s.relay.items.any fun i => i.kind == kind && j.entries.contains i.lpn)

/-! ### COPY (Table 4.2, Table 5.17, R66, R67) -/

/-- A copy stops at a page: FAULT with the pages before it done. -/
def State.copyStops (s : State) (j : Job) (reason : Nat) (outs : List (Nat × List Byte)) : State :=
  let k := { j with faults := [⟨j.pagesDone, j.copyFirst + j.pagesDone, 0, reason, 0, 0⟩], faultCount := 1 }
  (s.modJob j.id fun _ => k).deliver k 1 j.pagesDone outs

/-- The window page a copy has reached, as a partition address. -/
def Job.copyAddr (j : Job) (g : Nat) : PartAddr :=
  let wp := j.copyFirst + j.pagesDone
  ⟨j.bib, wp / 32, wp % 32, g / 32, g % 32 * 64⟩

/-- The work item of a copy. -/
def State.copyItem (s : State) (j : Job) : Option Item := s.relay.items.find? fun i => i.job == some j.id

/-- The item of the page a copy has reached is raised; the copy goes on when an engine has started it. -/
def State.queueCopy (s : State) (j : Job) (lpn : Nat) : State :=
  (s.modJob j.id fun x => { x with phase := .queued, entries := [lpn] }).addCopyItem (if j.op = 0x12 then .copyIn else .copyOut) lpn j
    j.bib

/-- The 1024 granule accesses of a page of a copy; data is empty for a read. -/
def State.copyPage (s : State) (j : Job) (write : Bool) (data : List Byte) : State :=
  let s1 := (upto 1024).foldl (fun s g =>
    s.hostReq write j.port j.link (.job j.id (j.pagesDone * 65536 + g * 64)) (j.copyAddr g) 64
      (if write then (slice data (g * 64) 64).map some else []) .atPort false false) s
  s1.modJob j.id fun x => { x with phase := .running, itemsLeft := 1024 }

/-- COPY_IN, FORM 0: the next page, once its data has been read. -/
def State.copyInNext (s : State) (j : Job) : State :=
  if j.pagesDone = j.copyPages then s.finish j 0 j.pagesDone []
  else
    match s.pageBar j.port (j.copyFirst + j.pagesDone), s.pageAt j.port (j.copyFirst + j.pagesDone) with
    | some r, _ => s.copyStops j r []
    | none, none => s
    | none, some lpn => s.need j (j.buffer + j.pagesDone * 65536) 65536 fun _ s1 => s1.queueCopy j lpn

/-- COPY_IN, FORM 0, with its engine: the page is written. -/
def State.copyInPage (s : State) (j : Job) : State :=
  s.need j (j.buffer + j.pagesDone * 65536) 65536 fun d s1 => (s1.dropJobReads j).copyPage j true d

/-- Data of the pages a COPY_OUT has read whole. -/
def Job.copied (j : Job) : List Byte := (j.got.filter fun x => decide (x.1 < j.pagesDone * 65536)).flatMap (·.2)

/-- COPY_OUT, FORM 0: the next page; a locked vault is a fault (R87). -/
def State.copyOutNext (s : State) (j : Job) : State :=
  if j.pagesDone = j.copyPages then s.deliver j 0 j.pagesDone [(j.buffer, j.copied)]
  else
    let wp := j.copyFirst + j.pagesDone
    match s.pageBar j.port wp, s.pageAt j.port wp with
    | some r, _ => s.copyStops j r [(j.buffer, j.copied)]
    | none, some lpn =>
      if (s.view lpn).st = 6 ∧ (s.vaultKey lpn).isNone then s.copyStops j 4 [(j.buffer, j.copied)]
      else s.queueCopy j lpn
    | none, none => s

/-- A page of a copy has ended: FAULT for poison, else its item ends and the copy goes on. -/
def State.copyStep (s : State) (j : Job) : State :=
  if j.itemsLeft ≠ 0 then s
  else if j.faultCount ≠ 0 then s.copyStops j 3 [(j.buffer, j.copied)]
  else
    let k := { j with pagesDone := j.pagesDone + 1, phase := .reading }
    let s1 := (s.dropCopyItems j.id).modJob j.id fun _ => k
    if j.op = 0x12 then s1.copyInNext k else s1.copyOutNext k

/-- A COPY_IN of an image through a FROZEN slot is discarded and counted as a write is (R39, R43; DEDUCED, log entry 69). -/
def State.discardImage (s : State) (j : Job) (lpn : Nat) : State :=
  let s1 := (s.bump 0x1310 5).modPort j.port fun x => { x with discards := x.discards + 1 }
  let s2 :=
    if s.map.discardReported then s1
    else ({ s1 with map := { s1.map with discardReported := true } }).raiseWith 0 false 0x0208 j.port 0 0 lpn 0
  s2.finish j 0 1 []

/-- COPY_IN, FORM 1: its buffer is read and its page looked up (R13, R43). -/
def State.copyInImage (s : State) (j : Job) : State :=
  s.need j j.buffer j.length fun _ s1 =>
    match s1.pageBar j.port j.copyFirst, s1.pageAt j.port j.copyFirst with
    | some r, _ => s1.copyStops j r []
    | none, none => s1
    | none, some lpn => if (s1.win j.port (j.copyFirst / 32)).frozen then s1.discardImage j lpn else s1.queueCopy j lpn

/-- An engine checks an image under R67 and loads it as SPRINT_CODED; it waits for its slot as a write does (R12, R36), and its
blocks enter their queues. -/
def State.loadImage (s : State) (j : Job) (it : Item) (img : List Byte) : State :=
  let lpn := it.lpn
  let n := s.region lpn
  if (s.view lpn).st ≠ 0 ∨ s.num (0x5100 + n) 4 ≠ 1
      ∨ !imageOk (s.element lpn) (s.freshSlots n) (s.liveSlots n) (s.num (0x5100 + n) 1) j.length img then s.finish j 6 0 []
  else if s.withheld j.bib then s
  else
    let home := s.homeFor lpn
    match s.pickSlot home with
    | none => s
    | some sl =>
      let gran := unpackGranules (slice img 0 16)
      let e := { Page.zero with
        st := 2, owner := (s.page lpn).owner, home := home, slot := sl, gran := gran, cbv := field img 0x12 1 }
      let s1 := ((s.takeSlot home sl).writeSlot home sl (splitImage gran (img.drop 64))).swapPage lpn e
      (s1.modJob j.id fun x => { x with phase := .running }).blockFlows it.id lpn false true e (upto 32) (some j.bib) (some j.port)

/-- A coded block of an image is good, or served from the other copy, or lost (R57). -/
def State.imageBlock (s : State) (lpn b : Nat) : Option (List Byte) × Bool × State :=
  let e := s.view lpn
  let dist := !e.inSprint
  let stored := if dist then s.distBlock e b else s.sprintBlock e b
  match s.blockFails lpn e b stored with
  | none => (some stored, false, s)
  | some c => match s.checkFail lpn b dist c with
    | (some good, s1) => (some good, true, s1)
    | (none, s1) => (none, false, s1)

/-- The stored blocks of a page, in order. -/
def State.imageBlocks (s : State) (lpn : Nat) : Option (List (List Byte)) × Bool × State :=
  (upto 32).foldl (fun acc b =>
    match acc with
    | (none, r, s) => (none, r, s)
    | (some bs, r, s) =>
      match s.imageBlock lpn b with
      | (some d, r2, s2) => (some (bs ++ [d]), r || r2, s2)
      | (none, r2, s2) => (none, r || r2, s2)) (some [], false, s)

/-- Why a page gives no image: VAULT and POISONED are faults, a short buffer is REJECTED (Table 5.17). -/
def State.imageBar (s : State) (j : Job) (lpn : Nat) (k : State) : State :=
  let e := s.view lpn
  if e.st = 6 ∨ s.isVault lpn then s.copyStops j 4 []
  else if e.st = 8 then s.copyStops j 3 []
  else if j.length < 64 * (1 + imageGranules e.gran) then s.finish j 6 0 []
  else k

/-- COPY_OUT, FORM 1: the page is looked up and waits for an engine. -/
def State.copyOutImage (s : State) (j : Job) : State :=
  match s.pageBar j.port j.copyFirst, s.pageAt j.port j.copyFirst with
  | some r, _ => s.copyStops j r []
  | none, none => s
  | none, some lpn => s.imageBar j lpn (s.queueCopy j lpn)

/-- COPY_OUT, FORM 1, once the page has been read: its blocks are checked and the image is written. -/
def State.emitImage (s : State) (j : Job) (lpn : Nat) : State :=
  let e := s.view lpn
  s.imageBar j lpn (match s.imageBlocks lpn with
    | (none, _, s1) => s1.copyStops j 3 []
    | (some bs, rep, s1) =>
      let k := { j with repaired := j.repaired || rep }
      (s1.modJob j.id fun _ => k).deliver k 0 1 [(j.buffer, pageImage (s.element lpn) e.cbv e.gran bs)])

/-- A copy whose item waits or runs goes on. -/
def State.advanceCopy (s : State) (j : Job) : State :=
  match s.copyItem j with
  | none => s
  | some it =>
    if !it.running then s
    else
      match j.op == 0x12, j.form with
      | true, 0 => s.copyInPage j
      | true, _ => s.need j j.buffer j.length fun d s1 => s1.loadImage j it d
      | false, 0 => s.copyPage j false []
      | false, _ => if s.busy it.id then s else s.emitImage j it.lpn

/-- A copy whose accesses are under way: an image is loaded once its writes have drained. -/
def State.copyRuns (s : State) (j : Job) : State :=
  if j.form = 0 then s.copyStep j
  else
    match s.copyItem j with
    | some it => if s.busy it.id then s else s.finish j 0 1 []
    | none => s.finish j 0 1 []

/-! ### BATON and CATCH (R20, R42-R44, R187) -/

def Job.pass (j : Job) : Bool := j.op == 0x20 || j.op == 0x21

/-- BATON and CATCH descriptors that wait for a match or for their swap. -/
def State.passJobs (s : State) : List Job := s.stride.jobs.filter fun j => j.pass && j.phase == .waiting

/-- The descriptor is part of a pass that has started. -/
def State.inPass (s : State) (j : Job) : Bool := s.map.passes.any fun x => x.giverJob == j.id || x.catchJob == j.id

/-- The extent list spells slots of the window, each once (R111). -/
def slotsOk (extents : Nat) (slots : List Nat) : Bool := slots.all (fun x => decide (x < extents)) && slots.eraseDups.length == slots.length

/-- CONFLICT of R42: a slot, or the token of another of the same kind. -/
def State.passConflict (s : State) (j : Job) (slots : List Nat) : Bool :=
  s.passJobs.any fun x => x.id != j.id &&
    ((x.op == j.op && x.token == j.token) || (x.port == j.port && x.entries.any fun e => slots.contains e))

/-- FROZEN set or cleared in slots of a window. -/
def State.setFrozen (s : State) (p : Nat) (slots : List Nat) (v : Bool) : State :=
  slots.foldl (fun s x => s.swapWin p x { s.win p x with frozen := v }) s

/-- A CATCH that completes while its link is in D3hot sends PM_PME when PME_En is set (R185). -/
def State.catchPme (s : State) (j : Job) : State :=
  let k := s.link j.port j.link
  if j.op = 0x21 ∧ k.dstate = 3 ∧ k.pmeEn then
    (s.modLink j.port j.link fun x => { x with pmeStatus := true }).emit (.pmPme j.port j.link)
  else s

/-- A BATON or CATCH completes, with whatever status (R42, R185). -/
def State.endPass (s : State) (j : Job) (status result : Nat) : State := (s.finish j status result []).catchPme j

/-- A match (R42, R43): refused with MISMATCH for both, or the giver's slots freeze and the pass starts. -/
def State.matchPass (s : State) (b c : Job) : State :=
  let ok := b.port ≠ c.port ∧ b.entries.length = c.entries.length ∧ (b.entries.all fun x => (s.win b.port x).valid)
    ∧ (c.entries.all fun x => !(s.win c.port x).valid)
  if ok then
    let p : Pass := ⟨b.token, b.id, c.id, b.port, c.port, b.entries, c.entries⟩
    let s1 := s.setFrozen b.port b.entries true
    { s1 with map := { s1.map with passes := s1.map.passes ++ [p] } }
  else (s.endPass b 0x10 0).endPass c 0x10 0

/-- A BATON or CATCH has its extent list (R42). -/
def State.offerPass (s : State) (j : Job) (slots : List Nat) : State :=
  if !slotsOk (s.windowExtents j.port) slots then s.endPass j 3 0
  else if s.passConflict j slots then s.endPass j 0x11 0
  else
    let k := { j with phase := .waiting, entries := slots }
    let s1 := (s.modJob j.id fun _ => k).dropJobReads k
    match s.passJobs.find? fun x => x.op != j.op && x.token == j.token && !s.inPass x with
    | none => s1
    | some x => if j.op = 0x20 then s1.matchPass k x else s1.matchPass x k

/-- A BATON or CATCH reads its extent list. -/
def State.startPass (s : State) (j : Job) : State :=
  s.need j j.extentList (4 * j.extents) fun d s1 => s1.offerPass j ((upto j.extents).map fun i => field d (4 * i) 4)

/-- Giver writes to the slots of a pass, images being loaded among them, are on their way to their queues (R43). -/
def State.passDraining (s : State) (x : Pass) : Bool :=
  let named := fun (lpn : Nat) => x.from_.any fun e => (s.win x.giver e).handle == handleOf lpn
  (s.reqs.any fun r => r.write && r.port == x.giver && r.stage != .atPort && r.stage != .barrier && r.lpn != noPage && named r.lpn)
    || s.stride.jobs.any fun j => j.port == x.giver && j.op == 0x12 && j.form == 1 && (j.phase == .queued || j.phase == .running)
      && j.entries.any named

/-- Every page of an extent takes an owner. -/
def State.ownExtent (s : State) (h p : Nat) : State :=
  (upto 32).foldl (fun s i => s.swapIf (h * 32 + i) { s.page (h * 32 + i) with owner := p }) s

/-- One slot changes hands: the giver's is unmapped, with HANDLE 0 (DESIGN CHOICE, log entry 74), the receiver's takes the handle, the
pages their owner (R43). -/
def State.passSlot (s : State) (x : Pass) (a b : Nat) : State :=
  let e := s.win x.giver a
  let f := s.win x.receiver b
  let s1 := s.swapWin x.giver a ⟨false, false, (e.seq + 1) % 256, 0⟩
  (s1.swapWin x.receiver b ⟨true, false, (f.seq + 1) % 256, e.handle⟩).ownExtent e.handle x.receiver

/-- The atomic step of a pass; both descriptors complete (R43). -/
def State.swapPass (s : State) (x : Pass) : State :=
  let s1 := (x.from_.zip x.to_).foldl (fun s y => s.passSlot x y.1 y.2) s
  let s2 := { s1 with map := { s1.map with passes := s1.map.passes.filter (· != x) } }
  match s2.job x.giverJob, s2.job x.catchJob with
  | some b, some c => (s2.endPass b 0 x.from_.length).endPass c 0 x.to_.length
  | _, _ => s2

/-- A pass loses one of its ports before the swap: FROZEN is cleared and the other side is DROPPED (R20, R187). -/
def State.dropPass (s : State) (x : Pass) (lost : Nat) : State :=
  let s1 := s.setFrozen x.giver x.from_ false
  let s2 := { s1 with map := { s1.map with passes := s1.map.passes.filter (· != x) } }
  match s2.job (if lost = x.giver then x.catchJob else x.giverJob) with
  | some j => s2.endPass j 0x13 0
  | none => s2

/-- A port is lost: its passes drop and its own BATON and CATCH descriptors before a swap are discarded (R187). -/
def State.losePasses (s : State) (p : Nat) : State :=
  let s1 := (s.map.passes.filter fun x => x.giver == p || x.receiver == p).foldl (fun s x => s.dropPass x p) s
  (s1.stride.jobs.filter fun j => j.port == p && j.pass && (j.phase == .waiting || j.phase == .reading || j.phase == .fetch)).foldl
    State.dropJob s1

/-! ### CODEBOOK_BUILD and FENCE -/

/-- CODEBOOK_BUILD (Table 5.17): STATE when no version can be built now, else a build of the region is asked for. -/
def State.startBuild (s : State) (j : Job) : State :=
  match s.pageBar j.port j.regionPage, s.pageAt j.port j.regionPage with
  | some r, _ =>
    let k := { j with faults := [⟨0, j.regionPage, 0, r, 0, 0⟩], faultCount := 1 }
    (s.modJob j.id fun _ => k).finish k 1 0 []
  | none, none => s
  | none, some lpn =>
    let n := s.region lpn
    if !s.buildable n ∨ (mget s.relay.seals [] n).isEmpty then s.finish j 7 0 []
    else (s.modJob j.id fun x => { x with phase := .running, entries := [n] }).requestBuild n j.bib (some j.port)

/-- The descriptors that wait for a build of a region complete with its slot. -/
def State.buildJobs (s : State) (n slot : Nat) : State :=
  (s.stride.jobs.filter fun j => j.op == 0x30 && j.phase == .running && j.entries == [n]).foldl
    (fun s j => s.finish j 0 slot []) s

/-- Every earlier descriptor in a FENCE's scope has completed (R115). -/
def State.fenceOpen (s : State) (j : Job) : Bool :=
  !(s.stride.jobs.any fun x => decide (x.id < j.id) && x.port == j.port && (j.scope == 1 || x.q == j.q))

/-! ### What waits goes on -/

/-- A job that reads what it needs. -/
def State.advanceReading (s : State) (j : Job) : State :=
  match j.op with
  | 0x01 => s.prepStride j
  | 0x02 => s.prepStride j
  | 0x10 => s.startItems j .sealing wantsSeal
  | 0x11 => s.startItems j .promote wantsPrefetch
  | 0x12 => if j.form = 0 then s.copyInNext j else s.copyInImage j
  | 0x13 => if j.form = 0 then s.copyOutNext j else s.copyOutImage j
  | 0x20 => s.startPass j
  | 0x21 => s.startPass j
  | 0x30 => s.startBuild j
  | _ => s.modJob j.id fun x => { x with phase := .waiting }

/-- A job whose legs, items or accesses are in progress. -/
def State.advanceRunning (s : State) (j : Job) : State :=
  match j.op with
  | 0x01 => s.checkStride j
  | 0x02 => s.checkStride j
  | 0x10 => if s.itemsEnded j .sealing then s.finish j 0 j.pagesDone [] else s
  | 0x11 => if s.itemsEnded j .promote then s.finish j 0 j.pagesDone [] else s
  | 0x12 => s.copyRuns j
  | 0x13 => s.copyStep j
  | _ => s

/-- One job goes on as far as it can in its phase, once its COMPLETION is translated; jobs of a frozen port or of one with a link in D3hot
stand still (R121, R184). -/
def State.advanceJob (s : State) (id : Nat) : State :=
  match s.job id with
  | none => s
  | some j =>
    if s.halted j.port then s
    else if !j.compOk then s.checkCompletion j
    else
      match j.phase with
      | .fetch => s
      | .reading => s.advanceReading j
      | .queued => s.advanceCopy j
      | .running => s.advanceRunning j
      | .waiting => if j.op = 0x3F ∧ s.fenceOpen j then s.finish j 0 0 [] else s
      | .writing _ => s.writeOut id

/-- Every job through its phases, oldest first. -/
def State.advanceJobs (s : State) : State :=
  (s.stride.jobs.map (·.id)).foldl (fun s id => (((s.advanceJob id).advanceJob id).advanceJob id)) s

/-- The queues of a port copy the descriptors that have arrived. -/
def State.takeRings (s : State) (p : Nat) : State := (upto 16).foldl (fun s q => s.takeRing p q) s

/-- A request of level 5 or more waits on the link of a port (R182). -/
def State.urgentWaits (s : State) (p : Nat) : Bool := s.reqs.any fun r => r.port == p && r.isHost && decide (5 ≤ s.level r.bib (some p))

/-- A narrowed link widens while such a request waits (R182). -/
def State.widenUrgent (s : State) (p : Nat) : State :=
  if (s.link p .a).state = 3 ∧ s.urgentWaits p then s.modLink p .a fun k => { k with state := 2 } else s

/-- One round of what goes on by itself: held requests, doorbells, DMA reads, rings, jobs. -/
def State.round (s : State) : State :=
  let s1 := s.settle
  let s2 := (upto 4).foldl (fun s p => (((((s.widenUrgent p).ringBells p).pumpDma p .a).pumpDma p .b).takeRings p)) s1
  s2.advanceJobs

def State.rounds : Nat → State → State
  | 0, s => s.settle
  | n + 1, s => State.rounds n s.round

/-- What goes on by itself after a command (DESIGN CHOICE, log entry 24). -/
def State.proceed (s : State) : State := State.rounds 2 s

/-- The start of a descriptor of the opcode a command names. -/
def State.startJob (s : State) (id : Nat) (fits : Job → Bool) : State :=
  match s.job id with
  | none => s
  | some j => if fits j ∧ s.startable j then (s.modJob id fun x => { x with phase := .reading }).proceed else s

/-- Descriptors in progress complete ABORTED, those of a pass apart (R121, R184, R189). -/
def State.abortJobs (s : State) (js : List Job) : State :=
  (js.filter fun j => !j.pass).foldl (fun s j =>
    (s.dropJobWork j).modJob j.id fun x => { x with
      phase := .writing 5, writes := [], result := 0, faults := [], faultCount := 0, retries := 0, repaired := false,
      itemsLeft := 0, asked := [] }) s

end Sys2Proof.Machine
end

