-- ==== Sys2Proof/Machine/ConfigSpace.lean ====
section
/-! DEFINITION. The configuration space of a link as a host reads and writes it (R6, R164, R167-R169), and the CXL registers of BAR0
(R170, R171, Table 8.7). Places the manual does not give are those of PCI Express and CXL (PRESUMED, log entry 70). -/

namespace Sys2Proof.Machine

/-- Words of configuration space that keep what a host writes: offset, bits it can write, value at reset. Interrupt Line; Device Control,
Link Control, Device Control 2 and Link Control 2 of PCI Express; the AER masks and severities; the smallest translation unit of ATS; Device
Control 3; the control registers of the CXL DVSECs. -/
def cfgWords : List (Nat × Nat × Nat) :=
  [(0x3C, 0xFF, 0), (0x58, 0x71FF, 0x2010), (0x60, 0x1CB, 0), (0x78, 0x101F, 0), (0x80, 0xF, 6), (0x108, 0x07FFF030, 0x02400000),
   (0x10C, 0x07FFF030, 0x004E2030), (0x114, 0xE1C1, 0x6000), (0x118, 0x140, 0), (0x15C, 0x1F0000, 0), (0x248, 0x78, 0),
   (0x30C, 0x4, 0), (0x348, 0x6, 0x6)]

/-- The word is one of a CXL DVSEC, absent in PCIe-only mode (R168). -/
def inCxlDvsec (off : Nat) : Bool := decide (0x300 ≤ off ∧ off < 0x3C0)

/-- A configuration word that keeps its writable bits; others are hardwired (R167). -/
def State.setCfg (s : State) (p : Nat) (l : LinkId) (off v : Nat) : State :=
  match cfgWords.find? fun x => x.1 == off && !(inCxlDvsec off && (s.port p).pcieOnly) with
  | some (_, mask, dflt) => s.modLink p l fun k => { k with cfg := mput k.cfg dflt off ((v &&& mask) ||| (dflt &&& (0xFFFFFFFF ^^^ mask))) }
  | none => s

/-- The kept value of such a word, 0 for any other. -/
def Link.cfgValue (k : Link) (off : Nat) : Nat :=
  match cfgWords.find? fun x => x.1 == off with
  | some (_, _, dflt) => mget k.cfg dflt off
  | none => 0

/-- L0p Enable of Device Control 3 (R182). -/
def Link.l0pEn (k : Link) : Bool := bit (k.cfgValue 0x248) 3

/-- Subsystem ID of a variant (Table 8.1). -/
def subsystemId (variant : Nat) : Nat := variant + 1

/-- DVSEC offset 0x14 and PINFO (Table 8.3). -/
def State.pinfo (s : State) (p : Nat) (l : LinkId) : Nat :=
  let x := s.port p
  p + 4 * b2n (l == .b) + 8 * b2n x.bifurcated + 16 * b2n x.pcieOnly + 32 * s.runCode

/-- DVSEC offset 0x10 and PFREEZE. -/
def State.pfreeze (s : State) (p : Nat) : Nat :=
  let x := s.port p
  b2n x.frozen + 2 * b2n x.drained + 4 * (s.num (0x3040 + 0x100 * p) 2 % 2) + 16 * x.cause

/-- The type-0 header of Table 8.1. -/
def State.headerWord (s : State) (p : Nat) (l : LinkId) (off : Nat) : Nat :=
  let x := s.port p
  let k := s.link p l
  match off with
  | 0x00 => 0x1F3C + 65536 * (if x.pcieOnly then 0x0901 else 0x0900)
  | 0x04 => k.command + 65536 * 0x10
  | 0x08 => 0x10 + 256 * 0x050210
  | 0x10 => k.bar0 % 2 ^ 32 + 4
  | 0x14 => k.bar0 / 2 ^ 32
  | 0x18 => if x.pcieOnly then k.bar2 % 2 ^ 32 + 0xC else 0
  | 0x1C => if x.pcieOnly then k.bar2 / 2 ^ 32 else 0
  | 0x2C => 0x1F3C + 65536 * subsystemId s.part.variant
  | 0x34 => 0x40
  | 0x3C => k.cfgValue 0x3C
  | _ => 0

/-- A capability of the first list: its id and the next one. -/
def capHeader (id next : Nat) : Nat := id + 256 * next

/-- An extended capability: id, version and the next one. -/
def extHeader (id version next : Nat) : Nat := id + 2 ^ 16 * version + 2 ^ 20 * next

/-- The capabilities of Table 8.2 in the first 256 bytes: Power Management, PCI Express, MSI-X. -/
def State.capWord (s : State) (p : Nat) (l : LinkId) (off : Nat) : Nat :=
  let k := s.link p l
  match off with
  | 0x40 => capHeader 0x01 0x50 + 65536 * 0xC803
  | 0x44 => min 3 k.dstate + 8 + 256 * b2n k.pmeEn + 32768 * b2n k.pmeStatus
  | 0x50 => capHeader 0x10 0xB0 + 65536 * 2
  | 0x54 => 2 + 0x8000 + 2 ^ 28
  | 0x58 => k.cfgValue 0x58
  | 0x5C => 6 + 16 * 16 + 2 ^ 10 * 2 + 2 ^ 15 * 2 + 2 ^ 24 * p
  | 0x60 => (k.cfgValue 0x60 &&& 0x1C8) + 2 * b2n k.aspmL1 + 65536 * ((6 - k.speed) + 16 * k.width)
  | 0x74 => 6 + 16 + 65536 * 3
  | 0x78 => k.cfgValue 0x78
  | 0x7C => 2 * 0x3F
  | 0x80 => k.cfgValue 0x80
  | 0xB0 => capHeader 0x11 0 + 65536 * (63 + 2 ^ 14 * b2n k.funcMask + 2 ^ 15 * b2n k.msixEn)
  | 0xB4 => 0x40000
  | 0xB8 => 0x41000
  | _ => 0

/-- The extended capabilities of Table 8.2; in PCIe-only mode the list links past the CXL DVSECs (R168), and the last is the Unorfin DVSEC
of Table 8.3 (R169). -/
def State.extWord (s : State) (p : Nat) (l : LinkId) (off : Nat) : Nat :=
  let k := s.link p l
  let cxl := !(s.port p).pcieOnly
  match off with
  | 0x100 => extHeader 0x0001 2 0x148
  | 0x148 => extHeader 0x0003 1 0x158
  | 0x14C => field s.part.serial 0 4
  | 0x150 => field s.part.serial 4 4
  | 0x158 => extHeader 0x000F 1 0x160
  | 0x15C => (k.cfgValue 0x15C ||| 2 ^ 31 * b2n k.atsEn)
  | 0x160 => extHeader 0x0019 1 0x180
  | 0x180 => extHeader 0x0025 1 0x190
  | 0x184 => 1
  | 0x190 => extHeader 0x0026 1 0x1C0
  | 0x1C0 => extHeader 0x002A 1 0x1E0
  | 0x1E0 => extHeader 0x0031 1 0x200
  | 0x200 => extHeader 0x0027 1 0x240
  | 0x240 => extHeader 0x002F 1 (if cxl then 0x300 else 0x3C0)
  | 0x244 => 2 ^ 8
  | 0x248 => k.cfgValue 0x248
  | 0x300 => if cxl then extHeader 0x0023 1 0x340 else 0
  | 0x304 => if cxl then 0x1E98 + 2 ^ 16 * 3 + 2 ^ 20 * 0x3C else 0
  | 0x308 => if cxl then 2 ^ 16 * (4 + 2 ^ 4 * 2 + 2) else 0
  | 0x30C => if cxl then k.cfgValue 0x30C else 0
  | 0x340 => if cxl then extHeader 0x0023 1 0x380 else 0
  | 0x344 => if cxl then 0x1E98 + 2 ^ 16 * 2 + 2 ^ 20 * 0x20 else 0
  | 0x348 => if cxl then 7 + 2 ^ 16 * (6 + 8 * b2n (k.flitSize == 68)) else 0
  | 0x380 => if cxl then extHeader 0x0023 1 0x3C0 else 0
  | 0x384 => if cxl then 0x1E98 + 2 ^ 20 * 0x1C else 0
  | 0x388 => if cxl then 8 else 0
  | 0x38C => if cxl then 2 ^ 8 * 1 else 0
  | 0x394 => if cxl then 0x10000 + 2 ^ 8 * 3 else 0
  | 0x3C0 => extHeader 0x0023 1 0
  | 0x3C4 => 0x1F3C + 2 ^ 20 * 0x20
  | 0x3C8 => 0x0001
  | 0x3CC => 0
  | 0x3D0 => s.pfreeze p
  | 0x3D4 => s.pinfo p l
  | _ => k.cfgValue off

/-- What a configuration read of a 32-bit word returns (R167-R169); fields not listed are hardwired to zero. -/
def State.configWord (s : State) (p : Nat) (l : LinkId) (off : Nat) : Nat :=
  if off < 0x40 then s.headerWord p l off else if off < 0x100 then s.capWord p l off else s.extWord p l off

/-- A decoder's word of the HDM Decoder Capability: base, size, control. -/
def Hdm.word (h : Hdm) (off : Nat) : Nat :=
  match off with
  | 0x00 => h.base % 2 ^ 32
  | 0x04 => h.base / 2 ^ 32
  | 0x08 => h.size % 2 ^ 32
  | 0x0C => h.size / 2 ^ 32
  | 0x10 => 4 + 16 * Nat.log2 h.ways + 512 * b2n h.committed + 1024 * b2n h.committed + 2048 * b2n h.error
  | _ => 0

/-- The CXL component registers: the CXL.cache and CXL.mem block with its HDM Decoder Capability (two decoders) and RAS Capability
(R170, R171). -/
def Link.componentWord (k : Link) (off : Nat) : Nat :=
  if off = 0x1000 then 1 + 2 ^ 16 + 2 ^ 20 + 2 ^ 24 * 2
  else if off = 0x1004 then 5 + 2 ^ 16 * 3 + 2 ^ 20 * 0x100
  else if off = 0x1008 then 2 + 2 ^ 16 * 2 + 2 ^ 20 * 0x200
  else if off = 0x1100 then 1 + 2 ^ 9
  else if off = 0x1104 then 2
  else if 0x1110 ≤ off ∧ off < 0x1150 then (nth k.hdm Hdm.init ((off - 0x1110) / 0x20)).word ((off - 0x1110) % 0x20)
  else 0

/-- Media Status: Ready in GO, Not Ready while the ports are released in SET (Table 8.7). -/
def State.mediaStatus (s : State) : Nat := if s.inGo then 1 else 0

/-- The CXL device registers: the capabilities array with device status, the primary mailbox with its 16 KiB payload and memory device
status; the mailbox holds no command between two of ours. -/
def State.deviceWord (s : State) (off : Nat) : Nat :=
  match off with
  | 0x10000 => 2 ^ 16
  | 0x10004 => 3
  | 0x10010 => 1 + 2 ^ 16
  | 0x10014 => 0x100
  | 0x10018 => 8
  | 0x10020 => 2 + 2 ^ 16
  | 0x10024 => 0x1000
  | 0x10028 => 0x4020
  | 0x10030 => 0x4000 + 2 ^ 16
  | 0x10034 => 0x200
  | 0x10038 => 8
  | 0x10200 => 4 * s.mediaStatus + 16
  | 0x11000 => 14 + 32
  | _ => 0

end Sys2Proof.Machine
end

