-- ==== Sys2Proof/Machine/PortOps.lean ====
section
/-! DEFINITION. Ports and links: configuration space, BAR0, HDM decoders, poison list, freeze, release and resets (R164-R191). -/

namespace Sys2Proof.Machine

/-! ### Resets of a link (R190) -/

/-- The queues that a link holds (R165). -/
def State.linkQueues (s : State) (p : Nat) (l : LinkId) : List Nat :=
  if (s.port p).bifurcated then (if l = .a then upto 8 else (upto 8).map (· + 8)) else if l = .a then upto 16 else []

/-- ENABLE of every queue of a link is cleared. -/
def State.disableQueues (s : State) (p : Nat) (l : LinkId) : State :=
  (s.linkQueues p l).foldl (fun s q => s.modQueue p q fun x => { x with enable := false }) s

/-- Host requests of a link leave with the items that serve them alone; promotions stay. -/
def State.dropLinkReqs (s : State) (p : Nat) (l : LinkId) : State :=
  let gone := fun (r : Req) => r.port == p && r.link == l && r.isHost
  let ids := (s.reqs.filter gone).map (·.id)
  { s with
    reqs := s.reqs.filter fun r => !gone r
    xfers := s.xfers.filter fun x => !(x.port == p && x.link == l)
    relay := { s.relay with items := s.relay.items.filter fun i =>
      i.kind == .promote || (match i.req with
        | some r => !ids.contains r
        | none => true) } }

/-- Configuration registers at their reset values. -/
def Link.resetConfig (k : Link) : Link :=
  { k with
    dstate := 0, pmeEn := false, command := 0, bar0 := 0, bar2 := 0, atsEn := false, aspmL1 := false, msixEn := false,
    funcMask := false, hdm := Link.init.hdm, cfg := [], poisonAt := 0 }

/-- MSI-X table, translation cache and the T9's own reads at their reset values. -/
def Link.resetFlr (k : Link) : Link := { k with msix := Link.init.msix, cache := [], dma := [], invals := [] }

/-- The freeze ends without a release (R190). -/
def State.thaw (s : State) (p : Nat) : State :=
  s.modPort p fun x => { x with frozen := false, drained := false, cause := 0, releaseAsked := false }

/-- The staging context of a link's mailbox ends, and its command gets no reply (R190, R206). -/
def State.dropInfield (s : State) (p : Nat) (l : LinkId) : State :=
  let quiet := fun (w : Waiting) => if w.door = .infield p l then { w with mute := true } else w
  { s with dict := { s.dict with ctxs := s.dict.ctxs.filter (fun c => c.id != .infield p l), waiting := s.dict.waiting.map quiet } }

/-- A link and the descriptors of its partition are reset (R190); full adds the configuration space. -/
def State.resetLink (s : State) (p : Nat) (l : LinkId) (full : Bool) : State :=
  let s1 := s.losePasses p
  let s2 := (s1.portJobs p).foldl State.dropJob s1
  let s3 := (s2.linkQueues p l).foldl (fun s q => s.modQueue p q fun _ => Queue.init) (s2.dropLinkReqs p l)
  let s4 := s3.modPort p fun x => { x with bells := x.bells.filter fun b => b.1 != l }
  let s5 := s4.modLink p l fun k => if full then k.resetFlr.resetConfig else k.resetFlr
  ((s5.thaw p).dropInfield p l)

/-- Both links of a port. -/
def State.resetPort (s : State) (p : Nat) (full : Bool) : State := (s.resetLink p .a full).resetLink p .b full

/-! ### Training -/

/-- Mode, bifurcation and aperture take effect when the port trains; its links start to train (R164). -/
def State.trainPort (s : State) (p : Nat) : State :=
  let two := s.num (0x3000 + 0x100 * p) 2 == 1
  let s1 := s.modPort p fun x => { x with
    pcieOnly := s.num (0x3000 + 0x100 * p) 1 == 1
    bifurcated := two
    bar2Log2 := s.num (0x3000 + 0x100 * p) 4
    a := { x.a with state := 1 }
    b := { x.b with state := if two then 1 else 0 } }
  s1.emit (.termination p true)

/-- The widest common width of a link (R166). -/
def widthOf (own host : Nat) : Nat := ([16, 8, 4, 2, 1].find? fun w => decide (w ≤ own ∧ w ≤ host)).getD 1

/-- A link comes up at the highest common speed and width with event 0x0804 (R166); speed codes are those of PORT_SPEED_CAP. It runs in
FLIT mode at 64 GT/s, and below that when the partner supports it; a CXL link takes 256-byte flits, or below 64 GT/s 68-byte ones when the
host asks for them. -/
def State.upLink (s : State) (p : Nat) (l : LinkId) (hostSpeed hostWidth : Nat) (partnerFlit ask68 : Bool) : State :=
  let k := s.link p l
  if s.linkPresent p l ∧ k.state ≤ 1 ∧ s.run.portsReleased ∧ !(s.port p).perstLow ∧ (s.run.state = 1 ∨ s.run.state = 2) then
    let sp := min 5 (max (s.num (0x3000 + 0x100 * p) 3) hostSpeed)
    let w := widthOf (if (s.port p).bifurcated then 8 else 16) hostWidth
    let size := if (s.port p).pcieOnly then 0 else if sp ≠ 0 ∧ ask68 then 68 else 256
    (s.modLink p l fun x => { x with
      state := 2, speed := sp, width := w, flit := sp == 0 || partnerFlit, flitSize := size }).raisePort 0x0804 p sp w
  else s

/-! ### Freeze and release (R186-R189) -/

/-- A port freezes with event 0x0801 (R186, R187); one that is frozen already stays as it is. -/
def State.freeze (s : State) (p cause : Nat) : State :=
  if (s.port p).frozen then s
  else
    let s1 := s.modPort p fun x => { x with
      frozen := true, drained := false, cause := cause, allOnes := s.num (0x3040 + 0x100 * p) 2 == 1 }
    ((s1.bump (0x3040 + 0x100 * p) 6).raisePort 0x0801 p cause 0).losePasses p

/-- The release takes effect: caches emptied, descriptors aborted, queues disabled, the port reopened with event 0x0802 (R189). -/
def State.releasePort (s : State) (p : Nat) : State :=
  let s1 := (s.modLink p .a fun k => { k with cache := [] }).modLink p .b fun k => { k with cache := [] }
  let s2 := s1.abortJobs (s1.portJobs p)
  let s3 := (s2.disableQueues p .a).disableQueues p .b
  (s3.thaw p).raisePort 0x0802 p 0 0

/-- A release is asked for: at once when the port has drained, else when it drains (R189). -/
def State.askRelease (s : State) (p : Nat) : State :=
  if !(s.port p).frozen then s
  else if (s.port p).drained then s.releasePort p
  else s.modPort p fun x => { x with releaseAsked := true }

/-- The last work of a frozen port has left (R189): a DMA read of its own is work too. -/
def State.drainPort (s : State) (p : Nat) : State :=
  if (s.port p).frozen ∧ s.portIdle p then
    let s1 := s.modPort p fun x => { x with drained := true }
    if (s.port p).releaseAsked then s1.releasePort p else s1
  else s

/-- A link goes down (R186): event 0x0803, and a freeze unless the link was in L2 or PAUSE entry runs. -/
def State.lossOf (s : State) (p : Nat) (l : LinkId) : State :=
  let k := s.link p l
  if !(s.linkPresent p l) ∨ k.state < 2 then s
  else
    let s1 := ((s.modLink p l fun x => { x with state := 0 }).bump (0x3000 + 0x100 * p) 0x0B).raisePort 0x0803 p 0 0
    if k.state = 5 ∨ s.pausing then s1 else s1.freeze p 1

/-! ### PERST_N, hot reset, Function Level Reset (R190) -/

/-- PERST_N low: every link is reset; a link in L2 is in D3cold and keeps its PME bits (R183). -/
def State.perst (s : State) (p : Nat) : State :=
  let cold := fun (k : Link) => if k.state = 5 then { k with dstate := 4 } else { k with dstate := 0, pmeEn := false, pmeStatus := false }
  let keep := fun (old : Link) (k : Link) => { k with state := 0, dstate := old.dstate, pmeEn := old.pmeEn, pmeStatus := old.pmeStatus }
  let a := cold (s.port p).a
  let b := cold (s.port p).b
  (s.resetPort p true).modPort p fun x => { x with perstLow := true, a := keep a x.a, b := keep b x.b }

/-- PERST_N low seen from outside: the lanes go to high impedance (Table 8.7). -/
def State.assertPerst (s : State) (p : Nat) : State :=
  let s1 := s.perst p
  if s.run.portsReleased ∧ s.portPresent p then s1.emit (.termination p false) else s1

/-- PERST_N released: WAKE_N is released, and the port trains when the ports are released (R185). -/
def State.releasePerst (s : State) (p : Nat) : State :=
  let s1 := s.modPort p fun x => { x with
    perstLow := false, wake := false, a := { x.a with dstate := 0 }, b := { x.b with dstate := 0 } }
  let s2 := if (s.port p).wake then s1.emit (.wakeN p false) else s1
  if s.run.portsReleased ∧ s.portPresent p then s2.trainPort p else s2

/-- WAKE_N[p] is asserted (R185). -/
def State.assertWake (s : State) (p : Nat) : State :=
  if (s.port p).wake then s else (s.modPort p fun x => { x with wake := true }).emit (.wakeN p true)

/-- A wake reason reaches a link with PME_En: PM_PME in D3hot, WAKE_N in D3cold (R185). -/
def State.wakeLinkPme (s : State) (p : Nat) (l : LinkId) : State :=
  let k := s.link p l
  if !k.pmeEn ∨ !s.linkPresent p l ∨ k.dstate = 0 then s
  else
    let s1 := s.modLink p l fun x => { x with pmeStatus := true }
    if k.dstate = 3 then s1.emit (.pmPme p l)
    else if k.dstate = 4 then s1.assertWake p
    else s

/-- A lap-test failure wakes every port with PME_En set (R185). -/
def State.wakeAll (s : State) : State :=
  (upto 4).foldl (fun s p => (s.wakeLinkPme p .a).wakeLinkPme p .b) s


/-! ### Configuration space (R167-R169) -/

/-- MSI-X: a vector is unmasked, and one message is sent for its pending bit (R181). -/
def State.unmask (s : State) (p : Nat) (l : LinkId) (vec : Nat) : State :=
  let k := s.link p l
  let e := nth k.msix ⟨0, 0, true, false⟩ vec
  let send := e.pending && k.msixEn && !k.funcMask && k.dstate == 0
  let s1 := s.modLink p l fun x => { x with msix := updAt x.msix vec fun y =>
    { y with masked := false, pending := y.pending && !send } }
  if send then s1.emit (.msix p l e.addr e.data) else s1

/-- Function Mask is cleared: every pending vector whose own mask is clear sends its message. -/
def State.unmaskAll (s : State) (p : Nat) (l : LinkId) : State :=
  (upto 64).foldl (fun s v => if (nth (s.link p l).msix ⟨0, 0, true, false⟩ v).masked then s else s.unmask p l v) s

/-- ATS Enable written; 0 empties the translation cache (R179). -/
def State.setAts (s : State) (p : Nat) (l : LinkId) (en : Bool) : State :=
  (s.modLink p l fun k => { k with atsEn := en, cache := if en then k.cache else [] }).unready p l 0 (2 ^ 64)

/-- MSI-X Enable and Function Mask written. -/
def State.setMsixCtl (s : State) (p : Nat) (l : LinkId) (en mask : Bool) : State :=
  let s1 := s.modLink p l fun k => { k with msixEn := en, funcMask := mask }
  if en ∧ !mask then s1.unmaskAll p l else s1

/-- D3hot is left: the descriptors in progress of its port complete ABORTED, the queues of the link are disabled, and its pending vectors
send their messages (R181, R184; log entry 76). -/
def State.toD0 (s : State) (p : Nat) (l : LinkId) : State :=
  if (s.link p l).dstate ≠ 3 then s
  else
    let s1 := (s.modLink p l fun k => { k with dstate := 0 })
    let s2 := (s1.abortJobs (s1.portJobs p)).disableQueues p l
    if (s2.link p l).msixEn ∧ !(s2.link p l).funcMask then s2.unmaskAll p l else s2

/-- D3hot is entered from D0 (R184). -/
def State.toD3hot (s : State) (p : Nat) (l : LinkId) : State :=
  if (s.link p l).dstate = 0 then s.modLink p l fun k => { k with dstate := 3 } else s

/-- PowerState of the Power Management capability written: D0 or D3hot; D1 and D2 are not supported (Table 8.2). -/
def State.setPower (s : State) (p : Nat) (l : LinkId) (v : Nat) : State :=
  if v = 0 then s.toD0 p l else if v = 3 then s.toD3hot p l else s

/-- A 32-bit configuration write (Tables 8.1 to 8.3): registers with an effect of their own, and the bits of the others that a host can
write. -/
def State.configWrite (s : State) (p : Nat) (l : LinkId) (off v : Nat) : State :=
  let port := s.port p
  match off with
  | 0x04 => s.modLink p l fun k => { k with command := v &&& 0x546 }
  | 0x10 => s.modLink p l fun k => { k with bar0 := setBits k.bar0 26 6 (v / 2 ^ 26) }
  | 0x14 => s.modLink p l fun k => { k with bar0 := setBits k.bar0 32 32 v }
  | 0x18 => if port.pcieOnly then s.modLink p l fun k => { k with bar2 := setBits k.bar2 30 2 (v / 2 ^ 30) / 2 ^ port.bar2Log2 * 2 ^ port.bar2Log2 } else s
  | 0x1C => if port.pcieOnly then s.modLink p l fun k => { k with bar2 := setBits k.bar2 32 32 v / 2 ^ port.bar2Log2 * 2 ^ port.bar2Log2 } else s
  | 0x44 => (s.modLink p l fun k => { k with pmeEn := bit v 8, pmeStatus := k.pmeStatus && !bit v 15 }).setPower p l (v % 4)
  | 0x58 => if bit v 15 then s.resetLink p l false else s.setCfg p l off v
  | 0x60 => (s.modLink p l fun k => { k with aspmL1 := bit v 1 }).setCfg p l off v
  | 0xB0 => s.setMsixCtl p l (bit v 31) (bit v 30)
  | 0x15C => (s.setAts p l (bit v 31)).setCfg p l off v
  | 0x3CC => if bit v 0 then s.askRelease p else s
  | _ => s.setCfg p l off v

/-! ### BAR0 (R170, Tables 5.2-5.4, 8.5) -/

/-- QSTATUS (Table 5.4). -/
def State.qstatus (s : State) (p q : Nat) : Nat :=
  let k := s.queue p q
  b2n k.tailError + 2 * b2n k.xlateStop + 4 * b2n (s.muted p) + 65536 * (s.queueJobs p q).length

/-- A 32-bit word of the queue configuration page. -/
def State.queueWord (s : State) (p q off : Nat) : Nat :=
  let k := s.queue p q
  match off with
  | 0x00 => k.base % 2 ^ 32
  | 0x04 => k.base / 2 ^ 32
  | 0x08 => k.size
  | 0x0C => b2n k.enable + 65536 * k.vector
  | 0x10 => k.bibMask
  | 0x14 => k.head
  | 0x18 => s.qstatus p q
  | _ => 0

/-- ENABLE written (R94, R95): going to 1 sets the internal tail to QHEAD; at 0 the reading of descriptors stops. -/
def State.setEnable (s : State) (p q : Nat) (en : Bool) : State :=
  let s1 := if en then s else s.dropReads p (s.queueLink p q) (.ring q)
  s1.modQueue p q fun k => { k with enable := en, tail := if en ∧ !k.enable then k.head else k.tail }

/-- A write of a 32-bit word of the queue configuration page; values outside a register's range leave it (DESIGN CHOICE, log entry 29). -/
def State.setQueueWord (s : State) (p q off v : Nat) : State :=
  let locked := (s.queue p q).enable
  match off with
  | 0x00 => if locked then s else s.modQueue p q fun k => { k with base := setBits k.base 12 20 (v / 4096) }
  | 0x04 => if locked then s else s.modQueue p q fun k => { k with base := setBits k.base 32 32 v }
  | 0x08 => if locked ∨ v % 32 < 6 ∨ 16 < v % 32 then s else s.modQueue p q fun k => { k with size := v % 32 }
  | 0x0C => (s.modQueue p q fun k => { k with vector := if bits v 16 8 < 64 then bits v 16 8 else k.vector }).setEnable p q (bit v 0)
  | 0x10 => if locked then s else s.modQueue p q fun k => { k with bibMask := v % 65536 }
  | 0x14 => if locked then s else s.modQueue p q fun k => { k with head := v % 2 ^ 32 }
  | 0x18 => s.modQueue p q fun k => { k with tailError := k.tailError && !bit v 0, xlateStop := k.xlateStop && !bit v 1 }
  | _ => s

/-- A 32-bit word of BAR0 on a link (Tables 8.4, 8.5); space not listed reads zero. -/
def State.bar0Word (s : State) (p : Nat) (l : LinkId) (off : Nat) : Nat :=
  let k := s.link p l
  if 0x20000 ≤ off ∧ off < 0x20020 then
    match off - 0x20000 with
    | 0x00 => s.pinfo p l
    | 0x04 => s.pfreeze p
    | 0x08 => s.windowLog2 p
    | 0x0C => s.map.extents
    | 0x10 => (s.port p).zeroReads % 2 ^ 32
    | 0x14 => (s.port p).zeroReads / 2 ^ 32
    | 0x18 => (s.port p).discards % 2 ^ 32
    | _ => (s.port p).discards / 2 ^ 32
  else if 0x40000 ≤ off ∧ off < 0x40400 then
    let e := nth k.msix ⟨0, 0, true, false⟩ ((off - 0x40000) / 16)
    match off % 16 with
    | 0 => e.addr % 2 ^ 32
    | 4 => e.addr / 2 ^ 32
    | 8 => e.data
    | _ => b2n e.masked
  else if 0x41000 ≤ off ∧ off < 0x41008 then
    let n := 32 * ((off - 0x41000) / 4)
    maskOf 32 fun i => (nth k.msix ⟨0, 0, true, false⟩ (n + i)).pending
  else if 0x100000 ≤ off ∧ off < 0x110000 then
    let q := (off - 0x100000) / 4096
    if (s.linkQueues p l).contains q then s.queueWord p q (off % 4096) else 0
  else if off < 0x10000 then (if (s.port p).pcieOnly then 0 else k.componentWord off)
  else if off < 0x20000 then s.deviceWord off
  else 0

/-- A 32-bit word written to BAR0 on a link; other registers' writes have no effect here. -/
def State.setBar0Word (s : State) (p : Nat) (l : LinkId) (off v : Nat) : State :=
  if 0x40000 ≤ off ∧ off < 0x40400 then
    let i := (off - 0x40000) / 16
    let set := fun (f : Msix → Msix) => s.modLink p l fun x => { x with msix := updAt x.msix i f }
    match off % 16 with
    | 0 => set fun e => { e with addr := setBits e.addr 0 32 v }
    | 4 => set fun e => { e with addr := setBits e.addr 32 32 v }
    | 8 => set fun e => { e with data := v % 2 ^ 32 }
    | _ => if bit v 0 then set fun e => { e with masked := true } else s.unmask p l i
  else if 0x100000 ≤ off ∧ off < 0x110000 then
    let q := (off - 0x100000) / 4096
    if (s.linkQueues p l).contains q then s.setQueueWord p q (off % 4096) v else s
  else if 0x200000 ≤ off ∧ off < 0x210000 ∧ off % 4096 = 0 then
    let q := (off - 0x200000) / 4096
    if (s.linkQueues p l).contains q then s.doorbell p l q (v % 2 ^ 32) else s
  else s

/-- An access of 4 or 8 bytes, naturally aligned; others have no effect and read zero (R170). -/
def bar0Good (off width : Nat) : Bool := (width == 4 || width == 8) && off % width == 0 && decide (off + width ≤ 64 * 2 ^ 20)

def State.bar0Read (s : State) (p : Nat) (l : LinkId) (off width : Nat) : Nat :=
  if !bar0Good off width then 0
  else if width = 4 then s.bar0Word p l off
  else s.bar0Word p l off + 2 ^ 32 * s.bar0Word p l (off + 4)

def State.bar0Write (s : State) (p : Nat) (l : LinkId) (off width v : Nat) : State :=
  if !bar0Good off width then s
  else if width = 4 then s.setBar0Word p l off (v % 2 ^ 32)
  else (s.setBar0Word p l off (v % 2 ^ 32)).setBar0Word p l (off + 4) (v / 2 ^ 32 % 2 ^ 32)

/-- Memory requests to the BARs of a link are answered: Memory Space Enable and D0 (R167, R183). -/
def State.barOpen (s : State) (p : Nat) (l : LinkId) : Bool :=
  bit (s.link p l).command 1 && (s.link p l).dstate == 0

/-- A BAR0 access (R170, R183, R188). -/
def State.bar0Access (s : State) (p : Nat) (l : LinkId) (write : Bool) (tag off width v : Nat) : State :=
  if !s.linkOpen p l ∨ s.muted p then s
  else
    let s1 := s.wakeLink p l
    if !s1.barOpen p l then (if write then s1 else s1.emit (.bar0Unsupported p l tag))
    else if s1.onesOnly p then (if write then s1 else s1.emit (.bar0Data p l tag (2 ^ (8 * width) - 1)))
    else if write then s1.bar0Write p l off width v
    else s1.emit (.bar0Data p l tag (s1.bar0Read p l off width))

/-! ### HDM decoders (R171, R172) -/

/-- First DPA of a decoder: 0, or the end of decoder 0. -/
def Link.dpaStart (k : Link) (d : Nat) : Option Nat :=
  if d = 0 then some 0
  else
    let h := nth k.hdm Hdm.init 0
    if h.committed then some (h.dpa + h.size / h.ways) else none

/-- A commit of an HDM decoder, checked (R171); DESIGN CHOICE, log entry 30 says what the manual leaves open. -/
def State.hdmCommit (s : State) (p : Nat) (l : LinkId) (d base size ways gran skip pos : Nat) (commit : Bool) : State :=
  let set := fun (h : Hdm) => s.modLink p l fun k => { k with hdm := updAt k.hdm d fun _ => h }
  let old := nth (s.link p l).hdm Hdm.init d
  if (s.port p).pcieOnly ∨ !s.linkPresent p l ∨ 2 ≤ d then s
  else if !commit then set { old with committed := false, error := false }
  else
    match (s.link p l).dpaStart d with
    | none => set { old with committed := false, error := true }
    | some dpa =>
      if [1, 2, 4, 8].contains ways ∧ gran = 4096 ∧ skip = 0 ∧ pos < ways ∧ dpa + size / ways ≤ 16 * 2 ^ s.windowLog2 p then
        set ⟨base, size, ways, pos, dpa, true, false⟩
      else set ⟨base, size, max 1 ways, pos, dpa, false, true⟩

/-- A decoder of the partition is committed (R172). -/
def State.anyDecoder (s : State) (p : Nat) : Bool :=
  (s.port p).a.hdm.any (·.committed) || (s.port p).b.hdm.any (·.committed)

/-! ### CXL mailbox (R171, R175) -/

/-- Identify Memory Device: volatile capacity 16 W and no persistent capacity, in bytes (PRESUMED, log entry 31). -/
def State.identify (s : State) (p : Nat) : List Byte := natLe 8 (16 * 2 ^ s.windowLog2 p) ++ natLe 8 0

/-- Bib-0 alias DPAs of the POISONED pages mapped in a partition's window (R175). -/
def State.poisonDpas (s : State) (p : Nat) : List Nat :=
  (s.map.pages.filter fun x => x.2.st == 8).filterMap fun x =>
    (s.extentIn p x.1).map fun ext => ext * 2 ^ 21 + x.1 % 32 * 2 ^ 16

/-- Records of a poison list that one 16 KiB payload holds (Table 8.4; PRESUMED, log entry 31). -/
def poisonRecords : Nat := 1022

/-- Get Poison List in the layout of the CXL specification: flags More (bit 0) and Overflow (bit 1), the count, then for each entry its
DPA with source Internal (2) and its length in 64-byte units; a list that More was said of goes on (R175; PRESUMED, log entry 31). -/
def State.poisonList (s : State) (p : Nat) (l : LinkId) : List Byte :=
  let ds := s.poisonDpas p
  let rest := (ds.take 1024).drop (s.link p l).poisonAt
  natLe 1 (b2n (decide (poisonRecords < rest.length)) + 2 * b2n (decide (1024 < ds.length))) ++ List.replicate 9 0
    ++ natLe 2 (min poisonRecords rest.length) ++ List.replicate 20 0
    ++ ((rest.take poisonRecords).flatMap fun d => natLe 8 (d + 2) ++ natLe 4 1024 ++ List.replicate 4 0)

/-- The mailbox returns the poison list, and keeps where the next command goes on. -/
def State.givePoison (s : State) (p : Nat) (l : LinkId) : State :=
  let rest := ((s.poisonDpas p).take 1024).drop (s.link p l).poisonAt
  (s.mailboxDone p l .success (s.poisonList p l)).modLink p l fun k =>
    { k with poisonAt := if poisonRecords < rest.length then k.poisonAt + poisonRecords else 0 }

/-- No move and no leg of a page is under way (R41, R175). -/
def State.pageFree (s : State) (lpn : Nat) : Bool :=
  (s.moveOn lpn).isNone && !(s.stride.legs.any fun l => !l.done && l.pins.any fun p => p.1 == lpn)

/-- Clear Poison (R175): Invalid Physical Address, or the command waits for the page's moves and legs. -/
def State.clearPoison (s : State) (p : Nat) (l : LinkId) (dpa : Nat) : State :=
  let a := decodePart (s.windowLog2 p) dpa
  let e := s.win p a.extent
  let lpn := e.handle * 32 + a.page
  if !e.valid ∨ (s.page lpn).owner ≠ p ∨ 16 * 2 ^ s.windowLog2 p ≤ dpa then s.mailboxDone p l .invalidPhysicalAddress []
  else { s with map := { s.map with clears := s.map.clears ++ [⟨p, l, lpn⟩] } }

/-- One Clear Poison completes once its page is free. -/
def State.serveClear (s : State) (c : ClearWait) : State :=
  if s.pageFree c.lpn then
    (({ s with map := { s.map with clears := s.map.clears.filter (· != c) } }).clearPage c.lpn).vaultRelease c.lpn
      |>.mailboxDone c.port c.link .success []
  else s

def State.serveClears (s : State) : State := s.map.clears.foldl State.serveClear s

/-- What goes on after a command, with the Clear Poison commands that wait. -/
def State.onward (s : State) : State := s.serveClears.proceed

end Sys2Proof.Machine
end

