-- ==== Sys2Proof/Machine/FalseOps.lean ====
section
/-! DEFINITION. FALSE_START and the end of a stay in GO (R261, R262, R268, R269, R271). -/

namespace Sys2Proof.Machine

/-- A stay in GO ends: GO_SECONDS keeps its time. -/
def State.leaveGo (s : State) : State :=
  if s.run.state = 2 then { s with run := { s.run with goAccum := s.run.goAccum + (s.now - s.run.goSince) } } else s

/-- T9_READY driven (R271). -/
def State.setReady (s : State) (v : Bool) : State :=
  if s.run.ready = v then s else ({ s with run := { s.run with ready := v } }).emit (.readyPin v)

/-- FIELD_EN driven; low, the Field domain and its PLLs lose power and the stacks their readings (R256, R260, Table 7.9). -/
def State.setField (s : State) (v : Bool) : State :=
  let s1 := if s.run.fieldEn = v then s else s.emit (.fieldEnPin v)
  if v then { s1 with run := { s1.run with fieldEn := true, fieldPower := 1 } }
  else { s1 with
    run := { s1.run with fieldEn := false, fieldPg := false, fieldPower := 0, fieldReady := false, plls := s1.run.plls &&& 0x3E }
    tier := { s1.tier with
      stackTemp := List.replicate 8 (-32768), stackHot := List.replicate 8 false, slotsBuilt := false, pcs := [], slotsUsed := [],
      deferred := [] } }

/-- Receiver termination removed from every port: its links are down (Table 8.7, R191). -/
def State.closePorts (s : State) : State :=
  let s1 := { s with run := { s.run with portsReleased := false } }
  (upto 4).foldl (fun s p =>
    if s.portPresent p then
      (s.modPort p fun x => { x with a := { x.a with state := 0 }, b := { x.b with state := 0 } }).emit (.termination p false)
    else s) s1

/-- WAKE_N of every port is released (Table 8.7). -/
def State.releaseWakes (s : State) : State :=
  (upto 4).foldl (fun s p => if (s.port p).wake then (s.modPort p fun x => { x with wake := false }).emit (.wakeN p false) else s) s

/-- The slots of passes under way are no longer frozen (R20). -/
def State.endPasses (s : State) : State :=
  let s1 := s.map.passes.foldl (fun s x => s.setFrozen x.giver x.from_ false) s
  { s1 with map := { s1.map with passes := [] } }

/-- The work in progress of the Field domain is gone; the journals of its moves stay in the distance tier (R268 item 1, R75). -/
def State.dropWork (s : State) : State :=
  let s1 := s.endPasses
  let idle := fun (g : Engine) => { g with drained := false }
  { s1 with
    reqs := [], xfers := []
    map := { s1.map with clears := [] }
    stride := { s1.stride with jobs := [], legs := [], partials := [], engines := s1.stride.engines.map idle }
    relay := { s1.relay with items := [], builds := [], engines := s1.relay.engines.map idle }
    test := { s1.test with lap := none }
    tier := { s1.tier with march := [] } }

/-- What a distance write serves: a block of a page, or metadata; fill, scrub and reserve writes serve none (R269). -/
def QOwner.lost : QOwner → Option LostWrite
  | .metadata w => some w
  | .work _ lpn b => some (.data lpn b)
  | _ => none

/-- The lost-write record of a channel: every write in its queue, merged ones included, with plot and granule, and the metadata
writes of swaps that still wait for the queue (R269; DEDUCED, log entry 67). -/
def State.lostOn (s : State) (c : Nat) : List Lost :=
  let mine := fun (g : Nat) (o : QOwner) => o.lost.map fun w => (⟨c, g, w⟩ : Lost)
  ((s.chan c).q.writes.flatMap fun e => (e.owner :: e.also).filterMap (mine e.granule))
    ++ s.tier.flows.filterMap fun f => match f.unit == .dist c, f.owner with
      | true, .metadata w => some ⟨c, f.first, w⟩
      | _, _ => none

/-- The distance queues end: issued while the Field domain has power, else entered in the lost-write record (R268 item 3, R269). -/
def State.drainQueues (s : State) (powered : Bool) : State :=
  let lost := (upto 16).flatMap s.lostOn
  let chans := s.tier.chans.map fun c => { c with q := DramQ.empty, exiting := false, filling := false }
  { s with
    tier := { s.tier with chans := chans, flows := [] }
    run := { s.run with lost := if powered then s.run.lost else s.run.lost ++ lost } }

/-- Every channel that is not OUT enters self-refresh; an evacuating channel keeps its state number and goes on with the evacuation
later (R145, R146, R268 item 3). -/
def State.holdChannels (s : State) : State :=
  let chans := s.tier.chans.map fun c => { c with state := if c.state = 1 ∨ c.state = 2 then 3 else c.state, exiting := false }
  { s with tier := { s.tier with chans := chans } }

/-- FALSE_START with a cause; the caller has raised its event (R268). Only SET, GO and PAUSE lead there (Table 12.3). The channels enter
self-refresh and the retention latch is set (R262). -/
def State.falseStart (s : State) (cause : Nat) : State :=
  if s.run.state < 1 ∨ 3 < s.run.state then s
  else
    let powered := s.run.fieldEn && s.run.fieldPg && cause != 0x0901
    let s1 := s.leaveGo
    let s2 := { s1 with run := { s1.run with
      state := 4, trans := .none, reqStatus := 0, cause := cause, retention := true, fromFalse := true } }
    let s3 := ((s2.dropWork.closePorts.releaseWakes.setReady false).drainQueues powered).holdChannels
    if cause = 0x0901 ∨ cause = 0x0906 then s3.setField false else s3

end Sys2Proof.Machine
end

