-- ==== Sys2Proof/Machine/ChoiceOps.lean ====
section
/-! DEFINITION. Choices of firmware core 1: demotion, reclaim, promotion of bypassed pages, and what it tells a policy module
(R30, R82, R83, R133, Tables 11.13, 11.14). -/

namespace Sys2Proof.Machine

/-- Time since the last access of a page, in ns. -/
def State.idleNs (s : State) (lpn : Nat) : Nat := s.now - (s.use lpn).lastAccess

/-- The bib a page is charged to (R133). -/
def State.chargedBib (s : State) (lpn : Nat) : Nat := s.num (0x2100 + s.region lpn) 8

/-- The bib's charged slots exceed BIB_SPRINT_SHARE, in 0.01% of all slots. -/
def State.overShare (s : State) (b : Nat) : Bool := decide (s.num (0x7010 + b) 9 * s.allSlots < 10000 * s.chargedSlots b)

/-- No item or move of the page is there. -/
def State.quiet (s : State) (lpn : Nat) : Bool := (s.moveOn lpn).isNone && !(s.relay.items.any fun i => i.lpn == lpn && isMove i.kind)

/-- The order of section 4.6 under R133: while slots are short pages of bibs over their share first; oldest first. -/
def State.demoteBefore (s : State) (a b : Nat) : Bool :=
  let x := s.slotsLow && s.overShare (s.chargedBib a)
  let y := s.slotsLow && s.overShare (s.chargedBib b)
  (x && !y) || (x == y && decide ((s.use a).lastAccess ≤ (s.use b).lastAccess))

/-- A page is demoted or written back (R83). -/
def State.demoteOne (s : State) (lpn : Nat) (chan : Option Nat) : State :=
  let e := s.view lpn
  if !s.quiet lpn then s
  else
    let raise := fun (k : ItemKind) => if chan.isSome then s.addFirmware k lpn chan else s.raiseMove k lpn
    if moveFits .demote e then raise .demote
    else if moveFits .writeback e then raise .writeback
    else s

/-- Candidates: untouched for DEMOTE_IDLE. -/
def State.demoteReady (s : State) (lpn : Nat) : Bool := decide (1000 * s.num 0x5000 5 ≤ s.idleNs lpn)

/-- The candidates in an order, demoted one by one. -/
def State.demoteList (s : State) (lpns : List Nat) : State := (lpns.filter s.demoteReady).foldl (fun s l => s.demoteOne l none) s

/-- The built-in choice among candidates. -/
def State.demoteBuiltIn (s : State) (lpns : List Nat) : State := s.demoteList (sortBy s.demoteBefore lpns)

/-- A firmware promotion of a page in the distance tier. -/
def State.promoteOne (s : State) (lpn : Nat) : State :=
  if s.quiet lpn ∧ moveFits .promote (s.view lpn) then s.addFirmware .promote lpn none else s

/-- The built-in rule of a COUNTER_EPOCH (R82). -/
def State.promoteDue (s : State) (lpns : List Nat) : State :=
  (lpns.filter fun l => decide (s.num 0x5000 6 ≤ (s.use l).bypasses)).foldl State.promoteOne s

/-- Below the low mark firmware also compacts plot runs: of the listed pages whose only copy is in the distance tier (R36; which pages is
the command's, DESIGN CHOICE, log entry 64). -/
def State.compactList (s : State) (lpns : List Nat) : State :=
  lpns.foldl (fun s l => if s.quiet l ∧ moveFits .compact (s.view l) then s.raiseMove .compact l else s) s

/-- The slot of a page can be reclaimed: it is clean (R30), and its distance copy does not lie on an evacuating channel (R154). -/
def State.reclaimable (s : State) (lpn : Nat) : Bool :=
  s.quiet lpn && (s.page lpn).twoCopies && (s.chan (s.page lpn).channel).state != 4

/-- No other page that can be reclaimed goes before this one while slots are short (R133). -/
def State.reclaimNext (s : State) (lpn : Nat) : Bool :=
  !s.slotsLow || s.map.pages.all fun x => x.1 == lpn || !s.reclaimable x.1 || s.demoteBefore lpn x.1

/-- The sprint slot of a clean page is reclaimed (R30, R154). -/
def State.reclaim (s : State) (lpn : Nat) : State :=
  let e := s.page lpn
  if !s.reclaimable lpn then s
  else
    let new := if e.st = 6 then { e with vLoc := 3, slot := 0 } else { e with st := 3, slot := 0 }
    (s.swapPage lpn new).release lpn (.slot e.home e.slot)

/-! ### What a policy module sees -/

/-- A candidate record (Table 11.14). -/
def State.candidateRec (s : State) (lpn : Nat) : List Byte :=
  let e := s.view lpn
  let u := s.use lpn
  natLe 4 lpn ++ natLe 4 (min (s.idleNs lpn / 1000) 0xFFFFFFFF) ++ natLe 1 (s.chargedBib lpn) ++ natLe 1 (s.page lpn).st
    ++ natLe 1 (if e.inDist then plotsFor (imageGranules e.codes) else 0) ++ natLe 1 (if e.inDist then e.channel else 0xFF)
    ++ natLe 2 (min u.accesses 0xFFFF) ++ natLe 1 (min u.bypasses 0xFF) ++ [0]

/-- A two's complement I16. -/
def i16 (x : Int) : List Byte := natLe 2 (x % 65536).toNat

/-- The channel table of hook 2 (section 11.9). -/
def State.channelTable (s : State) : List Byte :=
  (upto 16).flatMap fun c =>
    natLe 8 (s.chanFree c) ++ natLe 1 (s.chan c).state ++ natLe 1 (c / 4) ++ natLe 1 (b2n (s.guarded c)) ++ [0]
      ++ i16 (s.chan c).temp ++ [0, 0]

/-! ### Built-in choices and replies -/

/-- The built-in choice for a call: its fallback (R254). -/
def State.builtIn (s : State) (h : HookCall) : State :=
  if !s.core1Runs then s
  else if h.hook = 1 then s.demoteBuiltIn h.lpns
  else if h.hook = 2 then h.lpns.foldl (fun s l => s.demoteOne l none) s
  else if h.hook = 3 then s.promoteDue h.lpns
  else s

/-- The run a demotion or write-back of a page needs is on the channel (R254). -/
def State.channelFits (s : State) (lpn c : Nat) : Bool :=
  let e := s.view lpn
  (s.chan c).state == 2 && (s.placeRun c (imageGranules e.codes) (if e.inDist then s.runOf e else none)).isSome

/-- The channel a module names: given to the page's waiting item, or to a new one. -/
def State.nameChannel (s : State) (lpn c : Nat) : State :=
  if s.relay.items.any fun i => i.lpn == lpn && !i.running && (i.kind == .demote || i.kind == .writeback) then
    let f := fun (i : Item) =>
      if i.lpn = lpn ∧ !i.running ∧ (i.kind = .demote ∨ i.kind = .writeback) then { i with chan := some c } else i
    { s with relay := { s.relay with items := s.relay.items.map f } }
  else s.demoteOne lpn (some c)

end Sys2Proof.Machine
end

