-- ==== Sys2Proof/Machine/CoachOps.lean ====
section
/-! DEFINITION. Coach cores within the T9, and the policy slot (R230, R239, R240, R245, R246, R252-R254). -/

namespace Sys2Proof.Machine

def State.core (s : State) (n : Nat) : Core := nth s.cores coreReset n

/-! ### The policy slot (R230, R253, R254) -/

/-- A field of the stored module. -/
def hookEntry (image : List Byte) (k : Nat) : Nat := field image (0x18 + 4 * k) 4

/-- Bytes of a part of policy SRAM, in whole 4 KiB. -/
def sramPart (n : Nat) : Nat := ceilDiv n 4096 * 4096

/-- Data base of a module: the next 4 KiB boundary after its code (R253). -/
def dataBase (image : List Byte) : Nat := 0x00400000 + sramPart (field image 0x08 4)

/-- End of a module's execute-only code. -/
def State.codeEnd (s : State) : Nat := if s.dict.policy.isEmpty then 0x00400000 else dataBase s.dict.policy

/-- Policy SRAM with a module in it: code, then data; the rest is zero. -/
def policyMemory (image : List Byte) : Memory :=
  let code := field image 0x08 4
  let data := field image 0x0C 4
  let m := Memory.writeN [] 0 (slice image 0x80 code)
  m.writeN (sramPart code) (slice image (0x80 + code) data)

/-- Core 3 is back in its dispatcher: the module's windows are discarded as CUTW discards them, and the dispatcher's is filled back when it was
spilled (R251, R254). -/
def Core.hookEnd (h : HookCall) (c : Core) : Core :=
  let cut := c.wdepth - h.depth
  let c1 := { c with
    top := (c.top + 11 * cut - cut) % 11, resident := c.resident - cut, spilled := c.spilled.drop (cut - c.resident), wait := .none }
  let c2 := if c1.resident = 0 then { c1 with wait := .fill } else c1
  { c2 with cstat := mkCstat true true c.pend c.saved false, pc := h.ret }

/-- Where the order array or the decision bitmap of a call begins: after its candidates. -/
def HookCall.answerAt (h : HookCall) : Nat := h.base + 16 * h.lpns.length

/-- g4, g5 and g6 of a call (Table 11.13); the epoch number for EPOCH. -/
def HookCall.args (h : HookCall) (epoch : Nat) : List Nat :=
  match h.hook with
  | 0 => [h.base]
  | 1 => [h.base, h.lpns.length, h.answerAt]
  | 2 => [h.base, h.answerAt, 0]
  | 3 => [h.base, h.lpns.length, h.answerAt]
  | _ => [epoch % 2 ^ 32]

/-- What core 1 puts into policy SRAM for a call. -/
def State.hookInput (s : State) (h : HookCall) : List Byte :=
  if h.hook = 1 ∨ h.hook = 3 then h.lpns.flatMap s.candidateRec
  else if h.hook = 2 then h.lpns.flatMap s.candidateRec ++ s.channelTable
  else []

/-- Granule accesses of a window that moves to or from a core's overflow area, in the mirrored metadata region, with FIRMWARE_BIB: a spill
writes both copies, a fill reads the first (R138, R239; DESIGN CHOICE, log entry 12: the place is a free value). -/
def State.windowFlows (s : State) (n pos : Nat) (write : Bool) : State :=
  let key := 2 ^ 29 + n * 16384 + pos
  let c := Config.stripe (2 ^ 32 + n * 16384 + pos) % 16
  let go := fun (s : State) (c : Nat) =>
    s.addFlow (.window n) (.dist (s.stripeHolder c)) write (s.metaGranule c key) 1 (some s.firmwareBib) none
  if write then go (go s c) (mirrorOf c) else go s c

/-- A core goes on: the windows it starts to spill or to fill beyond its locker enter the distance queues (R239). -/
def State.coreGoes (s : State) (n : Nat) (c : Core) : State :=
  let old := s.core n
  let s1 := { s with cores := updAt s.cores n fun _ => c }
  if c.state ≠ 0 then s1
  else if c.spilling ∧ !old.spilling ∧ c.lockerHi ≤ c.spillCount then s1.windowFlows n c.spillCount true
  else if c.wait = .fill ∧ old.wait ≠ .fill ∧ c.lockerHi < c.spillCount then s1.windowFlows n (c.spillCount - 1) false
  else s1

/-- A hook is called: core 1 waits for core 3 (Table 11.13). -/
def State.callHook (s : State) (hook : Nat) (lpns : List Nat) (base : Nat) : State :=
  let e := hookEntry s.dict.policy hook
  let c := s.core 3
  if s.dict.policyState ≠ 2 ∨ s.dict.hook.isSome ∨ 4 < hook ∨ e = 0 ∨ !c.ready then s
  else
    let h : HookCall := ⟨hook, lpns, base, c.wdepth, c.pc⟩
    let c1 := { c with policySram := c.policySram.writeN (base - 0x00400000) (s.hookInput h) }
    ({ s with dict := { s.dict with hook := some h } }).coreGoes 3 (c1.hookEnter s.ovfReach e (h.args s.dict.epoch))

/-- The stored module starts, with INIT, when the policy is enabled (R230, R254); without one the state is empty or stored. -/
def State.startPolicy (s : State) : State :=
  let st := if s.dict.policy.isEmpty then 0 else if s.num 0x8040 3 = 1 then 2 else 1
  let s1 := { s with dict := { s.dict with policyState := st, hook := none } }
  if st = 2 then
    ({ s1 with cores := updAt s1.cores 3 fun c => { c with policySram := policyMemory s.dict.policy } }).callHook
      0 [] (dataBase s.dict.policy)
  else s1

/-- Three faults in 60 s are counted anew once the module is enabled or replaced (R254; DESIGN CHOICE, log entry 78). -/
def State.forgive (s : State) : State := { s with dict := { s.dict with policyFaults := [] } }

/-- A policy fault: the call is abandoned and counted; core 1 uses its built-in choice, and the third fault within
60 s disables the module (R254). -/
def State.policyFault (s : State) : State :=
  let ts := (s.dict.policyFaults.filter fun t => decide (s.now < t + 60000000000)) ++ [s.now]
  let s0 := { s with dict := { s.dict with hook := none, policyFaults := ts } }
  let s2 := match s.dict.hook with
    | some h => (((s0.coreGoes 3 ((s.core 3).hookEnd h)).bump 0x8040 4).raise 0x0B10 (unitCore 3) h.hook 0).builtIn h
    | none => (s0.bump 0x8040 4).raise 0x0B10 (unitCore 3) 0 0
  if 3 ≤ ts.length then ({ s2 with dict := { s2.dict with policyState := 4 } }).raise 0x0B11 (unitCore 3) 0 0 else s2

/-- A hook call ends in time. -/
def State.hookOver (s : State) (h : HookCall) (value : Nat) : State :=
  ({ s with dict := { s.dict with hook := none } }).coreGoes 3 (((s.core 3).setG 4 (BitVec.ofNat 32 value)).hookEnd h)

/-- The order array of a DEMOTE_RANK reply. -/
def State.orderOf (s : State) (h : HookCall) : List Nat :=
  (upto h.lpns.length).map fun i => leNat ((s.core 3).policySram.readN (h.answerAt - 0x00400000 + 2 * i) 2)

/-- A permutation of 0 to n - 1. -/
def isOrder (n : Nat) (xs : List Nat) : Bool := xs.length == n && (upto n).all xs.contains

/-- The decision bitmap of a PROMOTE reply. -/
def State.bitmapOf (s : State) (h : HookCall) : Nat :=
  leNat ((s.core 3).policySram.readN (h.answerAt - 0x00400000) (ceilDiv h.lpns.length 8))

/-- A reply in time: a valid one is used, an invalid one is a policy fault (Table 11.13, R254). -/
def State.hookReply (s : State) (value : Nat) : State :=
  match s.dict.hook with
  | none => s
  | some h =>
    let after := s.hookOver h value
    match h.hook with
    | 0 => if value = 0 then after else s.policyFault
    | 1 =>
      if value = 1 then after.builtIn h
      else if value = 0 ∧ isOrder h.lpns.length (s.orderOf h) then
        (if s.core1Runs then after.demoteList ((s.orderOf h).map fun i => nth h.lpns 0 i) else after)
      else s.policyFault
    | 2 =>
      let lpn := nth h.lpns 0 0
      if value = 0xFF then after.builtIn h
      else if value < 16 ∧ s.channelFits lpn value then (if s.core1Runs then after.nameChannel lpn value else after)
      else s.policyFault
    | 3 =>
      if value = 1 then after.builtIn h
      else if value = 0 then
        (if s.core1Runs then (h.lpns.zipIdx.filter fun x => bit (s.bitmapOf h) x.2).foldl (fun s x => s.promoteOne x.1) after else after)
      else s.policyFault
    | _ => after

/-! ### Cores (R245, R246) -/

/-- A core has halted: event 0x0B01; a halt of core 0 stops the T9, one of core 3 ends its hook call. -/
def State.coreHalted (s : State) (n : Nat) : State :=
  let s1 := s.raise 0x0B01 (unitCore n) 0 0
  if n = 0 then s1.falseStart 0x0B01
  else if n = 3 ∧ s1.dict.hook.isSome then s1.policyFault
  else s1

/-- A core after a step: halts and double faults are reported and counted (R245). -/
def State.putCore (s : State) (n : Nat) (c : Core) : State :=
  let old := s.core n
  let s1 := s.coreGoes n c
  let s2 := if old.doubleFaults < c.doubleFaults then s1.bump (0x8010 + n) 3 else s1
  if old.state = 0 ∧ c.state = 1 then s2.coreHalted n else s2

/-- A core of the T9 runs: MARKS and an unpowered T9 run none. -/
def State.coreRuns (s : State) (n : Nat) : Bool := decide (n < 4) && (s.core n).state == 0 && decide (1 ≤ s.run.state ∧ s.run.state ≤ 4)

/-- User mode was left by a trap other than TRAP, or by OVERFLOW (R254). -/
def Core.moduleTrap (old c : Core) : Bool :=
  let cause := c.ecause.toNat % 256
  !old.sup && c.sup && (c.tw || (decide (32 ≤ cause) && cause != 0x27))

/-- A word of the trace port of a core, on the DBG pins while the mux is unlocked and shows it (Table 13.8, R284): kind 0 a fetch group, 1 a
retired instruction, 2 a trap. -/
def State.trace (s : State) (n kind : Nat) (squashed : Bool) (value : Nat) : State :=
  if s.test.unlocked ∧ s.num 0xA100 3 = n + 1 then s.emit (.dbg (0x8000 + 0x4000 * b2n squashed + 0x1000 * kind + value % 4096)) else s

/-- The cause of a trap or interrupt entry that a step has made (R242, R243). -/
def Core.tookTrap (old c : Core) : Option Nat :=
  if c.tw && !old.tw then some 0x2F
  else if c.top ≠ old.top ∧ c.sup ∧ c.pend ∧ !c.ie ∧ c.pc = c.evec + BitVec.ofNat 32 (16 * (c.ecause.toNat % 256)) then
    some (c.ecause.toNat % 256)
  else none

/-- What a step of a core puts on its trace port: a trap, or an instruction that is done, an abandoned CALLW not (R252, R284). -/
def State.traceStep (s : State) (n : Nat) (old c : Core) : State :=
  match old.tookTrap c with
  | some k => s.trace n 2 false k
  | none => if c.pc ≠ old.pc ∧ c.state = 0 then s.trace n 1 false (old.pc.toNat / 4) else s

/-- A step of a running core; during a hook call such a trap is a policy fault (R254). -/
def State.stepCore (s : State) (n : Nat) (f : Core → Core) : State :=
  if !s.coreRuns n then s
  else
    let old := s.core n
    let c := f old
    let s1 := (s.putCore n c).traceStep n old c
    if n = 3 ∧ s1.dict.hook.isSome ∧ c.state = 0 ∧ old.moduleTrap c then s1.policyFault else s1

/-- An instruction of a core that waits for no window. -/
def State.runCore (s : State) (n : Nat) (f : Core → Core) : State := if (s.core n).ready then s.stepCore n f else s

/-- A halted core restarts at its Azmor entry (R246); core 3 restarts the module when the policy is enabled. -/
def State.restartCore (s : State) (n : Nat) : State :=
  if n = 0 ∨ 3 < n ∨ (s.core n).state ≠ 1 then s
  else
    let s1 := ({ s with cores := updAt s.cores n fun c => c.restart (Config.azmorEntry n) }).bump (0x8010 + n) 2
    if n = 3 ∧ s1.dict.policyState = 2 then s1.startPolicy else s1

/-- A core is made to halt (R225, R246): its hook call ends as a fault. -/
def State.haltCore (s : State) (n : Nat) : State :=
  if (s.core n).state = 0 then ({ s with cores := updAt s.cores n Core.halt }).coreHalted n else s

end Sys2Proof.Machine
end

