-- ==== Sys2Proof/Machine/ReplyOps.lean ====
section
/-! DEFINITION. Replies of the two doors, and the accesses that wait for a flash store (R202, R205, R211, R229, R230). -/

namespace Sys2Proof.Machine

/-! ### Replies (R205, R211) -/

/-- The last 8 replies of a cache. -/
def cachePut (c : List (Nat × List Byte)) (seq : Nat) (frame : List Byte) : List (Nat × List Byte) :=
  let c1 := c ++ [(seq, frame)]
  c1.drop (c1.length - 8)

def State.srcCache (s : State) (src : Nat) : List (Nat × List Byte) := mget s.dict.srcCaches [] src

/-- A reply of a sessionless request is kept for its source address. -/
def State.cacheSrc (s : State) (src seq : Nat) (frame : List Byte) : State :=
  { s with dict := { s.dict with srcCaches := mput s.dict.srcCaches [] src (cachePut (s.srcCache src) seq frame) } }

def State.session (s : State) (id : Nat) : Option Session := s.dict.sessions.find? fun x => x.id == id

def State.modSession (s : State) (id : Nat) (f : Session → Session) : State :=
  { s with dict := { s.dict with sessions := updFirst (fun x => x.id == id) f s.dict.sessions } }

/-- Frames refused with abort 0x61 are counted (Table 9.8). -/
def State.countRefusal (s : State) (abort : Nat) : State := if abort = 0x61 then s.bump 0x1800 9 else s

/-- The reply of a door to a request: a mailbox output, a Welair frame to the request's source address and port (R208) that is kept in its
reply cache, or, for a command that names no frame, its contents. -/
def State.reply (s : State) (d : Door) (op : Nat) (back : Option ReplyTo) (index sub type offset flags abort : Nat) (data : List Byte) :
    State :=
  match d, back with
  | .infield p l, _ => s.mailboxDone p l .success (infieldReply abort type flags data)
  | .field src, some b =>
    let f := welair op (1 + flags) abort 0 b.seq index sub type offset data
    ((s.countRefusal abort).emit (.frame b.src b.udp f)).cacheSrc src b.seq f
  | .session id, some b =>
    match s.session id with
    | none => s
    | some x =>
      let f := tagged x.key (welair op (3 + flags) abort id b.seq index sub type offset data)
      ((s.countRefusal abort).emit (.frame b.src b.udp f)).modSession id fun y => { y with cache := cachePut y.cache b.seq f }
  | _, none => (s.countRefusal abort).emit (.answer d abort type data)

/-! ### Stores that an access waits for (R202, R205, R229, R230) -/

/-- Type code of an object; 0 where there is none. -/
def typeCode (index sub : Nat) : Nat := ((findObj index sub).map (·.ty)).getD 0

/-- A module replaces the stored one; when the policy is enabled core 3 restarts and runs it (R230, R254). -/
def State.takeModule (s : State) (image : List Byte) : State :=
  if s.num 0x8040 3 = 1 then
    let s1 := if s.dict.hook.isSome then s.policyFault else s
    let s2 := { s1 with
      dict := { s1.dict with policy := image, policyFaults := [] }
      cores := updAt s1.cores 3 fun c => c.restart (Config.azmorEntry 3) }
    (s2.bump 0x8013 2).startPolicy
  else { s with dict := { s.dict with policy := image, policyState := 1 } }

/-- What is stored takes effect: an Azmor image in the bank not in use (R229), a policy module, or a write-once value (R202). -/
def State.takeStored (s : State) (index sub : Nat) (v : List Byte) : State :=
  match index, sub with
  | 0x8000, 3 => ({ s with dict := { s.dict with azmorOther := v, azmorNew := true } }).setNum 0x8000 4 2
  | 0x8040, 1 => s.takeModule v
  | _, _ => { s with dict := { s.dict with wonce := s.dict.wonce ++ [(okey index sub, v)] } }

/-- The first access that waits for the store of an object takes effect and is answered (R205); a mailbox reset meanwhile has no
reply. -/
def State.storeDone (s : State) (index sub : Nat) : State :=
  match s.dict.waiting.find? fun w => w.index == index && w.sub == sub with
  | none => s
  | some w =>
    let s1 := ({ s with dict := { s.dict with waiting := s.dict.waiting.erase w } }).takeStored index sub w.value
    if w.mute then s1 else s1.reply w.door w.op w.back index sub (typeCode index sub) w.offset 0 0 []

/-- Every such access is completed (R204). -/
def State.storesDone (s : State) : State := s.dict.waiting.foldl (fun s w => s.storeDone w.index w.sub) s

end Sys2Proof.Machine
end

