-- ==== Sys2Proof/Machine/TierOps.lean ====
section
/-! DEFINITION. Channels and pseudo-channels going out of service, errors, refresh rate and self-refresh (R144-R146, R152-R156, R160,
R163, R282). -/

namespace Sys2Proof.Machine

/-! ### Losing a copy (Table 2.9) -/

/-- The entry after its distance copy is lost; a vault page falls back to its sprint copy (R154 step 3, R155). -/
def Page.lostDist (e : Page) : Page :=
  if e.st = 4 ∨ e.st = 5 then { e with st := if e.anyCoded then 2 else 1, channel := 0, plot := 0 }
  else if e.st = 6 ∧ (e.vLoc = 1 ∨ e.vLoc = 2) then { e with vLoc := 0, channel := 0, plot := 0 }
  else e

/-- The entry after its clean sprint copy is dropped (R163). -/
def Page.lostSprint (e : Page) : Page :=
  if e.st = 4 then { e with st := 3, slot := 0 }
  else if e.st = 6 ∧ e.vLoc = 1 then { e with vLoc := 3, slot := 0 }
  else e

/-- Pages with a distance copy on a channel, in ascending plot order. -/
def State.onChannel (s : State) (c : Nat) : List (Nat × Page) :=
  sortBy (fun a b => decide (a.2.plot < b.2.plot)) (s.map.pages.filter fun x => (s.view x.1).inDist && x.2.channel == c)

/-- Pages with a sprint copy on a pseudo-channel. -/
def State.onPc (s : State) (st pc : Nat) : List (Nat × Page) :=
  s.map.pages.filter fun x => (s.view x.1).inSprint && x.2.home == st && x.2.slot % 32 == pc

/-- A move with a side on a channel. -/
def Move.onChannel (m : Move) (c : Nat) : Bool :=
  (m.prior.inDist && m.prior.channel == c) || (match m.run with
    | some r => r.chan == c
    | none => false)

/-- A move with a side on a pseudo-channel. -/
def Move.onPc (m : Move) (st pc : Nat) : Bool :=
  m.prior.home == st && ((m.prior.inSprint && m.prior.slot % 32 == pc) || (match m.slot with
    | some sl => sl % 32 == pc
    | none => false))

/-- Reads are dispatched again, without the items that served them. -/
def State.reread (s : State) (ids : List Nat) : State :=
  let again := fun (r : Req) => if ids.contains r.id then { r with stage := .hold } else r
  { s with
    reqs := s.reqs.map again
    relay := { s.relay with items := s.relay.items.filter fun i => match i.req with
      | some r => !(ids.contains r)
      | none => true } }

/-- Every granule of a read has arrived: an engine works on its data (R46). -/
def State.obtained (s : State) (r : Req) : Bool :=
  r.stage == .item && (match s.relay.items.find? fun i => i.kind == .bypass && i.req == some r.id with
    | some i => i.running && !(s.dramQ (.dist r.entry.channel)).holds r.id
    | none => true)

/-- Reads of a lost copy that have not obtained all their data are dispatched again; the others go on with it (R46). -/
def State.rereadWhere (s : State) (f : Req → Bool) : State :=
  s.reread ((s.reqs.filter fun r =>
    !r.write && (r.stage == .dram || r.stage == .item || r.stage == .queue) && !s.obtained r && f r).map (·.id))

/-- A read was looked up on a channel, or on a pseudo-channel. -/
def Req.onChan (r : Req) (c : Nat) : Bool := r.entry.distOnly && r.entry.channel == c
def Req.onPc (r : Req) (st pc : Nat) : Bool := r.entry.inSprint && r.entry.home == st && r.entry.slot % 32 == pc

/-- The space of every run of a channel leaves the lists. -/
def State.dropRuns (s : State) (c : Nat) : State := { s with tier := { s.tier with runs := s.tier.runs.filter fun r => r.chan != c } }

/-! ### Granules that cannot be read -/

/-- An item of its own number whose granules are lost or bad: the good copy of a REPAIR leaves its block without one; a COPY_OUT that the
other copy serves is REPAIRED (R57, R98). -/
def State.itemBad (s : State) (it : Item) (lpn b : Nat) (dist : Bool) : State :=
  if it.kind = .repair then
    ((s.checkEvent 2 lpn b ((s.page lpn).tierUnit dist) 0).losePage lpn).dropItem it.id
  else
    let r := s.checkFail lpn b dist 0
    let s1 := match it.job, r.1 with
      | some j, some _ => r.2.modJob j fun x => { x with repaired := true }
      | _, _ => r.2
    if it.kind = .unseal ∧ !(s1.view lpn).inSprint then s1.dropItem it.id else s1

/-- A granule that a move, an item or a leg reads came back uncorrectable (R68, R75, R152). -/
def State.workBad (s : State) (id lpn b : Nat) (dist : Bool) : State :=
  match s.move id with
  | some m =>
    s.modMove id fun x => if m.step ≤ 2 then { x with srcBad := x.srcBad ++ [b] } else { x with dstBad := x.dstBad ++ [b] }
  | none =>
    match s.item id with
    | some it => s.itemBad it lpn b dist
    | none => s.legBad id lpn b dist

/-- What stood in the queues of a unit that is gone will not arrive: a leg that reads there turns to what its page has become. -/
def State.worksLost (s : State) (os : List QOwner) : State :=
  os.eraseDups.foldl (fun s o => match o with
    | .work id lpn b => s.legLost id lpn b
    | _ => s) s

/-! ### Channels -/

/-- An unreadable channel whose mirror partner is OUT stops the T9 (R155). -/
def State.checkMirror (s : State) (c : Nat) : State :=
  if (s.chan (mirrorOf c)).state = 5 then (s.raise 0x0404 (unitChan c) 0 0).falseStart 0x0404 else s

/-- EVACUATE items for the pages whose only copy lies on the channel (R154 step 2). -/
def State.evacuatePages (s : State) (c : Nat) : State :=
  ((s.onChannel c).filter fun x => x.2.distOnly && !(s.relay.items.any fun i => i.kind == .evacuate && i.lpn == x.1)).foldl
    (fun s x => s.raiseMove .evacuate x.1) s

/-- A readable channel starts its evacuation (R154 steps 1 and 2). -/
def State.evacuate (s : State) (c reason : Nat) : State :=
  if (s.chan c).state = 2 ∨ (s.chan c).state = 3 then
    let s1 := (s.modChan c fun x => { x with state := 4, reason := reason, exiting := false }).recapacity
    (s1.raise 0x0401 (unitChan c) reason 0).evacuatePages c
  else s

/-- A channel goes OUT: reads looked up there are dispatched again, and its stripes go to a spare area. -/
def State.chanOut (s : State) (c : Nat) : State :=
  let s1 := ((s.rereadWhere fun r => r.onChan c).dropRuns c).dropInject (unitChan c)
  ((s1.clearUnit (.dist c)).modChan c fun x => { x with state := 5, exiting := false, filling := false, pool := [] }).respare c

/-- Work that still touches an evacuating channel. -/
def State.evacBusy (s : State) (c : Nat) : Bool :=
  ((s.onChannel c).any fun x => x.2.distOnly) || s.relay.moves.any fun m => m.onChannel c

/-- The evacuation ends (R154 steps 3 to 5): its stripes go to the spare area of another channel, so a mirror partner that is OUT stops
nothing (section 7.11). Pages that came to lie there alone meanwhile are evacuated first. -/
def State.evacDrained (s : State) (c : Nat) : State :=
  if (s.chan c).state ≠ 4 then s
  else if s.evacBusy c then s.evacuatePages c
  else
    let s1 := (s.onChannel c).foldl (fun s x => s.swapIf x.1 (s.page x.1).lostDist) s
    (s1.chanOut c).raise 0x0402 (unitChan c) 0 0

/-- Pages of an unreadable channel lose what lay there (R155, R265); the count is of pages poisoned. -/
def State.loseChannelPages (s : State) (c : Nat) : State × Nat :=
  (s.onChannel c).foldl (fun acc x =>
    let e := acc.1.page x.1
    if e.distOnly then (acc.1.poisonPage x.1, acc.2 + 1) else (acc.1.swapIf x.1 e.lostDist, acc.2)) (s, 0)

/-- A channel becomes unreadable (R155). -/
def State.unreadable (s : State) (c reason : Nat) : State :=
  if (s.chan c).state = 5 ∨ (s.chan c).state = 0 then s
  else
    let owners := s.ownersOn (.dist c)
    let s1 := (s.chanOut c).modChan c fun x => { x with reason := reason, readable := false }
    let s2 := s1.raise 0x0401 (unitChan c) reason 0
    let s3 := (s2.relay.moves.filter fun m => m.onChannel c).foldl State.undoMove s2
    let r := s3.loseChannelPages c
    let s4 := (r.1.dropRuns c).worksLost owners
    ((s4.raise 0x0403 (unitChan c) 0 r.2).recapacity).checkMirror c

/-! ### Pseudo-channels (R163) -/

/-- Every pseudo-channel of a stack OUT stops the T9. -/
def State.checkStack (s : State) (st : Nat) : State :=
  if (upto 32).all fun i => (s.pc st i).out == 2 then (s.raise 0x0484 (unitPc st 0) 0 0).falseStart 0x0484 else s

/-- DEMOTE or WRITEBACK for every dirty page of a draining pseudo-channel. -/
def State.demotePc (s : State) (st pc : Nat) : State :=
  ((s.onPc st pc).filter fun x => (s.view x.1).dirty).foldl (fun s x =>
    let k : ItemKind := if moveFits .demote (s.view x.1) then .demote else .writeback
    if s.relay.items.any fun i => i.lpn == x.1 && (i.kind == .demote || i.kind == .writeback) then s
    else s.raiseMove k x.1) s

/-- A readable pseudo-channel starts to drain: its slots leave the free list with event 0x0480. -/
def State.drainPc (s : State) (st pc reason : Nat) : State :=
  if (s.pc st pc).out = 0 then
    ((s.modPc st pc fun x => { x with out := 1 }).raise 0x0480 (unitPc st pc) reason 0).demotePc st pc
  else s

/-- Clean pages of a pseudo-channel drop their sprint copies. -/
def State.dropClean (s : State) (st pc : Nat) : State :=
  (s.onPc st pc).foldl (fun s x =>
    let e := s.page x.1
    let e2 := e.lostSprint
    if e2 = e then s else (s.swapPage x.1 e2).freeSlot st e.slot) s

/-- A pseudo-channel is OUT: its queue ends, and reads of copies lost there are dispatched again. -/
def State.pcGone (s : State) (st pc : Nat) : State :=
  let s1 := ((s.rereadWhere fun r => r.onPc st pc).dropInject (unitPc st pc)).clearUnit (.pc st pc)
  s1.modPc st pc fun x => { x with out := 2 }

/-- A draining pseudo-channel has no dirty page left (R163 step 3). -/
def State.pcDrained (s : State) (st pc : Nat) : State :=
  if (s.pc st pc).out ≠ 1 then s
  else if ((s.onPc st pc).any fun x => (s.view x.1).dirty) ∨ (s.relay.moves.any fun m => m.onPc st pc) then s.demotePc st pc
  else
    let owners := s.ownersOn (.pc st pc)
    ((((s.pcGone st pc).dropClean st pc).worksLost owners).raise 0x0481 (unitPc st pc) 0 0).checkStack st

/-- A pseudo-channel fails unreadable: OUT at once, its dirty pages are lost. -/
def State.pcLost (s : State) (st pc reason : Nat) : State :=
  if (s.pc st pc).out = 2 then s
  else
    let owners := s.ownersOn (.pc st pc)
    let s1 := (s.pcGone st pc).raise 0x0481 (unitPc st pc) reason 0
    let s2 := (s1.relay.moves.filter fun m => m.onPc st pc).foldl State.undoMove s1
    let dirty := ((s2.onPc st pc).filter fun x => x.2.dirty).map (·.1)
    let s3 := (dirty.foldl State.poisonPage s2).dropClean st pc
    ((s3.worksLost owners).raise 0x0482 (unitPc st pc) 0 dirty.length).checkStack st

/-! ### Errors (R152, R153, R161, R163, R282) -/

def unitOf : DramUnit → Nat
  | .dist c => unitChan c
  | .pc st p => unitPc st p

/-- Times within ERR_WINDOW. -/
def State.recent (s : State) (ts : List Nat) : List Nat := ts.filter fun t => decide (s.now < t + s.num 0x4100 4 * 1000000000)

/-- Corrected and uncorrectable errors of a unit within ERR_WINDOW. -/
def State.errs (s : State) : DramUnit → List Nat × List Nat
  | .dist c => (s.recent (s.chan c).ces, s.recent (s.chan c).ues)
  | .pc st p => (s.recent (s.pc st p).ces, s.recent (s.pc st p).ues)

/-- CE and UE limits of a unit. -/
def State.limits (s : State) : DramUnit → Nat × Nat
  | .dist _ => (s.num 0x4100 5, s.num 0x4100 6)
  | .pc _ _ => (s.num 0x4880 3, s.num 0x4880 4)

/-- A readable unit is mapped out (R153, R163). -/
def State.mapOut (s : State) (u : DramUnit) (reason : Nat) : State :=
  match u with
  | .dist c => s.evacuate c reason
  | .pc st p => s.drainPc st p reason

/-- An error of a unit is counted, and a unit past its limit is mapped out. -/
def State.countError (s : State) (u : DramUnit) (unc : Bool) : State :=
  let s1 := match u with
    | .dist c => (s.modChan c fun x => if unc then { x with ues := s.recent x.ues ++ [s.now] }
        else { x with ces := s.recent x.ces ++ [s.now] }).bump (0x4002 + 0x10 * c) (if unc then 2 else 1)
    | .pc st p => (s.modPc st p fun x => if unc then { x with ues := s.recent x.ues ++ [s.now] }
        else { x with ces := s.recent x.ces ++ [s.now] }).bump (0x4800 + 0x10 * st) (if unc then 6 else 5)
  if (s1.limits u).1 < (s1.errs u).1.length then s1.mapOut u 3
  else if (s1.limits u).2 < (s1.errs u).2.length then s1.mapOut u 4
  else s1

/-- A unit that runs: a trained channel that is not OUT, a pseudo-channel in service. -/
def State.unitRuns (s : State) : DramUnit → Bool
  | .dist c => (s.chan c).state == 2 || (s.chan c).state == 3 || (s.chan c).state == 4
  | .pc st p => s.stacks.contains st && decide (p < 32) && s.tier.slotsBuilt && (s.pc st p).out != 2

/-- A candidate for map-out (R282). -/
def State.candidate (s : State) (u : DramUnit) : Bool :=
  let l := s.limits u
  let e := s.errs u
  s.unitRuns u && (decide (l.1 < 2 * e.1.length) || decide (ceilDiv l.2 2 ≤ e.2.length))

/-! ### Refresh and temperature (R137, R144, R160) -/

/-- A temperature flag with its two thresholds: above 85 it is set, at 83 or below it is cleared. -/
def hotAfter (hot : Bool) (t : Int) : Bool := if 85 < t then true else if t ≤ 83 then false else hot

/-- A poll of a channel's sensors; a change of the refresh interval raises event 0x0405. -/
def State.pollChan (s : State) (c : Nat) (t : Option Int) : State :=
  match t with
  | none => s.modChan c fun x => { x with temp := -32768 }
  | some v =>
    let hot := hotAfter (s.chan c).hot v
    let s1 := s.modChan c fun x => { x with temp := v, hot := hot }
    if hot = (s.chan c).hot then s1 else s1.raise 0x0405 (unitChan c) 0 0

/-- A reading of a stack's sensor; a change of its refresh rate raises event 0x0483. -/
def State.pollStack (s : State) (st : Nat) (v : Int) : State :=
  let hot := hotAfter (nth s.tier.stackHot false st) v
  let s1 := { s with tier := { s.tier with
    stackTemp := updAt s.tier.stackTemp st fun _ => v, stackHot := updAt s.tier.stackHot st fun _ => hot } }
  if hot = nth s.tier.stackHot false st then s1 else s1.raise 0x0483 (unitPc st 0) 0 0

end Sys2Proof.Machine
end

