-- ==== Sys2Proof/Machine/StartOps.lean ====
section
/-! DEFINITION. Starts, PAUSE entry and exit, resets (R35, R91, R135, R136, R149-R151, R195, R203, R204, R224-R226, R255-R270, R298). -/

namespace Sys2Proof.Machine

/-! ### The persistent image (R203, R204) -/

/-- The P values in effect. -/
def State.persistent (s : State) : List (Nat × Nat) × List (Nat × List Byte) :=
  (s.dict.nums.filter fun x => persists x.1, s.dict.blobs.filter fun x => persists x.1)

/-- Copy A is the older one: invalid, or of the lower sequence number. -/
def DictSt.olderIsA (d : DictSt) : Bool := !d.flashA.valid || (d.flashB.valid && decide (d.flashA.seq < d.flashB.seq))

/-- A store starts into the older copy, which is invalid until it ends (R203). -/
def State.startStore (s : State) : State :=
  let v := s.persistent
  let f : Flash := ⟨(max s.dict.flashA.seq s.dict.flashB.seq + 1) % 2 ^ 32, false, v.1, v.2⟩
  let d := { s.dict with storeRunning := true, storePending := false, storeQueued := false }
  if s.dict.olderIsA then { s with dict := { d with flashA := f } } else { s with dict := { d with flashB := f } }

/-- The running store ends: its copy, the one that is invalid, is valid. -/
def State.endStore (s : State) : State :=
  let d := { s.dict with storeRunning := false }
  if s.dict.flashA.valid then { s with dict := { d with flashB := { d.flashB with valid := true } } }
  else { s with dict := { d with flashA := { d.flashA with valid := true } } }

/-- Stores that are running or pending are completed, and the accesses that wait for one are answered (R204, SOFT_RESET). -/
def State.completeStores (s : State) : State :=
  let s0 := s.storesDone
  let s1 := if s0.dict.storeRunning then s0.endStore else s0
  if s1.dict.storePending ∨ s1.dict.storeQueued then s1.startStore.endStore else s1

/-- The P values of a copy replace those in effect; V values stay. -/
def DictSt.load (d : DictSt) (nums : List (Nat × Nat)) (blobs : List (Nat × List Byte)) : DictSt :=
  { d with
    nums := nums.foldl (fun m x => mput m (dfltOf x.1) x.1 x.2) (d.nums.filter fun x => !persists x.1)
    blobs := blobs.foldl (fun m x => mput m [] x.1 x.2) (d.blobs.filter fun x => !persists x.1) }

/-- The P values of the valid copy with the higher number, or the defaults (R204); crcA and crcB say whether the copies pass their
CRC-32C. -/
def State.load (s : State) (crcA crcB : Bool) : State :=
  let a : Flash := { s.dict.flashA with valid := s.dict.flashA.valid && crcA }
  let b : Flash := { s.dict.flashB with valid := s.dict.flashB.valid && crcB }
  let d := { s.dict with flashA := a, flashB := b }
  if a.valid ∧ (!b.valid ∨ b.seq < a.seq) then { s with dict := d.load a.nums a.blobs }
  else if b.valid then { s with dict := d.load b.nums b.blobs }
  else { s with dict := d.load [] [] }

/-- Step 4 of start-up: the persistent image is restored; one valid copy raises event 0x0120, none 0x0121 (R204). -/
def State.restore (s : State) (crcA crcB : Bool) : State :=
  let s1 := s.load crcA crcB
  let a := s1.dict.flashA.valid
  let b := s1.dict.flashB.valid
  if a ∧ b then s1 else s1.raise (if a ∨ b then 0x0120 else 0x0121) 0 0 0

/-! ### What a start resets (R195, R226, R227, R236, Table 12.7) -/

/-- The ports at their reset values; a link in D3cold keeps its PME bits, and the pins stay as they are (R190, R191). -/
def State.portsDown (s : State) : State :=
  let s1 := (upto 4).foldl (fun s p => s.resetPort p true) s
  let link := fun (old k : Link) =>
    { k with state := 0, dstate := if old.state = 5 ∨ old.dstate = 4 then 4 else 0, pmeEn := old.pmeEn && (old.state == 5 || old.dstate == 4) }
  (upto 4).foldl (fun s1 p => s1.modPort p fun x => { x with
    a := link (s.port p).a x.a, b := link (s.port p).b x.b, suspended := false, slices := List.replicate 10 0, bells := [] }) s1

/-- V objects, counters, the event ring, sessions, contexts and vault keys of the dictionary (R195). -/
def DictSt.atStart (d : DictSt) : DictSt :=
  { d with
    nums := d.nums.filter fun x => persists x.1
    blobs := d.blobs.filter fun x => persists x.1
    commits := [], ctxs := [], sessions := [], srcCaches := [], waiting := [], policyFaults := [], hook := none, epoch := 0
    fieldSilent := false, discoverQ := [] }

/-- A channel at the beginning of a start: to be trained; at a cold start, and where it was OUT, it holds nothing (R156, R263). -/
def Chan.atStart (c : Chan) (warm : Bool) : Chan :=
  { c with
    state := 1, reason := 0, temp := -32768, hot := false, exiting := false, readable := warm && c.readable && c.state != 5, ces := [],
    ues := [], refreshes := 0, trnStatus := 0, filling := false, q := DramQ.empty }

/-- The trackside mux locks and the DBG pins are low (R234). -/
def State.lockMux (s : State) : State :=
  if s.test.unlocked then ({ s with test := { s.test with unlocked := false } }).emit .dbgLow else s

/-- The beginning of a start, cold or warm: SET, with everything volatile at its default. Access counters and the sprint contents
are gone; the journals of moves stay. AZMOR_UPDATE_STATUS keeps 2 while the image in use runs on (R229); WAKE_N is released
(Table 8.7), and the mux locks, since TRACK_UNLOCKED is V (R195). -/
def State.beginStart (s : State) (kind : Nat) : State :=
  let s1 := s.dropWork.portsDown.releaseWakes.lockMux
  let status := s.num 0x8000 4
  let chans := s1.tier.chans.map fun c => c.atStart s.run.retention
  let fresh := fun (x : Port) => { x with urgReport := none, zeroReads := 0, discards := 0 }
  let s2 := { s1 with
    ev := EvSt.reset
    dict := s1.dict.atStart
    run := { s1.run with
      state := 1, trans := .none, reqStatus := 0, startKind := kind, startBegan := s.now, distReady := false,
      portsReleased := false, cause := 0, goAccum := 0, setAt := s.now, throttle := 0 }
    map := { s1.map with uses := [], extents := 0, holdBulk := false, holdStd := false, discardReported := false }
    tier := { s1.tier with
      chans := chans, sprint := [], slotsBuilt := false, pcs := [], slotsUsed := [], deferred := []
      stackTemp := List.replicate 8 (-32768), stackHot := List.replicate 8 false }
    ports := s1.ports.map fresh
    bibs := List.replicate 16 Bib.init
    test := { s1.test with inject := none, lapNext := 0 } }
  if status = 2 then s2.setNum 0x8000 4 2 else s2

/-! ### Training (R135, R136, R149-R151) -/

/-- The configuration R135 compares: RDIMMs on the channel, then capacity, device width, density and ranks of each. -/
abbrev DimmConfig := Nat × Nat × Nat × Nat × Nat

def Dimm.config (n : Nat) (d : Dimm) : DimmConfig := (n, d.gib, d.width, d.density, d.ranks)

/-- The configuration a channel holds; a channel with no RDIMM, or with RDIMMs that differ, holds none. -/
def trainConfig (t : ChanTrain) : Option DimmConfig :=
  match t.dimms.map (Dimm.config t.dimms.length) with
  | [] => none
  | c :: r => if r.all (· == c) then some c else none

/-- The reference configuration: the one most channels hold, ties to the lowest-numbered channel. -/
def reference (ts : List ChanTrain) : Option DimmConfig :=
  let cs := ts.filterMap trainConfig
  let count := fun c => (cs.filter (· == c)).length
  cs.foldl (fun b c => match b with
    | none => some c
    | some x => some (if count x < count c then c else x)) none

/-- The channel passes the population check (R135, R288). -/
def trainPopulated (t : ChanTrain) (ref : Option DimmConfig) : Bool :=
  t.dimms.all (·.codeOk) && ref.isSome && trainConfig t == ref

/-- The data rate (R136). -/
def State.rateOf (s : State) (ts : List ChanTrain) : Nat :=
  let ref := (reference ts).map (·.1)
  let spd := ts.flatMap fun t => t.dimms.map (·.rate)
  min (s.num 0x4100 1) (spd.foldl min (if ref = some 2 then 5200 else 6400))

/-- SPD minimum of a member of CHAN_TIMING for one RDIMM (R151): a cycle member is its time at tCK = 2000 / rate ns, rounded up, or its
cycle count where that is larger; tRFC is its time in whole ns; tREFI has none. -/
def Dimm.minimum (d : Sys2Proof.Dimm) (rate i : Nat) : Nat :=
  let ps := nth d.times 0 i
  if i = 4 then ceilDiv ps 1000 else if i = 5 then 0 else max (ceilDiv (ps * rate) 2000000) (nth d.cycles 0 i)

/-- SPD minima of a channel: the largest of its RDIMMs'. -/
def spdMinima (ds : List Dimm) (rate : Nat) : List Nat := (upto 12).map fun i => (ds.map fun d => Dimm.minimum d rate i).foldl max 0

/-- A training passes: no lane's eye is below TRN_MIN_EYE and the verify found no error, at the first try or one of two repetitions
(R149). -/
def State.trainPasses (s : State) (c : Nat) (t : ChanTrain) : Bool :=
  (t.runs.take 3).any fun r => r.verified && r.eyes.all fun w => decide (s.num (0x4003 + 0x10 * c) 0x0C ≤ w)

/-- The timing set in force: each member the larger of the committed value and its SPD minimum; tREFI is 3900 ns unless committed
(R151). -/
def State.timingOf (s : State) (c : Nat) (mins : List Nat) : List Nat :=
  (upto 12).map fun i =>
    let v := s.num (0x4001 + 0x10 * c) (i + 1)
    if i = 5 then (if v = 0 then 3900 else v) else max v (nth mins 0 i)

/-- A channel goes OUT at training with event 0x0401. -/
def State.failTraining (s : State) (c reason : Nat) : State :=
  ((s.dropRuns c).modChan c fun x => { x with state := 5, reason := reason, readable := false, pool := [] }).raise 0x0401
    (unitChan c) reason 0

/-- A channel keeps its contents through a start: they were retained, its SPD serial numbers match the stored ones and the verify finds no
error (R150, R265). -/
def State.trainKept (s : State) (warm : Bool) (ref : Option DimmConfig) (c : Nat) (t : ChanTrain) : Bool :=
  warm && (s.chan c).readable && trainPopulated t ref && (s.chan c).serials == t.dimms.map (·.serial) && t.verifyOk

/-- Training of one channel at a rate (R149, R150, R265): warm says the tier was retained. A channel that keeps its contents keeps its
fill; another is filled again from its first data plot. Channels that are OUT stay OUT through a PAUSE exit (R156). -/
def State.trainChan (s : State) (warm : Bool) (ref : Option DimmConfig) (rate c : Nat) (t : ChanTrain) : State :=
  if s.run.startKind = 2 ∧ (s.chan c).state = 5 then s
  else
    let kept := s.trainKept warm ref c t
    let evac := kept && (s.chan c).state == 4
    let mins := spdMinima t.dimms rate
    let d := t.dimms.head?
    let s1 := s.modChan c fun x => { x with
      rdimms := t.dimms.length, gib := (d.map (·.gib)).getD 0, width := (d.map (·.width)).getD 0, ranks := (d.map (·.ranks)).getD 0
      spdMin := mins, serials := t.dimms.map (·.serial), timing := s.timingOf c mins, busyAt := s.now
      fillPos := if kept then x.fillPos else 0, readable := true, spare := none
      state := if evac then 4 else 2, reason := if evac then x.reason else 0 }
    if !trainPopulated t ref then s1.failTraining c 1
    else if kept ∨ s.trainPasses c t then s1
    else s1.failTraining c 2

/-- Channels whose contents are gone once training is done (R265). -/
def State.lostChans (s : State) (ts : List ChanTrain) : List Nat :=
  let ref := reference ts
  (ts.zipIdx.take 16).filterMap fun x =>
    if s.run.startKind = 2 ∧ (s.chan x.2).state = 5 ∨ s.trainKept s.run.retention ref x.2 x.1 then none else some x.2

/-! ### Step 6: block-map restore (R226, R263-R265, R269, R298) -/

/-- A move is unwound from its journal: its page's prior state, its run given back. -/
def State.unwind (s : State) (m : Move) : State :=
  let s1 := s.returnPrior m
  match m.run with
  | some r => s1.freeRun r m.pooled
  | none => s1

/-- The entry once the sprint tier's contents are lost (R226); none means POISONED. -/
def Page.afterSprint (e : Page) : Option Page := if e.dirty then none else some e.lostSprint

/-- The page becomes POISONED as the maps are restored. -/
def State.markPoisoned (s : State) (lpn : Nat) : State :=
  let e := s.page lpn
  (s.setPage lpn { Page.zero with st := 8, owner := e.owner, home := e.home }).forgetSeal lpn

/-- Every page without the sprint tier; the count is of pages poisoned. -/
def State.loseSprint (s : State) : State × Nat :=
  s.map.pages.foldl (fun acc x => match x.2.afterSprint with
    | none => (acc.1.markPoisoned x.1, acc.2 + 1)
    | some e => (acc.1.setPage x.1 e, acc.2)) (s, 0)

/-- Pages of a channel that lost its contents (R265). -/
def State.loseChannel (s : State) (c : Nat) : State :=
  let ps := s.map.pages.filter fun x => x.2.inDist && x.2.channel == c
  if ps.isEmpty then s
  else (ps.foldl (fun s x => s.markPoisoned x.1) s).raise 0x0403 (unitChan c) 0 ps.length

/-- A mirror copy was never written: its channel is OUT and no spare stripe area took its stripes (R154 step 4). -/
def State.copyOut (s : State) (c copy : Nat) : Bool :=
  (s.chan (s.stripeHolder (if copy = 0 then c else mirrorOf c))).state == 5

/-- Whether a lost write of the record leaves no copy; a lost journal write has no effect, and a lost codebook write none that R269
states (R269). -/
def State.bothLost (s : State) (w : LostWrite) : Bool :=
  let lost := s.run.lost.map (·.what)
  match w with
  | .data _ _ => true
  | .pageEntry lpn k => lost.contains (.pageEntry lpn (1 - k)) || s.copyOut (pageStripe lpn) (1 - k)
  | .winEntry p x k => lost.contains (.winEntry p x (1 - k)) || s.copyOut (winStripe p x) (1 - k)
  | .journal _ _ => false
  | .codebook _ _ _ => false

/-- One entry of the lost-write record; the count is of pages poisoned and slots unmapped. -/
def State.applyLost (acc : State × Nat) (l : Lost) : State × Nat :=
  let s := acc.1
  let w := l.what
  let kill := fun (lpn : Nat) =>
    if (s.page lpn).st = 8 ∨ (s.regionOf (handleOf lpn)).isNone then acc else (s.markPoisoned lpn, acc.2 + 1)
  if !s.bothLost w then acc
  else
    match w with
    | .data lpn _ => kill lpn
    | .pageEntry lpn _ => kill lpn
    | .winEntry p x _ =>
      let e := s.win p x
      if e.valid then ((s.setWin p x ⟨false, false, (e.seq + 1) % 256, 0⟩).ownExtent e.handle 0, acc.2 + 1) else acc
    | .journal _ _ => acc
    | .codebook _ _ _ => acc

/-- An extent's pages are UNWRITTEN, and its release is no longer recorded (R41). -/
def State.finishRelease (s : State) (h : Nat) : State :=
  let s1 := (upto 32).foldl (fun s i => (s.setPage (h * 32 + i) Page.zero).forgetSeal (h * 32 + i)) s
  ({ s1 with map := { s1.map with releases := s1.map.releases.filter (· != h) } }).vaultRelease (h * 32)

/-- The runs in use are those the block map names (R269). -/
def State.rebuildRuns (s : State) : State :=
  { s with tier := { s.tier with
    runs := s.tier.runs.filter fun r => s.map.pages.any fun x => x.2.inDist && x.2.channel == r.chan && x.2.plot == r.first
    slotsUsed := [], deferred := [] } }

/-- Every map of a cold start is empty (R263). -/
def State.coldMaps (s : State) : State :=
  { s with
    map := { s.map with windows := [], pages := [], releases := [], passes := [] }
    tier := { s.tier with dist := [], runs := [] }
    relay := { s.relay with moves := [], cbs := [], cbNums := [], seals := [], escapes := [], builds := [] }
    test := { s.test with spoiled := [] } }

/-- Maps restored at a warm start or a PAUSE exit (R226, R264, R265, R269). -/
def State.warmMaps (s : State) (lost : List Nat) : State :=
  let s1 := s.relay.moves.foldl State.unwind s
  let s2 := { s1 with relay := { s1.relay with moves := [] } }
  let a := s2.loseSprint
  let s3 := lost.foldl State.loseChannel a.1
  let b := s3.run.lost.foldl State.applyLost (s3, a.2)
  let s4 := b.1.map.releases.foldl State.finishRelease b.1
  let s5 := s4.rebuildRuns
  if s.run.fromFalse ∨ !s.run.lost.isEmpty then s5.raise 0x0403 0 0 b.2 else s5

/-- Step 6 and step 7 of Tables 12.4 and 12.5: maps (restored when the latch says the tier was retained, R262), capacity, the latch; then FIELD_EN, which a PAUSE exit has raised already. -/
def State.distanceStep (s : State) (lost : List Nat) : State :=
  let s1 := if s.run.retention then s.warmMaps lost else s.coldMaps
  let s2 := { s1 with
    run := { s1.run with distReady := true, retention := false, lost := [], fromFalse := false }
    map := { s1.map with settled := s1.settledNow } }
  let s3 := s2.formPools.recapacity
  if s3.run.fieldEn then { s3 with run := { s3.run with fieldReady := s3.run.fieldPg } } else s3.setField true

/-- TRAINING_DONE: every channel is ONLINE or OUT; too many OUT stop the start (R149), else the distance step ends. -/
def State.trained (s : State) (ts : List ChanTrain) : State :=
  let ref := reference ts
  let rate := if s.run.startKind = 2 then s.tier.rate else s.rateOf ts
  let s1 := (ts.zipIdx.take 16).foldl (fun s x => s.trainChan s.run.retention ref rate x.2 x.1) s
  let plots := match ref with
    | some (n, g, _) => n * g * 2 ^ 18
    | none => 0
  let s2 := { s1 with
    tier := { s1.tier with rate := rate }
    map := { s1.map with share := if s1.run.startKind = 2 then s1.map.share else shareOf plots }
    run := { s1.run with plls := s1.run.plls ||| 0x3C } }
  let pair := (upto 8).find? fun c => (s2.chan c).state == 5 && (s2.chan (c + 8)).state == 5
  match pair with
  | some c => (s2.raise 0x0404 (unitChan c) 0 0).falseStart 0x0404
  | none => if s2.tooManyOut then s2.falseStart 0x0401 else s2.distanceStep (s.lostChans ts)

/-! ### Entry to GO (steps 10 to 12) -/

/-- Mask of the sprint PHY PLLs of the stacks that are fitted, in PLL_LOCK. -/
def State.stackPlls (s : State) : Nat := total (s.stacks.map fun x => 2 ^ (x + 6))

/-- Ports are released: those whose PERST_N is high train (R191, Table 8.7). -/
def State.releasePorts (s : State) (perst : BitVec 4) : State :=
  let s1 := { s with run := { s.run with portsReleased := true } }
  (upto 4).foldl (fun s p =>
    if !s.portPresent p then s
    else if perst.getLsbD p then s.modPort p fun x => { x with perstLow := true }
    else s.releasePerst p) s1

/-- An evacuation that a PAUSE stopped goes on (R145). -/
def State.resumeEvacuations (s : State) : State :=
  (upto 16).foldl (fun s c => if (s.chan c).state = 4 then s.evacuatePages c else s) s

/-- GO, with event 0x0903 naming START_KIND and START_TIME (R128, R144, R261, R293). -/
def State.enterGo (s : State) : State :=
  let ms := (s.now - s.run.startBegan) / 1000000
  let chan := fun (c : Chan) => { c with refreshes := 0, busyAt := s.now, scrubAt := s.now }
  let bib := fun (b : Bib) => { b with readAvg := 0, legAvg := 0, steps := 0 }
  let s1 := { s with
    run := { s.run with
      state := 2, trans := .none, reqStatus := 0, lastKind := s.run.startKind, startTime := ms, goSince := s.now, throttle := 0 }
    tier := { s.tier with epoch := s.now, chans := s.tier.chans.map chan }
    bibs := s.bibs.map bib }
  ((s1.setReady true).raise 0x0903 0 s.run.startKind ms).resumeEvacuations

/-- SPRINT_INIT_DONE: slot lists built without the pseudo-channels that failed their check, reserve loaded, ports released, GO. -/
def State.sprintReady (s : State) (pcBad : List (Nat × Nat)) (perst : BitVec 4) : State :=
  let s1 := { s with tier := { s.tier with
    sprint := [], pcs := [], slotsBuilt := true, slotsUsed := [], slotPtr := List.replicate 8 0 } }
  let s2 := (pcBad.filter fun x => s.stacks.contains x.1 && decide (x.2 < 32)).foldl
    (fun s x => (s.modPc x.1 x.2 fun y => { y with out := 2 }).raise 0x0481 (unitPc x.1 x.2) 2 0) s1
  match s.stacks.find? fun st => (upto 32).all fun i => (s2.pc st i).out == 2 with
  | some st => (s2.raise 0x0484 (unitPc st 0) 0 0).falseStart 0x0484
  | none => (s2.releasePorts perst).enterGo

/-! ### Triggers -/

/-- A core at its Azmor entry. -/
def Core.startAt (c : Core) (n : Nat) : Core := { c with pc := Config.azmorEntry n }

/-- A device restart without SYS_RST_N: stores complete, cores 1-3 restart, core 0 keeps running and runs the start again (R225, R264,
Table 12.7). -/
def State.softStart (s : State) (kind : Nat) : State :=
  let s1 := (s.completeStores).beginStart kind
  let s2 := { s1 with
    run := { s1.run with dictServed := true }
    cores := (upto 4).map fun n => if n = 0 then s1.core 0 else coreReset.startAt n }
  (s2.restore true true).startPolicy

/-- DEMOTE and WRITEBACK for every dirty page that has none (R91); core 1 raises them. -/
def State.demoteDirty (s : State) : State :=
  if !s.core1Runs then s
  else (s.map.pages.filter fun x => (s.view x.1).dirty).foldl (fun s x =>
    if s.relay.items.any fun i => i.lpn == x.1 && (i.kind == .demote || i.kind == .writeback) then s
    else s.raiseMove (if moveFits .demote (s.view x.1) then .demote else .writeback) x.1) s

/-- PAUSE entry begins (R266, R283): promotions without a slot are dropped, waiting writes are discarded, every dirty page is
demoted or written back (R91). -/
def State.pauseEntry (s : State) (restart : Bool) : State :=
  let idle := fun (g : Engine) => { g with drained := false }
  let s1 := { s with
    run := { s.run with trans := .entering restart, reqStatus := 1 }
    test := { s.test with inject := none, lap := none }
    stride := { s.stride with engines := s.stride.engines.map idle }
    relay := { s.relay with engines := s.relay.engines.map idle } }
  let keep := fun (i : Item) => i.kind != .promote || (match s1.moveOn i.lpn with
    | some m => m.slot.isSome
    | none => false)
  let gone := s1.relay.moves.filter fun m => m.item.kind == .promote && m.slot.isNone
  let s2 := { s1 with relay := { s1.relay with
    items := s1.relay.items.filter keep, moves := s1.relay.moves.filter fun m => !gone.contains m } }
  let held := s2.reqs.filter fun r => r.write && (r.stage == .slot || r.stage == .withheld || r.stage == .promotion)
  (held.foldl (fun s r => (s.discardCount r).writeDone r) s2).demoteDirty

/-- A page is still dirty, or a move or an unseal still runs. -/
def State.unsettled (s : State) : Bool := (s.map.pages.any fun x => (s.view x.1).dirty) || !s.relay.moves.isEmpty

/-- Steps 4 to 7 of Table 12.6, with the Field domain going dark; a restart goes on to SET without PAUSE. -/
def State.pauseDone (s : State) (restart : Bool) : State :=
  let again := fun (b : BuildReq) => { b with raised := false }
  let s1 := s.leaveGo
  let s2 := (s1.closePorts.setReady false).portsDown
  let s3 := (s2.drainQueues true).holdChannels
  let s4 := { s3 with
    reqs := [], xfers := []
    relay := { s3.relay with items := [], builds := s3.relay.builds.map again }
    run := { s3.run with retention := true, trans := .none, reqStatus := 0, state := 3, distReady := false } }
  let s5 := s4.setField false
  if restart then s5.softStart 1 else s5.raise 0x0902 0 0 0

/-- PAUSE_DEMOTIONS_DONE: no page is dirty and every core's spill stack lies in its locker, else what is missing is raised again. -/
def State.pauseStep (s : State) : State :=
  match s.run.trans with
  | .entering restart =>
    if s.unsettled then s.demoteDirty
    else if s.cores.all fun c => decide (c.spillCount ≤ c.lockerHi) then s.pauseDone restart
    else s
  | _ => s

/-- PAUSE exit begins: SET, with WAKE_N released (Table 8.7), and the Field domain powers up beside the distance step (R264). -/
def State.pauseExit (s : State) : State :=
  let prep := fun (c : Chan) => { c with q := DramQ.empty, exiting := false }
  let s := s.releaseWakes
  ({ s with
    run := { s.run with state := 1, trans := .leaving, reqStatus := 2, startKind := 2, startBegan := s.now, distReady := false }
    test := { s.test with inject := none }
    tier := { s.tier with chans := s.tier.chans.map prep } }).setField true

/-- SYS_RST_N is low: MARKS; a store under way leaves its copy invalid, and only the latch, the lost-write record, the distance tier,
the flash and the pins are kept; without the latch the distance contents and the maps are lost too (R257, R261, R262, R270). WAKE_N is released (R272). -/
def State.holdReset (s : State) : State :=
  let s0 := if s.run.retention then s else s.coldMaps
  let s1 := ((if s0.run.portsReleased then s0.closePorts else s0).setReady false).setField false
  let s2 := s1.dropWork.portsDown.releaseWakes.lockMux
  let chan := fun (c : Chan) => if s.run.retention then { c with q := DramQ.empty } else { c with state := 0, q := DramQ.empty }
  { s2 with
    ev := EvSt.reset
    dict := { s2.dict.atStart with storeRunning := false, storeQueued := false, storePending := false }
    run := { s2.run with
      state := 0, trans := .none, reqStatus := 0, distReady := false, portsReleased := false, dictServed := false, cause := 0,
      plls := 0, throttle := 0, sysRstLow := true, goAccum := 0 }
    map := { s2.map with uses := [], extents := 0, holdBulk := false, holdStd := false }
    tier := { s2.tier with sprint := [], chans := s2.tier.chans.map chan }
    relay := { s2.relay with engines := List.replicate 16 Engine.init }
    stride := { s2.stride with engines := List.replicate 16 Engine.init }
    cores := List.replicate 4 coreReset
    test := { s2.test with inject := none } }

/-- Track power is lost: the latch, the record and every volatile part are gone (R262, R269, R270). -/
def State.powerLoss (s : State) : State :=
  let s1 := s.holdReset
  let s2 := s1.coldMaps
  { s2 with
    run := { s2.run with state := 5, retention := false, lost := [], fromFalse := false, thermtrip := false }
    tier := { s2.tier with chans := List.replicate 16 Chan.init }
    test := { s2.test with tap := Tap.init } }

/-- SYS_RST_N is released: steps 1 to 4 of start-up. Without a good Azmor bank, or without its flash, the boot ROM serves the field
door in FALSE_START, with the session keys of the stored image (R229, R263, R269, R289). -/
def State.leaveReset (s : State) (node : BitVec 4) (bankOk otherBankOk flashFound crcA crcB : Bool) : State :=
  let kind := if s.run.retention then 1 else 0
  let s1 := s.beginStart kind
  let first := bankOk && flashFound
  let second := otherBankOk && flashFound
  let use := s1.dict.azmorNew && first || !s1.dict.azmorNew && !first && second
  let d := s1.dict
  let s2 := { s1 with
    part := { s1.part with nodeId := node.toNat }
    run := { s1.run with sysRstLow := false, dictServed := true, plls := 2 }
    dict := if use then { d with azmorRun := d.azmorOther, azmorOther := d.azmorRun, azmorNew := false } else { d with azmorNew := false }
    cores := (upto 4).map fun n => (nth s1.cores coreReset n).startAt n }
  let s3 := s2.setNum 0x8000 4 0
  if !first ∧ !second then ((s3.load (crcA && flashFound) (crcB && flashFound)).falseStart 0x0127).raise 0x0127 0 0 0
  else
    let s4 := s3.restore crcA crcB
    (if first then s4 else s4.raise 0x0124 0 0 0).startPolicy

end Sys2Proof.Machine
end

