-- ==== Sys2Proof/Machine/Readout.lean ====
section
/-! DEFINITION. What a read of an object returns (R197, R221): stored values, and the values the T9 computes from its state. -/

namespace Sys2Proof.Machine

/-- An I16 as it travels. -/
def i16of (x : Int) : Nat := (x % 65536).toNat

/-- Bytes 0x00 to 0x0F of a block-map entry (Table 2.5). -/
def Page.granuleBytes (e : Page) : List Byte :=
  if e.st = 6 then natLe 4 e.vWritten ++ natLe 1 e.vLoc ++ List.replicate 11 0 else packGranules e.gran

/-- The LOCATION word (Table 2.6). -/
def Page.location (e : Page) : Nat :=
  e.st * 2 ^ 60 + e.owner % 4 * 2 ^ 58 + e.home % 8 * 2 ^ 55 + e.channel % 16 * 2 ^ 51 + e.cbv % 16 * 2 ^ 47
    + b2n e.touched * 2 ^ 46 + e.slot % 2 ^ 19 * 2 ^ 27 + e.plot % 2 ^ 27

/-- The 24 bytes of a block-map entry; an UNWRITTEN page shows OWNER alone (R228). -/
def Page.entryBytes (e : Page) : List Byte :=
  if e.st = 0 then List.replicate 16 0 ++ natLe 8 (e.owner % 4 * 2 ^ 58) else e.granuleBytes ++ natLe 8 e.location

/-- The 8 bytes of a window-map entry (Table 2.4). -/
def WinEntry.word (e : WinEntry) : Nat := b2n e.valid * 2 ^ 63 + b2n e.frozen * 2 ^ 62 + e.seq % 256 * 2 ^ 48 + e.handle % 2 ^ 24

/-- Objects that answer abort 0x10 in this variant (R9, R221): ports that are absent with their partitions, urgency and I/O die
temperatures; the stride objects of a T9-8S4P-M. -/
def State.absent (s : State) (index sub : Nat) : Bool :=
  let port :=
    if 0x2200 ≤ index ∧ index < 0x2204 then some (index - 0x2200)
    else if 0x3000 ≤ index ∧ index < 0x3400 ∧ (index % 0x100 = 0 ∨ index % 0x100 = 0x40) then some ((index - 0x3000) / 0x100)
    else if 0x7080 ≤ index ∧ index < 0x7084 then some (index - 0x7080)
    else if index = 0x9010 ∧ 5 ≤ sub ∧ sub ≤ 8 then some (sub - 5)
    else none
  match port with
  | some p => !s.portPresent p
  | none => !s.hasStride && (index == 0x6000 || index == 0x1110)

/-- The event record of a sequence number, when it is held. -/
def State.record (s : State) (n : Nat) : Option Evt := s.ev.ring.find? fun e => e.seq == n % 2 ^ 32

/-- EVT_BLOCK: 256 records from EVT_SELECT on. -/
def State.evtBlock (s : State) : List Byte :=
  (upto 256).flatMap fun i => match s.record (s.num 0x1300 4 + i) with
    | some e => e.bytes
    | none => List.replicate 32 0

/-- Key slots that are set: a slot never written, or cleared with zeros, is not (R217). -/
def State.keySlotSet (s : State) (k : Nat) : Bool := decide (k < 4) && !allZero (s.blob 0x1800 (k + 1))

/-- A write-once value; none before its store is done. -/
def State.onceValue (s : State) (index sub : Nat) : Option (List Byte) :=
  (s.dict.wonce.find? fun x => x.1 == okey index sub).map (·.2)

/-- AZMOR_UPDATE is being received, or stored (Table 10.13). -/
def State.azmorComing (s : State) : Bool :=
  (s.dict.ctxs.any fun c => match c.wbuf with
    | some b => b.index == 0x8000 && b.sub == 3
    | none => false) || s.dict.waiting.any fun w => w.index == 0x8000 && w.sub == 3

/-- The ordering code of a variant (Table 0.1). -/
def orderingCode (v : Nat) : String :=
  match v with
  | 0 => "T9-8S4P"
  | 1 => "T9-6S4P"
  | 2 => "T9-6S3P"
  | 3 => "T9-6S2P"
  | _ => "T9-8S4P-M"

/-- Headers and constants of the capability chain (Table 10.4). -/
def State.capability (s : State) (index sub : Nat) : Option Nat :=
  match index, sub with
  | 0x1100, 0 => some (if s.hasStride then 0x1110 else 0x1120)
  | 0x1110, 0 => some 0x00010101
  | 0x1110, 1 => some 16
  | 0x1110, 2 => some 0x0F
  | 0x1110, 3 => some 1024
  | 0x1120, 0 => some 0x00020101
  | 0x1120, 1 => some 64
  | 0x1130, 0 => some 0x00030101
  | 0x1130, 1 => some 4096
  | 0x1140, 0 => some 0x00040101
  | 0x1140, 1 => some (2 ^ portCount s.part.variant - 1)
  | 0x1150, 0 => some 0x00050101
  | 0x1150, 1 => some 30
  | 0x1150, 2 => some 34
  | 0x1160, 0 => some 0x00060101
  | 0x1160, 1 => some 262144
  | 0x1160, 2 => some 3
  | 0x1170, 0 => some 0x00070100
  | 0x1170, 1 => some 64
  | 0x1170, 2 => some (b2n s.part.debugEn)
  | _, _ => none

/-- GO_SECONDS. -/
def State.goSeconds (s : State) : Nat :=
  (s.run.goAccum + (if s.run.state = 2 then s.now - s.run.goSince else 0)) / 1000000000

/-- Identity, run state, events, telemetry and sessions. -/
def State.readLow (s : State) (index sub : Nat) : Option Nat :=
  match index, sub with
  | 0x1000, 4 => some s.part.stepping
  | 0x1000, 6 => some s.part.mfgDate
  | 0x1000, 7 => some (if s.stacks.length = 8 then 0xFF else 0x77)
  | 0x1000, 8 => some (2 ^ portCount s.part.variant - 1)
  | 0x1000, 9 => some (if s.hasStride then 0xFFFF else 0)
  | 0x1200, 1 => some s.runCode
  | 0x1200, 4 => some s.run.reqStatus
  | 0x1200, 5 => some s.run.lastKind
  | 0x1200, 6 => some (s.run.startTime % 2 ^ 32)
  | 0x1200, 7 => some s.run.cause
  | 0x1200, 8 => some s.goSeconds
  | 0x1200, 9 => some (b2n s.run.ready)
  | 0x1280, 7 => some (b2n (s.dict.storePending || s.dict.storeQueued || s.dict.storeRunning))
  | 0x1300, 2 => some s.ev.oldest
  | 0x1300, 3 => some s.ev.next
  | 0x1300, 7 => some (b2n s.ev.overflow)
  | 0x1320, k => some (s.census (k - 1))
  | 0x1800, 5 => some (maskOf 4 s.keySlotSet)
  | 0x1800, 8 => some s.dict.sessions.length
  | _, _ => if 0x1810 ≤ index ∧ index < 0x1850 ∧ sub = 2 then some (b2n !(s.blob index 1).isEmpty) else s.capability index sub

/-- Provisioning, windows and releases: 0 from SET until the first computation of a start (R35). -/
def State.readMaps (s : State) (index sub : Nat) : Option Nat :=
  let p := index - 0x2200
  match index, sub with
  | 0x2000, 2 => some s.map.extents
  | 0x2000, 3 => some (if s.map.extents = 0 then 0 else s.usablePlots)
  | 0x2000, 6 => some (if s.map.extents = 0 then 0 else s.freePlots)
  | 0x2000, 7 => some (b2n s.map.settled)
  | 0x2400, 2 => some (b2n !s.map.releases.isEmpty)
  | _, 6 => if 0x2200 ≤ index ∧ index < 0x2204 then some (s.map.windows.filter fun x => x.1 / 2 ^ 24 == p && x.2.valid).length else none
  | _, _ => none

/-- Ports (Tables 6.3, 8.8). -/
def State.readPorts (s : State) (index sub : Nat) : Option Nat :=
  let p := (index - 0x3000) / 0x100
  let x := s.port p
  if 0x7080 ≤ index ∧ index < 0x7084 then
    match sub with
    | 3 => some (s.urgLevel (index - 0x7080))
    | 4 => some (b2n (s.port (index - 0x7080)).suspended)
    | _ => none
  else if index < 0x3000 ∨ 0x3400 ≤ index then none
  else if index % 0x100 = 0 then
    match sub with
    | 7 => some x.a.state
    | 8 => some x.a.speed
    | 9 => some (if x.a.state = 3 then 8 else x.a.width)
    | 10 => some x.a.dstate
    | _ => none
  else if index % 0x100 = 0x40 then
    match sub with
    | 3 => some (b2n x.frozen)
    | 4 => some (b2n x.drained)
    | 5 => some x.cause
    | _ => none
  else none

/-- The timing value in the dictionary: the committed one, else the SPD minimum, and 3900 ns for tREFI (R151). -/
def State.timingValue (s : State) (c i : Nat) : Nat :=
  let v := s.num (0x4001 + 0x10 * c) i
  if v ≠ 0 then v else if i = 6 then 3900 else nth (s.chan c).spdMin 0 (i - 1)

/-- Tiers (Tables 7.5, 7.6, 7.7, 7.9). -/
def State.readTiers (s : State) (index sub : Nat) : Option Nat :=
  let c := (index - 0x4000) / 0x10
  let st := (index - 0x4800) / 0x10
  if 0x4000 ≤ index ∧ index < 0x4100 then
    match index % 0x10, sub with
    | 0, 1 => some (s.chan c).state
    | 0, 2 => some (s.chan c).reason
    | 0, 5 => some (b2n (s.guarded c))
    | 0, 6 => some (s.chanFree c)
    | 0, 7 => some (i16of (s.chan c).temp)
    | 1, i => some (s.timingValue c i)
    | 3, 10 => some (s.chan c).trnStatus
    | _, _ => none
  else if index = 0x4100 then
    match sub with
    | 8 => some s.tier.rate
    | 9 => some (maskOf 16 s.fillDone)
    | _ => none
  else if 0x4800 ≤ index ∧ index < 0x4880 then
    match sub with
    | 1 => some (b2n (s.stacks.contains st))
    | 2 => some (maskOf 32 fun i => (s.pc st i).out == 2)
    | 3 => some (s.stackFree st)
    | 4 => some (i16of (nth s.tier.stackTemp (-32768) st))
    | _ => none
  else none

/-- Relay engines, codebooks, stride engines and bibs (Tables 3.6, 5.1, 6.4, 10.12). -/
def State.readEngines (s : State) (index sub : Nat) : Option Nat :=
  let n := index - 0x5100
  let b := index - 0x7040
  if index = 0x5010 then (if sub = 1 then some (maskOf 16 fun e => (s.relayEng e).fenced) else none)
  else if 0x5100 ≤ index ∧ index < 0x5140 then
    match sub with
    | 5 => some ((s.newest n).getD 0xFF)
    | 6 => some (maskOf 16 fun v => (s.cb n v).isSome)
    | 13 => some ((s.oldest n).getD 0xFF)
    | 14 => some (maskOf 16 fun v => ((s.cb n v).map (·.retiring)).getD false)
    | _ => none
  else if index = 0x6000 then
    match sub with
    | 4 => some (maskOf 16 fun e => (s.strideEng e).fenced)
    | 5 => some s.legsInFlight
    | _ => none
  else if 0x7040 ≤ index ∧ index < 0x7050 then
    match sub with
    | 1 => some (s.bib b).readAvg
    | 2 => some (s.bib b).legAvg
    | 3 => some (s.levelWith b 0)
    | 9 => some (s.chargedSlots b)
    | _ => none
  else none

/-- Firmware, power, thermal and test objects (Tables 10.13 to 10.15). -/
def State.readHigh (s : State) (index sub : Nat) : Option Nat :=
  let k := s.core (index - 0x8010)
  if 0x8010 ≤ index ∧ index < 0x8014 then
    match sub with
    | 1 => some k.state
    | 4 => some (Config.coreBusy s.freeCtr % 101)
    | _ => none
  else
    match index, sub with
    | 0x8000, 1 => some (Config.azmorVersion s.dict.azmorRun).toNat
    | 0x8000, 4 => some (if s.azmorComing then 1 else s.num 0x8000 4)
    | 0x8040, 2 => some s.dict.policyState
    | 0x9000, 1 => some (i16of s.run.tj)
    | 0x9000, 4 => some (b2n (decide (0 < s.run.throttle)))
    | 0x9000, 6 => some (s.run.powerNow % 2 ^ 32)
    | 0x9000, 7 => some (s.run.powerTrack % 2 ^ 32)
    | 0x9000, 9 => some s.run.fieldPower
    | 0x9000, 10 => some s.run.plls
    | 0x9010, i => some (i16of (if i ≤ 4 then nth s.run.hubTemp 0 (i - 1) else nth s.run.ioTemp 0 (i - 5)))
    | 0xA000, 2 => some s.test.lapNext
    | 0xA100, 2 => some (b2n s.test.unlocked)
    | _, _ => none

/-- The value of a number object in force. -/
def State.numOf (s : State) (index sub : Nat) : Nat :=
  match s.readLow index sub with
  | some v => v
  | none =>
    match s.readMaps index sub with
    | some v => v
    | none =>
      match s.readPorts index sub with
      | some v => v
      | none =>
        match s.readTiers index sub with
        | some v => v
        | none =>
          match s.readEngines index sub with
          | some v => v
          | none => (s.readHigh index sub).getD (s.num index sub)

/-- Bytes of an object kept as octets; never written it reads as zeros of its size. -/
def State.octets (s : State) (index sub size : Nat) : List Byte := slice (s.blob index sub) 0 size

/-- MAP_ENTRIES for the active MAP_FIRST and MAP_COUNT (R25). -/
def State.mapEntries (s : State) (p : Nat) : List Byte :=
  (upto (s.num (0x2200 + p) 3)).flatMap fun i => natLe 8 (s.win p (s.num (0x2200 + p) 2 + i)).word

/-- A write-once object as it reads: its value, or an empty string, or zeros. -/
def State.onceRead (s : State) (o : Obj) (index sub : Nat) : List Byte :=
  (s.onceValue index sub).getD (if o.ty = 11 then [] else List.replicate o.size 0)

/-- SHA-256 of an image; zeros without one. -/
def hashOf (image : List Byte) : List Byte := if image.isEmpty then List.replicate 32 0 else sha256 image

/-- Octets, strings and domains; an abort code where the object's table gives one for a read. -/
def State.bytesOf (s : State) (o : Obj) (index sub : Nat) : Nat × List Byte :=
  let c := (index - 0x4000) / 0x10
  if o.acc = .wonce then (0, s.onceRead o index sub)
  else if 0x2200 ≤ index ∧ index < 0x2204 then (0, s.mapEntries (index - 0x2200))
  else if 0x5100 ≤ index ∧ index < 0x5140 then
    match s.cb (index - 0x5100) (s.num index 9) with
    | some v => (0, slice v.set 0 16384)
    | none => (0x40, [])
  else if 0x4000 ≤ index ∧ index < 0x4100 ∧ index % 0x10 = 4 ∧ sub = 3 then
    (0, if (s.blob index 3).isEmpty then slice (Config.trnDelays c) 0 480 else s.octets index 3 480)
  else
    match index, sub with
    | 0x1000, 1 => (0, ascii "Unorfin Microsystems")
    | 0x1000, 2 => (0, ascii "Silseip T9")
    | 0x1000, 3 => (0, ascii (orderingCode s.part.variant))
    | 0x1000, 5 => (0, slice s.part.serial 0 8)
    | 0x1280, 1 => (0, slice s.part.mac 0 6)
    | 0x1300, 5 =>
      match s.record (s.num 0x1300 4) with
      | some e => (0, e.bytes)
      | none => (0x40, [])
    | 0x1300, 9 => (0, s.evtBlock)
    | 0x1310, 0x10 => (0, (upto 12).flatMap fun i => natLe 8 (s.num 0x1310 (i + 1)))
    | 0x1330, 3 => (0, (s.page (s.num 0x1330 1)).entryBytes)
    | 0x1801, 1 => (0, slice s.part.azmorSigner 0 32)
    | 0x8000, 2 => (0, hashOf s.dict.azmorRun)
    | 0x8040, 5 => (0, hashOf s.dict.policy)
    | _, _ => (0, s.octets index sub o.size)

/-- A read of an object that may be read: abort code and value. -/
def State.readObj (s : State) (o : Obj) (index sub : Nat) : Nat × List Byte :=
  if o.ty < 10 then (0, natLe o.size (s.numOf index sub)) else s.bytesOf o index sub

end Sys2Proof.Machine
end

