-- ==== Sys2Proof/Machine/CoreCmds.lean ====
section
/-! DEFINITION. The commands of the coach cores (R238-R253). -/

namespace Sys2Proof.Machine

/-- CALLW (R238). -/
def execCallw (n : Nat) (offset : BitVec 26) (s : State) : Host.Outcome State Fault Refusal :=
  .next (s.runCore n fun c => c.callw s.ovfReach offset).onward

/-- RETW (R238). -/
def execRetw (n : Nat) (s : State) : Host.Outcome State Fault Refusal := .next (s.runCore n fun c => c.retw s.ovfReach).onward

/-- Bytes put into policy SRAM at an address of the module; elsewhere nothing is written. -/
def Core.putModule (c : Core) (addr : Nat) (bs : List Byte) : Core :=
  if 0x00400000 ≤ addr ∧ addr + bs.length ≤ 0x00480000 then { c with policySram := c.policySram.writeN (addr - 0x00400000) bs } else c

/-- The monitoring objects of a bib at their natural sizes (Table 6.4). -/
def State.monitorBytes (s : State) (b : Nat) : List Byte :=
  ([(1, 4), (2, 4), (3, 1), (4, 4), (5, 4), (6, 8), (7, 8), (8, 8), (9, 8)] : List (Nat × Nat)).flatMap fun x =>
    natLe x.2 (s.numOf (0x7040 + b) x.1)

/-- A service of the module interface, in g4 and g5 (section 11.9). -/
def State.service (s : State) (number : Nat) : State :=
  let c := s.core 3
  let g4 := (nth c.g 0 4).toNat
  let g5 := (nth c.g 0 5).toNat
  let put := fun (f : Core → Core) => { s with cores := updAt s.cores 3 f }
  let us := (s.now - s.run.setAt) / 1000
  match number with
  | 1 => put fun c => c.putModule g5 (s.page g4).entryBytes
  | 2 => if g4 < 16 then put fun c => c.putModule g5 (s.monitorBytes g4) else s
  | 3 => put fun c => (c.setG 4 (BitVec.ofNat 32 us)).setG 5 (BitVec.ofNat 32 (us / 2 ^ 32))
  | 4 =>
    let bs := c.policySram.readN (g4 - 0x00400000) 16
    s.raiseWith (severityOf 0x0B20) false 0x0B20 0xFF (field bs 0 2) (field bs 2 2) (field bs 4 4) (field bs 8 8)
  | _ => put fun c => c.setG 4 0xFFFFFFFF

/-- A TRAP of a module in a hook call that has been entered, at once or after a spill, asks for a service (R253). -/
def State.moduleService (s : State) (n : Nat) (old : Core) : State :=
  let c := s.core n
  if n = 3 ∧ s.dict.hook.isSome ∧ !old.sup ∧ old.tookTrap c = some 0x27 then s.service (c.ecause.toNat / 256 % 256) else s

/-- TRAP (R242). -/
def State.trapOf (s : State) (n number : Nat) : State :=
  (s.runCore n fun c => c.trap s.ovfReach number).moduleService n (s.core n)

def execTrap (n number : Nat) (s : State) : Host.Outcome State Fault Refusal := .next (s.trapOf n number).onward

/-- SAVECTX (R251). -/
def execSavectx (n : Nat) (mask : BitVec 4) (s : State) : Host.Outcome State Fault Refusal :=
  .next (s.runCore n fun c => c.savectx n s.ovfReach mask).onward

/-- LOADCTX (R251). -/
def execLoadctx (n : Nat) (mask : BitVec 4) (s : State) : Host.Outcome State Fault Refusal :=
  .next (s.runCore n fun c => c.loadctx n s.ovfReach mask).onward

/-- DROPCTX (R251). -/
def execDropctx (n : Nat) (s : State) : Host.Outcome State Fault Refusal := .next (s.runCore n fun c => c.dropctx n s.ovfReach).onward

/-- RETI (R244, R248). -/
def execReti (n : Nat) (s : State) : Host.Outcome State Fault Refusal := .next (s.runCore n fun c => c.reti n s.ovfReach).onward

/-- CUTW (R251). -/
def execCutw (n reg : Nat) (s : State) : Host.Outcome State Fault Refusal := .next (s.runCore n fun c => c.cutw s.ovfReach reg).onward

/-- HALT (R245). -/
def execHalt (n : Nat) (s : State) : Host.Outcome State Fault Refusal := .next (s.runCore n fun c => c.haltOp s.ovfReach).onward

/-- TALLY_INSTRUCTION (R249). -/
def execTallyInstruction (n : Nat) (s : State) : Host.Outcome State Fault Refusal :=
  .next ((s.runCore n fun c => c.tallyOp n s.ovfReach (Config.tallyAfter s.freeCtr)).drawn).onward

/-- CSR_ACCESS (R250). -/
def execCsrAccess (n csr : Nat) (write : Bool) (reg : Nat) (s : State) : Host.Outcome State Fault Refusal :=
  .next (s.runCore n fun c => c.csrOp s.ovfReach csr write reg).onward

/-- ILLEGAL_INSTRUCTION (R242). -/
def execIllegalInstruction (n : Nat) (s : State) : Host.Outcome State Fault Refusal :=
  .next (s.runCore n fun c => c.trapAt s.ovfReach 0x20).onward

/-- INTERRUPT_ENTRY (R247). -/
def execInterruptEntry (n line : Nat) (s : State) : Host.Outcome State Fault Refusal :=
  .next (s.stepCore n fun c => c.interrupt s.ovfReach line).onward

/-- SPILL (R239). -/
def execSpill (n : Nat) (s : State) : Host.Outcome State Fault Refusal := .next (s.stepCore n fun c => c.spillStart s.ovfReach).onward

/-- A window of the core is still on its way to or from its overflow area (R239). -/
def State.windowBusy (s : State) (n : Nat) : Bool := s.working (· == .window n)

/-- SPILL_DONE once its writes have drained: a window beyond the locker is counted in CORE_OVERFLOW_SPILLS (R239). -/
def State.spillEnds (s : State) (n : Nat) : State :=
  let old := s.core n
  let s1 := (s.stepCore n Core.spillDone).moduleService n old
  if s.windowBusy n then s
  else if s.coreRuns n ∧ old.spillCount < (s1.core n).spillCount ∧ old.lockerHi ≤ old.spillCount then s1.bump (0x8010 + n) 5 else s1

def execSpillDone (n : Nat) (s : State) : Host.Outcome State Fault Refusal := .next (s.spillEnds n).onward

/-- FILL_DONE once the window has been read (R239, R241). -/
def execFillDone (n : Nat) (uncorrectable : Bool) (s : State) : Host.Outcome State Fault Refusal :=
  .next (if s.windowBusy n then s else (s.stepCore n fun c => c.fillDone uncorrectable).onward)

/-- CORE_WATCHDOG: a core sent no heartbeat and is forced to halt; core 0 takes the T9 to FALSE_START (R246). -/
def State.watchdog (s : State) (n : Nat) : State :=
  if s.coreRuns n then
    (({ s with cores := updAt s.cores n fun c => { c with heartbeat := false } })).haltCore n
  else s

def execCoreWatchdog (n : Nat) (s : State) : Host.Outcome State Fault Refusal := .next (s.watchdog n).onward

/-- CORE_RESTART (R246). -/
def execCoreRestart (n : Nat) (s : State) : Host.Outcome State Fault Refusal := .next (s.restartCore n).onward

/-- WRONG_PATH_FETCH (R252): a fill is counted in perf_wpfetch and, saturating, in CORE_WPFETCH (R236), and the trace port marks the
group squashed; outside the regions of the mode nothing is fetched, counted or traced. Its address is not the command's, so its PC field
is a free value (DESIGN CHOICE, log entry 79). -/
def State.wrongPath (s : State) (n : Nat) (inRegion fills : Bool) : State :=
  if !s.coreRuns n ∨ !inRegion then s
  else
    let s1 := { s.drawn with cores := updAt s.cores n fun c => c.wrongPath inRegion fills }
    (if fills then s1.bump (0x8010 + n) 6 else s1).trace n 0 true (Config.wrongPathPc s.freeCtr)

def execWrongPathFetch (n : Nat) (inRegion fills : Bool) (s : State) : Host.Outcome State Fault Refusal :=
  .next (s.wrongPath n inRegion fills)

/-- LOAD_STORE (R241, Table 11.5); what a load outside the memories of chapter 11 returns is a free value (DESIGN CHOICE, log entry 14). -/
def execLoadStore (n : Nat) (store : Bool) (addr width reg : Nat) (s : State) : Host.Outcome State Fault Refusal :=
  .next ((s.runCore n fun c =>
    c.loadStore n s.codeEnd s.ovfReach (Config.loadValue s.freeCtr) store addr width reg).drawn).onward

end Sys2Proof.Machine
end

