-- ==== Sys2Proof/Machine/DmaCmds.lean ====
section
/-! DEFINITION. Completions of the T9's own requests and ATS (R116, R117, R178, R179). -/

namespace Sys2Proof.Machine

/-- A range meets another. -/
def meets (a n b m : Nat) : Bool := decide (a < b + m ∧ b < a + n)

/-- A Translation Completion answers the requests of a link that lie in its range. -/
def State.answered (s : State) (p : Nat) (l : LinkId) (addr size : Nat) : State :=
  let hit := fun (d : DmaRead) => if meets addr size d.addr d.len then { d with asked := false } else d
  let job := fun (j : Job) =>
    if j.port = p ∧ j.link = l then { j with asked := j.asked.filter fun a => !meets addr size a 1 } else j
  let s1 := s.modLink p l fun k => { k with dma := k.dma.map hit }
  { s1 with stride := { s1.stride with jobs := s1.stride.jobs.map job } }

/-- ATS_TRANSLATION_COMPLETION (R178): the entry enters the cache; one that grants nothing is a failed translation and is not kept. -/
def execAtsTranslationCompletion (p : Nat) (l : LinkId) (addr size : Nat) (r w : Bool) (s : State) :
    Host.Outcome State Fault Refusal :=
  .next (
    if !s.linkOpen p l ∨ !(s.link p l).atsEn ∨ size < 4096 then s
    else
      let s1 := (((s.wakeLink p l).answered p l addr size).cacheXlate p l ⟨addr, size, r, w⟩).onward
      if r ∨ w then s1 else s1.modLink p l fun k => { k with cache := k.cache.filter (· != ⟨addr, size, false, false⟩) })

/-- A read of the T9 that is under way ends. -/
def State.endRead (s : State) (p : Nat) (l : LinkId) (id : Nat) (ph : DmaRead → DmaPhase) : State :=
  (s.modDma p l id fun d => if d.phase = .issued then { d with phase := ph d } else d).onward

/-- DMA_READ_COMPLETION (R179): an error completion is a failed translation. -/
def execDmaReadCompletion (p : Nat) (l : LinkId) (id : Nat) (status : DmaStatus) (data : List Byte) (s : State) :
    Host.Outcome State Fault Refusal :=
  .next ((s.wakeLink p l).endRead p l id fun d => if status = .ok then .done (slice data 0 d.len) else .failed)

/-- DMA_COMPLETION_TIMEOUT (R179). -/
def execDmaCompletionTimeout (p : Nat) (l : LinkId) (id : Nat) (s : State) : Host.Outcome State Fault Refusal :=
  .next (s.endRead p l id fun _ => .failed)

/-- INVALIDATION_REQUEST (R117, R179): translations of the range leave the cache and accesses of it pause; served while frozen. -/
def execInvalidationRequest (p : Nat) (l : LinkId) (tag addr size : Nat) (s : State) : Host.Outcome State Fault Refusal :=
  .next (
    if !s.linkOpen p l then s
    else ((s.wakeLink p l).unready p l addr size).modLink p l fun k => { k with
      invals := k.invals ++ [(tag, addr, size)], cache := k.cache.filter fun x => !meets addr size x.addr x.size })

/-- Accesses already issued to a range have not all completed. -/
def Link.drainingRange (k : Link) (addr size : Nat) : Bool :=
  k.dma.any fun d => d.phase == .issued && meets addr size d.addr d.len

/-- INVALIDATION_COMPLETION (R117, R179). -/
def execInvalidationCompletion (p : Nat) (l : LinkId) (tag : Nat) (s : State) : Host.Outcome State Fault Refusal :=
  .next (match (s.link p l).invals.find? fun v => v.1 == tag with
    | some v =>
      if (s.link p l).drainingRange v.2.1 v.2.2 ∨ !s.linkOpen p l then s
      else (((s.wakeLink p l).modLink p l fun k => { k with invals := k.invals.filter (· != v) }).emit
        (.invalComplete p l tag)).onward
    | none => s)

end Sys2Proof.Machine
end

