-- ==== Sys2Proof/Machine/LinkCmds.lean ====
section
/-! DEFINITION. Links and ports: configuration, resets, power states, freezes, HDM decoders and the CXL mailbox (R164-R191). -/

namespace Sys2Proof.Machine

/-- A configuration access of an open link; served in D3hot and while frozen (R183, R188). -/
def State.viaConfig (s : State) (p : Nat) (l : LinkId) (f : State → State) : State :=
  if s.linkOpen p l then (f (s.wakeLink p l)).onward else s

/-- An access of a BAR0 register with behaviour of its own. -/
def State.viaBar0 (s : State) (p : Nat) (l : LinkId) (f : State → State) : State :=
  if s.linkOpen p l ∧ s.barOpen p l ∧ !(s.port p).frozen then (f (s.wakeLink p l)).onward else s

/-- CONFIG_WRITE (R167-R169). -/
def execConfigWrite (p : Nat) (l : LinkId) (off value : Nat) (s : State) : Host.Outcome State Fault Refusal :=
  .next (s.viaConfig p l fun x => x.configWrite p l off value)

/-- ATS_ENABLE_CLEAR (R179). -/
def execAtsEnableClear (p : Nat) (l : LinkId) (s : State) : Host.Outcome State Fault Refusal :=
  .next (s.viaConfig p l fun x => x.setAts p l false)

/-- MSIX_UNMASK (R181). -/
def execMsixUnmask (p : Nat) (l : LinkId) (vec : Nat) (s : State) : Host.Outcome State Fault Refusal :=
  .next (s.viaBar0 p l fun x => x.unmask p l vec)

/-- MSIX_ENABLE_CLEAR (R181). -/
def execMsixEnableClear (p : Nat) (l : LinkId) (s : State) : Host.Outcome State Fault Refusal :=
  .next (s.viaConfig p l fun x => x.setMsixCtl p l false (x.link p l).funcMask)

/-- FUNCTION_LEVEL_RESET (R190). -/
def execFunctionLevelReset (p : Nat) (l : LinkId) (s : State) : Host.Outcome State Fault Refusal :=
  .next (s.viaConfig p l fun x => x.resetLink p l false)

/-- HOT_RESET (R190): the link trains again. -/
def execHotReset (p : Nat) (l : LinkId) (s : State) : Host.Outcome State Fault Refusal :=
  .next (s.viaConfig p l fun x => (x.resetLink p l true).modLink p l fun k => { k with state := 1 })

/-- PERST_N is looked at: it is ignored in MARKS and while the T9 has no power (R272). -/
def State.perstSeen (s : State) (p : Nat) : Bool := s.portPresent p && decide (1 ≤ s.run.state ∧ s.run.state ≤ 4)

/-- PERST_ASSERT (R190). -/
def execPerstAssert (p : Nat) (s : State) : Host.Outcome State Fault Refusal :=
  .next (if s.perstSeen p then (s.assertPerst p).onward else s)

/-- PERST_RELEASE (R185). -/
def execPerstRelease (p : Nat) (s : State) : Host.Outcome State Fault Refusal :=
  .next (if s.perstSeen p ∧ (s.port p).perstLow then (s.releasePerst p).onward else s)

/-- D3HOT_ENTRY (R184). -/
def execD3hotEntry (p : Nat) (l : LinkId) (s : State) : Host.Outcome State Fault Refusal :=
  .next (s.viaConfig p l fun x => x.toD3hot p l)

/-- D0_RETURN (R184). -/
def execD0Return (p : Nat) (l : LinkId) (s : State) : Host.Outcome State Fault Refusal :=
  .next (s.viaConfig p l fun x => x.toD0 p l)

/-- PME_TURN_OFF (R183). -/
def execPmeTurnOff (p : Nat) (l : LinkId) (s : State) : Host.Outcome State Fault Refusal :=
  .next (if s.linkOpen p l then (s.emit (.pmeToAck p l)).modLink p l fun k => { k with state := 5 } else s)

/-- LINK_UP (R166). -/
def execLinkUp (p : Nat) (l : LinkId) (hostSpeed hostWidth : Nat) (partnerFlit ask68 : Bool) (s : State) :
    Host.Outcome State Fault Refusal :=
  .next (s.upLink p l hostSpeed hostWidth partnerFlit ask68).onward

/-- LINK_LOSS (R186). -/
def execLinkLoss (p : Nat) (l : LinkId) (s : State) : Host.Outcome State Fault Refusal := .next (s.lossOf p l).onward

/-- FATAL_AER_ERROR (R186). -/
def execFatalAerError (p : Nat) (l : LinkId) (s : State) : Host.Outcome State Fault Refusal :=
  .next (if s.linkOpen p l then (s.freeze p 2).onward else s)

/-- IO_DIE_INTERNAL_ERROR (R186). -/
def execIoDieInternalError (p : Nat) (s : State) : Host.Outcome State Fault Refusal :=
  .next (if s.portPresent p ∧ s.run.portsReleased then (s.freeze p 3).onward else s)

/-- PORT_DRAINED (R189). -/
def execPortDrained (p : Nat) (s : State) : Host.Outcome State Fault Refusal := .next (s.drainPort p).onward

/-- A link with no request, completion, descriptor or read outstanding (R182). -/
def State.linkQuiet (s : State) (p : Nat) (l : LinkId) : Bool :=
  !((s.portJobs p).any fun j => j.link == l) && !(s.link p l).reading && !(s.reqs.any fun r => r.port == p && r.link == l)

/-- L1_IDLE_EXPIRY (R182). -/
def execL1IdleExpiry (p : Nat) (l : LinkId) (s : State) : Host.Outcome State Fault Refusal :=
  .next (
    let k := s.link p l
    if s.linkPresent p l ∧ (k.state = 2 ∨ k.state = 3) ∧ k.aspmL1 ∧ s.linkQuiet p l then
      s.modLink p l fun x => { x with state := 4 }
    else s)

/-- L1_EXIT (R182). -/
def execL1Exit (p : Nat) (l : LinkId) (s : State) : Host.Outcome State Fault Refusal := .next (s.wakeLink p l)

/-- L0p applies: one x16 link with L0p Enable set by the host (R182). -/
def State.l0pLink (s : State) (p from_ to_ : Nat) : State :=
  if s.portPresent p ∧ !(s.port p).bifurcated ∧ (s.link p .a).width = 16 ∧ (s.link p .a).l0pEn ∧ (s.link p .a).state = from_ then
    s.modLink p .a fun k => { k with state := to_ }
  else s

/-- L0P_NARROW (R182): not while a request of level 5 or more waits on the link. -/
def execL0pNarrow (p : Nat) (s : State) : Host.Outcome State Fault Refusal := .next (if s.urgentWaits p then s else s.l0pLink p 2 3)

/-- L0P_WIDEN (R182). -/
def execL0pWiden (p : Nat) (s : State) : Host.Outcome State Fault Refusal := .next (s.l0pLink p 3 2)

/-- L0P_HOST_REQUEST (R182). -/
def execL0pHostRequest (p width : Nat) (s : State) : Host.Outcome State Fault Refusal :=
  .next (if width = 8 then (if s.urgentWaits p then s else s.l0pLink p 2 3) else if width = 16 then s.l0pLink p 3 2 else s)

/-- HDM_DECODER_COMMIT (R171). -/
def execHdmDecoderCommit (p : Nat) (l : LinkId) (d base size ways gran skip pos : Nat) (commit : Bool) (s : State) :
    Host.Outcome State Fault Refusal :=
  .next (s.viaBar0 p l fun x => x.hdmCommit p l d base size ways gran skip pos commit)

/-- A CXL memory-device command of the mailbox: unsupported where the mode is not CXL. -/
def State.viaMailbox (s : State) (p : Nat) (l : LinkId) (f : State → State) : State :=
  s.viaBar0 p l fun x => if (x.port p).pcieOnly then x.mailboxDone p l .unsupported [] else f x

/-- IDENTIFY_MEMORY_DEVICE (R171). -/
def execIdentifyMemoryDevice (p : Nat) (l : LinkId) (s : State) : Host.Outcome State Fault Refusal :=
  .next (s.viaMailbox p l fun x => x.mailboxDone p l .success (x.identify p))

/-- GET_POISON_LIST (R175). -/
def execGetPoisonList (p : Nat) (l : LinkId) (s : State) : Host.Outcome State Fault Refusal :=
  .next (s.viaMailbox p l fun x => x.givePoison p l)

/-- CLEAR_POISON (R175). -/
def execClearPoison (p : Nat) (l : LinkId) (dpa : Nat) (s : State) : Host.Outcome State Fault Refusal :=
  .next (s.viaMailbox p l fun x => x.clearPoison p l dpa)

/-- UNSUPPORTED_MAILBOX_COMMAND (R175). -/
def execUnsupportedMailboxCommand (p : Nat) (l : LinkId) (_opcode : Nat) (s : State) : Host.Outcome State Fault Refusal :=
  .next (s.viaBar0 p l fun x => x.mailboxDone p l .unsupported [])

end Sys2Proof.Machine
end

