-- ==== Sys2Proof/Machine/PowerCmds.lean ====
section
/-! DEFINITION. Power, reset, start, thermal and debug-strap commands (R234, R255-R272, R293-R296). -/

namespace Sys2Proof.Machine

/-- FALSE_START for a cause with its event, from the states that lead there (Table 12.3). -/
def State.failTo (s : State) (code : Nat) : State :=
  if 1 ≤ s.run.state ∧ s.run.state ≤ 3 then (s.raise code 0 0 0).falseStart code else s

/-- TRACK_POWER_ON: unpowered to MARKS; the TAP resets (R261, R285). -/
def State.trackOn (s : State) : State :=
  if s.run.state = 5 then
    { s with run := { s.run with state := 0, sysRstLow := true }, test := { s.test with tap := Tap.init } }
  else s

def execTrackPowerOn (s : State) : Host.Outcome State Fault Refusal := .next s.trackOn

/-- TRACK_POWER_LOSS (R262, R269, R270). -/
def execTrackPowerLoss (s : State) : Host.Outcome State Fault Refusal := .next (if s.run.state = 5 then s else s.powerLoss)

/-- SYS_RST_ASSERT: any powered state to MARKS (R257, R261). -/
def execSysRstAssert (s : State) : Host.Outcome State Fault Refusal := .next (if s.run.state = 5 then s else s.holdReset)

/-- SYS_RST_RELEASE (R262, R263, R264). -/
def execSysRstRelease (node : BitVec 4) (bankOk otherBankOk flashFound crcA crcB : Bool) (s : State) :
    Host.Outcome State Fault Refusal :=
  .next (if s.run.state = 0 ∧ s.run.sysRstLow then s.leaveReset node bankOk otherBankOk flashFound crcA crcB else s)

/-- TRAINING_DONE (R149): step 5 of a start ends. -/
def execTrainingDone (chans : List ChanTrain) (s : State) : Host.Outcome State Fault Refusal :=
  .next (if s.run.state = 1 ∧ s.run.dictServed ∧ !s.run.distReady then s.trained chans else s)

/-- FIELD_PG_RISE: Field rails within limits, then the hub and sprint PLLs lock (R256, steps 8 and 9 of Table 12.4). -/
def State.fieldUp (s : State) : State :=
  if s.run.fieldEn ∧ !s.run.fieldPg then
    { s with run := { s.run with
      fieldPg := true, fieldPower := 2, fieldReady := true, plls := s.run.plls ||| (1 + s.stackPlls) } }
  else s

def execFieldPgRise (s : State) : Host.Outcome State Fault Refusal := .next s.fieldUp

/-- FIELD_PG_TIMEOUT (R256). -/
def execFieldPgTimeout (s : State) : Host.Outcome State Fault Refusal :=
  .next (if s.run.fieldEn ∧ !s.run.fieldPg then s.failTo 0x0901 else s)

/-- FIELD_PG_FALL (R256); a T9 in FALSE_START already only sees the rails go. -/
def State.fieldLost (s : State) : State :=
  if s.run.fieldEn ∧ s.run.fieldPg then
    ({ s with run := { s.run with fieldPg := false, fieldPower := 1, fieldReady := false, plls := s.run.plls &&& 0x3E } }).failTo
      0x0901
  else s

def execFieldPgFall (s : State) : Host.Outcome State Fault Refusal := .next s.fieldLost

/-- SPRINT_INIT_DONE: steps 10 to 12 of Tables 12.4 and 12.5, after the distance step and the Field step. -/
def execSprintInitDone (pcBad : List (Nat × Nat)) (perst : BitVec 4) (s : State) : Host.Outcome State Fault Refusal :=
  .next (if s.run.state = 1 ∧ s.run.distReady ∧ s.run.fieldReady then (s.sprintReady pcBad perst).onward else s)

/-- PAUSE_DEMOTIONS_DONE (R266). -/
def execPauseDemotionsDone (s : State) : Host.Outcome State Fault Refusal := .next s.pauseStep.onward

/-- PLL_LOCK_LOSS (R268): the hub PLL runs only while the Field domain has power. -/
def State.pllLost (s : State) (hub : Bool) : State :=
  let b := if hub then 1 else 2
  if s.run.plls &&& b = 0 then s
  else ({ s with run := { s.run with plls := s.run.plls - b } }).failTo 0x0905

def execPllLockLoss (hub : Bool) (s : State) : Host.Outcome State Fault Refusal := .next (s.pllLost hub)

/-- DDR_PLL_LOCK_LOSS: the four channels of the quadrant become unresponsive (R155, section 12.10). -/
def State.ddrPllLost (s : State) (q : Nat) : State :=
  let b := 2 ^ (q + 2)
  if 4 ≤ q ∨ s.run.plls &&& b = 0 then s
  else (upto 4).foldl (fun s i => if s.unitRuns (.dist (4 * q + i)) then s.unreadable (4 * q + i) 5 else s)
    { s with run := { s.run with plls := s.run.plls - b } }

def execDdrPllLockLoss (q : Nat) (s : State) : Host.Outcome State Fault Refusal := .next (s.ddrPllLost q).onward

/-- The highest of a list of readings. -/
def hottest (old : Int) : List Int → Int
  | [] => old
  | x :: r => r.foldl max x

/-- DIE_SENSOR_POLL: readings of the hub and I/O dies; TJ_HOTTEST at THERMAL_TRIP trips (R295). -/
def State.sensors (s : State) (hub io : List Int) : State :=
  if s.run.state = 0 ∨ s.run.state = 5 then s
  else
    let s1 := { s with run := { s.run with hubTemp := hub, ioTemp := io, tj := hottest s.run.tj (hub ++ io) } }
    if (s.num 0x9000 3 : Int) ≤ s1.run.tj then s1.failTo 0x0906 else s1

def execDieSensorPoll (hub io : List Int) (s : State) : Host.Outcome State Fault Refusal := .next (s.sensors hub io)

/-- THROTTLE_INTERVAL: T rises, falls or holds by the peak of TJ_HOTTEST and the average of POWER_NOW in mW; without a cap the
power condition of a fall is met (R293, DEDUCED, log entry 32). -/
def State.throttleStep (s : State) (peak : Int) (avg trk : Nat) : State :=
  let s0 := { s with run := { s.run with powerNow := avg, powerTrack := trk } }
  if !s.inGo then s0
  else
    let lim : Int := s.num 0x9000 2
    let cap := 1000 * s.num 0x9000 8
    let t := s.run.throttle
    if lim ≤ peak ∨ (cap ≠ 0 ∧ cap < avg) then
      let s1 := { s0 with run := { s0.run with throttle := min 6 (t + 1) } }
      if t = 0 then s1.bump 0x9000 5 else s1
    else if peak ≤ lim - 3 ∧ (cap = 0 ∨ 100 * avg ≤ 95 * cap) then { s0 with run := { s0.run with throttle := t - 1 } }
    else s0

def execThrottleInterval (peak : Int) (avgPower trackPower : Nat) (s : State) : Host.Outcome State Fault Refusal :=
  .next (s.throttleStep peak avgPower trackPower)

/-- THERMTRIP: the comparator latches the pin low; only loss of Track power clears it (R296). -/
def State.tripped (s : State) : State :=
  if s.run.thermtrip ∨ s.run.state = 5 then s else ({ s with run := { s.run with thermtrip := true } }).emit .thermtripLow

def execThermtrip (s : State) : Host.Outcome State Fault Refusal := .next s.tripped

/-- DEBUG_EN_FALL (R234). -/
def execDebugEnFall (s : State) : Host.Outcome State Fault Refusal :=
  .next { s with part := { s.part with debugEn := false } }.lockMux

/-- DEBUG_EN_RISE: TRACK_DEBUG_EN reads 1 (R234). -/
def execDebugEnRise (s : State) : Host.Outcome State Fault Refusal :=
  .next { s with part := { s.part with debugEn := true } }

end Sys2Proof.Machine
end

