-- ==== Sys2Proof/Machine/ReadOps.lean ====
section
/-! DEFINITION. How reads of stored blocks end: arrival, checks, repair and completion (R17, R57, R74, R82, R86, R152). -/

namespace Sys2Proof.Machine

/-- The items of a request leave, but its promotion. -/
def State.dropReqItems (s : State) (id : Nat) : State :=
  { s with relay := { s.relay with items := s.relay.items.filter fun i => i.req != some id || i.kind == .promote } }

/-- The job a read of a copy belongs to had a block served from its other copy (R98, FLAGS REPAIRED). -/
def State.jobRepaired (s : State) (r : Req) : State :=
  match r.src with
  | .job id _ => s.modJob id fun j => { j with repaired := true }
  | .fetch id _ => s.modJob id fun j => { j with repaired := true }
  | _ => s

/-- A block of a read failed: the other copy serves it, or the page is poisoned (R57). A copy that the page has left raises the event
and is looked up again. A job whose block the other copy serves is marked REPAIRED (R98). -/
def State.readLost (s : State) (dist : Bool) (check : Nat) (r : Req) : State :=
  if !s.sameCopy dist r then
    (s.checkEvent 1 r.lpn r.blk (r.entry.tierUnit dist) check).reread [r.id]
  else
    match s.checkFail r.lpn r.blk dist check with
    | (some data, s1) =>
      (s1.modReq r.id fun x => { x with rdata := if dist then data else r.cut r.entry data }).jobRepaired r
    | (none, s1) => (s1.dropReqItems r.id).readDone r [] true

/-- The last granule of a sprint read has arrived: RAW data completes, coded and vault blocks go to a relay engine (R17, R74, R86). -/
def State.sprintArrived (s : State) (u : DramUnit) (r : Req) : State :=
  if (s.dramQ u).holds r.id then s
  else if isCoded (r.entry.code r.blk) then
    (s.setStage r .item).addItem .expand r.lpn r.blk r.bib (some r.port) (some r.id) none
  else if r.entry.st = 6 then (s.setStage r .item).addItem .xts r.lpn r.blk r.bib (some r.port) (some r.id) none
  else s.readDone r r.rdata false

/-- Bytes of a read out of the decrypted 16-byte units that hold them. -/
def Req.ofUnits (r : Req) (units : List Byte) : List Byte := slice units (r.off % 16) r.len

/-- What a read returns of a whole stored block (R52, R82, R86). -/
def State.answerOf (s : State) (r : Req) (stored : List Byte) : List Byte :=
  if r.entry.st = 6 then
    let lo := r.off / 16 * 16
    r.ofUnits (vaultCrypt false ((s.vaultKey r.lpn).getD []) r.lpn r.blk lo (slice stored lo (alignUp 16 (r.off + r.len) - lo)))
  else slice (s.plain r.lpn r.entry r.blk stored) r.off r.len

/-- An engine ends a read: the block is checked and expanded, and the read completes (R74, R82). -/
def State.serveRead (s : State) (it : Item) (dist : Bool) : State :=
  match it.req.bind s.req with
  | none => s.dropItem it.id
  | some r =>
    let s1 := match s.blockFails r.lpn r.entry r.blk r.rdata with
      | none => s
      | some c => s.readLost dist c r
    match s1.req r.id with
    | none => s1.dropItem it.id
    | some r1 => if r1.stage = .item then (s1.dropItem it.id).readDone r1 (s1.answerOf r1 r1.rdata) false else s1.dropItem it.id

end Sys2Proof.Machine
end

