-- ==== Sys2Proof/Machine/RelayCmds.lean ====
section
/-! DEFINITION. Commands of the relay engines and of firmware's tier moves (R12, R30, R31, R37, R57, R64-R91, R133, R254, R279,
R298). -/

namespace Sys2Proof.Machine

/-- A running item of a kind. -/
def State.runningItem (s : State) (id : Nat) (k : ItemKind) : Option Item :=
  (s.item id).bind fun it => if it.kind = k ∧ it.running then some it else none

/-- ITEM_START (R71). -/
def execItemStart (e : Nat) (s : State) : Host.Outcome State Fault Refusal :=
  .next (if s.inGo ∧ e < 16 then (s.engineTakes e).onward else s)

/-! ### Reads and writes through an engine -/

/-- EXPAND_DONE (R74). -/
def execExpandDone (item : Nat) (s : State) : Host.Outcome State Fault Refusal :=
  .next (match s.runningItem item .expand with
    | some it => (s.serveRead it false).onward
    | none => s)

/-- XTS_DONE for a write: its page may have left the sprint tier while the item ran. -/
def State.xtsWrite (s : State) (r : Req) : State :=
  let e := s.view r.lpn
  if e.st = 6 ∧ e.inSprint then s.sprintWrite r e else s.setStage r .hold

/-- XTS_DONE (R86). -/
def State.xtsEnd (s : State) (it : Item) : State :=
  let s1 := s.dropItem it.id
  match it.req.bind s.req with
  | none => s1
  | some r =>
    if (s.vaultKey r.lpn).isNone then s1.lockedVault r
    else if r.write then s1.xtsWrite r
    else
      let lo := r.off / 16 * 16
      s1.readDone r (r.ofUnits (vaultCrypt false ((s.vaultKey r.lpn).getD []) r.lpn r.blk lo r.rdata)) false

def execXtsDone (item : Nat) (s : State) : Host.Outcome State Fault Refusal :=
  .next (match s.runningItem item .xts with
    | some it => (s.xtsEnd it).onward
    | none => s)

/-- BYPASS_DONE once the packed granules have arrived (R82). -/
def State.bypassEnd (s : State) (it : Item) : State :=
  match it.req.bind s.req with
  | none => s.dropItem it.id
  | some r =>
    if (s.dramQ (.dist r.entry.channel)).holds r.id then s
    else
      let s1 := (s.bump 0x5010 6).touchUse r.lpn false r.bib
      let u := s1.use r.lpn
      (s1.setUse r.lpn { u with bypasses := u.bypasses + 1 }).serveRead it true

def execBypassDone (item : Nat) (s : State) : Host.Outcome State Fault Refusal :=
  .next (match s.runningItem item .bypass with
    | some it => (s.bypassEnd it).onward
    | none => s)

/-- The coded block becomes RAW in its place, with the state change of Table 2.9 (R79). -/
def State.rawBlock (s : State) (lpn b : Nat) (stored : List Byte) : State :=
  let cur := s.page lpn
  let e := s.view lpn
  let e1 := cur.setCode b 15
  let st := if cur.st = 4 then 5 else e1.settledState cur.st
  let moving := cur.st == 7
  ((s.writeSprint (e.sprintAddr b) (s.plain lpn e b stored)).swapPage lpn { e1 with st := st, touched := cur.touched || moving }).markBlock
    lpn b

/-- The block of an UNSEAL rewritten RAW, its 32 granules on their way into the queue before the held write (R79). -/
def State.unsealed (s : State) (it : Item) (stored : List Byte) : State :=
  let s1 := (s.rawBlock it.lpn it.blk stored).bump 0x5010 0x0A
  s1.blockFlows it.id it.lpn false true (s1.view it.lpn) [it.blk] (some it.bib) it.port

/-- UNSEAL_DONE once the coded granules have been read: the block is checked, expanded and rewritten RAW; then the held write goes on
(R57, R79). -/
def State.unsealEnd (s : State) (it : Item) : State :=
  let e := s.view it.lpn
  let s1 := s.dropItem it.id
  if s.busy it.id then s
  else if !e.inSprint ∨ !isCoded (e.code it.blk) then s1
  else
    let stored := s.sprintBlock e it.blk
    match s.blockFails it.lpn e it.blk stored with
    | none => s1.unsealed it stored
    | some c =>
      match s1.checkFail it.lpn it.blk false c with
      | (some good, s2) => s2.unsealed it good
      | (none, s2) => s2

def execUnsealDone (item : Nat) (s : State) : Host.Outcome State Fault Refusal :=
  .next (match s.runningItem item .unseal with
    | some it => (s.unsealEnd it).onward
    | none => s)

/-! ### Failures of an engine -/

/-- The failed work of the last unfenced engine runs again on it; at the third failure in a row a move is abandoned to its journal
state and raised again, not before 1 ms, and a read item is a check failure of its block (R279). -/
def State.rerun (s : State) (it : Item) : State :=
  let n := it.fails + 1
  if n < 3 then
    let s1 := match s.moveOn it.lpn with
      | some m => if m.item.id = it.id then s.restartMove m (it.engine.getD 0) else s
      | none => s
    (s1.dropFlows it.id).modItem it.id fun i => { i with running := false, engine := it.engine, fails := n }
  else
    match s.moveOn it.lpn with
    | some m =>
      if m.item.id = it.id then
        let s1 := s.undoMove m
        let again := { it with id := s1.nextId, running := false, engine := none, fails := 0, age := s.now + 1000000 }
        let s2 := s1.newId
        { s2 with relay := { s2.relay with items := s2.relay.items ++ [again] } }
      else s
    | none =>
      match it.req.bind s.req with
      | some r =>
        if r.write then ((s.checkFail r.lpn r.blk false 0).2.dropItem it.id).setStage r .hold
        else (s.readLost (it.kind == .bypass) 0 r).dropItem it.id
      | none => (s.dropFlows it.id).modItem it.id fun i => { i with running := false, fails := 0 }

/-- A failure of the last unfenced relay engine (R279). -/
def State.lastFailure (s : State) (e : Nat) : State :=
  let its := s.relay.items.filter fun i => i.engine == some e && i.running
  its.foldl State.rerun ((s.dropInject (unitRelay e)).raise 0x0413 (unitRelay e) 0 0)

/-- A relay engine fails: fenced, unless it is the last one (R77, R278, R279). -/
def State.relayFails (s : State) (e : Nat) : State :=
  if 16 ≤ e ∨ (s.relayEng e).fenced ∨ !s.inGo then s
  else if s.unfenced ≤ 1 then s.lastFailure e
  else s.fenceRelay e

def execRelayEngineFailure (e : Nat) (s : State) : Host.Outcome State Fault Refusal := .next (s.relayFails e).onward

/-- LAST_RELAY_ENGINE_FAILURE (R279). -/
def execLastRelayEngineFailure (e : Nat) (s : State) : Host.Outcome State Fault Refusal :=
  .next (if e < 16 ∧ s.inGo ∧ !(s.relayEng e).fenced ∧ s.unfenced = 1 then (s.lastFailure e).onward else s)

/-! ### Ends of moves -/

/-- A move past its read-back goes on: an injected failure, a bad destination, or its end (R68, R77, R283). -/
def State.finishMove (s : State) (m : Move) (done : State → State) : State :=
  if m.inject = 0x10 then s.asInjected fun x => x.relayFails (m.item.engine.getD 0)
  else if m.inject = 0x11 then
    let f := injectedFault m.codes
    s.asInjected fun x => x.destFault m f.1 f.2
  else
    match m.dstBad with
    | b :: _ => s.destFault m b 0
    | [] => done s

/-- A move is abandoned and its item raised again at once (R78). -/
def State.raiseAgain (s : State) (m : Move) : State :=
  (s.abandon m).addItem m.item.kind m.item.lpn 0 m.item.bib m.item.port none m.item.chan

/-- MOVE_SWITCH once the read-back has drained (R31, R68, R75): TOUCHED returns the page to its prior state; a recode whose version no
page may take any more starts again (R64). -/
def State.moveEnds (s : State) (m : Move) : State :=
  if m.step ≠ 5 ∨ !m.switches then s
  else s.finishMove m fun x =>
    if (x.page m.item.lpn).touched then x.abandon m
    else if m.item.kind = .recode ∧ !x.cbvOpen m then x.raiseAgain m
    else x.switchTo m

def execMoveSwitch (move : Nat) (s : State) : Host.Outcome State Fault Refusal :=
  .next (match s.move move with
    | some m => if s.inGo then (s.moveEnds m).onward else s
    | none => s)

/-- SEAL_CLOSE once the read-back has drained (R64, R68, R78, R85). -/
def State.sealEnds (s : State) (m : Move) : State :=
  match m.slot, m.switches with
  | some sl, false =>
    if m.step ≠ 5 then s
    else s.finishMove m fun x => if x.cbvOpen m then x.closeSeal m sl else x.raiseAgain m
  | _, _ => s

def execSealClose (move : Nat) (s : State) : Host.Outcome State Fault Refusal :=
  .next (match s.move move with
    | some m => if s.inGo then (s.sealEnds m).onward else s
    | none => s)

/-- SEAL_CLOSE_LIMIT: abandoned, and raised again at once (R78). -/
def State.sealLate (s : State) (m : Move) : State := if m.switches then s else s.raiseAgain m

def execSealCloseLimit (move : Nat) (s : State) : Host.Outcome State Fault Refusal :=
  .next (match s.move move with
    | some m => if s.inGo ∧ m.slot.isSome then (s.sealLate m).onward else s
    | none => s)

/-- SEAL_IDLE_TIMER: a SPRINT_RAW page stayed unwritten; the item carries the bib of the last write (R30, Table 4.2). -/
def State.sealIdleEnds (s : State) (lpn : Nat) : State :=
  if s.inGo ∧ (s.page lpn).st = 1 ∧ !s.sealPending lpn ∧ s.region lpn < 64 then
    s.addItem .sealing lpn 0 (s.use lpn).lastBib none none none
  else s

def execSealIdleTimer (lpn : Nat) (s : State) : Host.Outcome State Fault Refusal := .next (s.sealIdleEnds lpn).onward

/-- SPACE_FREED: the last reader of freed space has ended (R76). -/
def State.freeTicket (s : State) (ticket : Nat) : State :=
  match s.tier.deferred.find? fun d => d.ticket == ticket with
  | none => s
  | some d =>
    let reads := (s.reqs.filter fun r => r.stage == .dram || r.stage == .item || r.stage == .queue).map (·.id)
    let legs := (s.stride.legs.filter fun l => !l.done).map (·.id)
    if d.readers.any fun i => reads.contains i || legs.contains i then s
    else ({ s with tier := { s.tier with deferred := s.tier.deferred.filter fun x => x.ticket != ticket } }).freeSpace d.space

def execSpaceFreed (ticket : Nat) (s : State) : Host.Outcome State Fault Refusal := .next (s.freeTicket ticket).onward

/-! ### Codebooks -/

/-- BUILD_DONE once the record's pages have been read: their blocks are checked, the version is written, and every page of the
record that is still SPRINT_RAW is sealed again (R56, R57, R65, section 2.5). -/
def State.buildEnds (s : State) (it : Item) : State :=
  if s.busy it.id then s
  else
    let n := it.blk
    let s0 := s.checkBuild n
    let set := buildSet (s0.num (0x2100 + n) 3) (s0.num (0x5100 + n) 1) (s0.num (0x5100 + n) 2) (s0.num (0x5100 + n) 3)
      ((s0.sealRecord n).map s0.buildPage)
    let slot := (mget s0.relay.cbNums 0 n + 1) % 16
    let s1 := (s0.newVersion n slot set).dropItem it.id
    let s2 := { s1 with relay := { s1.relay with builds := s1.relay.builds.filter fun b => b.region != n } }
    (s2.reseal n).buildJobs n slot

def execBuildDone (item : Nat) (s : State) : Host.Outcome State Fault Refusal :=
  .next (match s.runningItem item .build with
    | some it => (s.buildEnds it).onward
    | none => s)

/-- VERSION_RETIRED (R62, R64). -/
def execVersionRetired (region slot : Nat) (s : State) : Host.Outcome State Fault Refusal := .next (s.retire region slot).onward

/-- REBUILD_REQUEST (R88). -/
def execRebuildRequest (region : Nat) (s : State) : Host.Outcome State Fault Refusal :=
  .next (if s.core1Runs ∧ region < 64 ∧ s.buildable region ∧ s.escapesHigh region then
      (s.requestBuild region s.firmwareBib none).onward
    else s)

/-! ### Credits and timers -/

/-- The promotion of a page leaves the queues. -/
def State.dropPromotion (s : State) (lpn : Nat) : State :=
  { s with relay := { s.relay with items := s.relay.items.filter fun i => i.kind != .promote || i.lpn != lpn } }

/-- Every read that waits for a page's promotion becomes a bypass read. -/
def State.bypassAll (s : State) (lpn : Nat) : State :=
  (s.reqs.filter fun x => x.lpn == lpn && x.stage == .promotion && !x.write).foldl (fun s x => s.bypassRead x (s.view x.lpn)) s

/-- PROMOTE_SLOT_WAIT: the promotion of a read that waits is dropped unless it has its slot; its reads become bypass reads (R81). -/
def State.slotWait (s : State) (id : Nat) : State :=
  match s.req id with
  | none => s
  | some r =>
    let mv : Option Move := (s.moveOn r.lpn).filter fun m => m.item.kind == .promote
    let held : Bool := match mv with
      | some m => m.slot.isSome
      | none => false
    if r.write || r.stage != .promotion || held then s
    else
      let s1 : State := match mv with
        | some m => s.undoMove m
        | none => s
      (s1.dropPromotion r.lpn).bypassAll r.lpn

def execPromoteSlotWait (req : Nat) (s : State) : Host.Outcome State Fault Refusal := .next (s.slotWait req).onward

/-- SLOT_CREDIT_GRANT: a write that waits for a slot is backed, and moves that wait take their space (R12, R75). -/
def State.grant (s : State) (id : Nat) : State :=
  let s1 : State := match s.req id with
    | some r => if r.stage = .slot then (s.setStage r .hold).dispatch r else s
    | none => s
  (s1.relay.moves.filter fun m => !m.hasSpace).foldl State.takeSpace s1

def execSlotCreditGrant (req : Nat) (s : State) : Host.Outcome State Fault Refusal :=
  .next (if s.inGo then (s.grant req).onward else s)

/-- A promotion of the page waits for its slot credit (R12, R75). -/
def State.slotless (s : State) (lpn : Nat) : Bool :=
  ((s.moveOn lpn).map fun m => m.item.kind == .promote && m.slot.isNone).getD false

/-- A write that needs new space and is held for it: withheld, or waiting for a slot credit, of its own or of its promotion (R36,
R37). -/
def State.waitsForSpace (s : State) (r : Req) : Bool :=
  r.write && (r.stage == .withheld || r.stage == .slot || (r.stage == .promotion && s.slotless r.lpn))

/-- A COPY_IN of an image that an engine holds for want of a sprint slot (R36, R67). -/
def State.imageHeld (s : State) (id : Nat) : Option Item :=
  (s.item id).filter fun it =>
    it.kind == .copyIn && it.running && (s.withheld it.bib || (s.pickSlot (s.homeFor it.lpn)).isNone)
      && s.stride.jobs.any fun j => some j.id == it.job && j.form == 1 && j.phase == .queued

/-- A write was never backed: its page is POISONED with event 0x0207 (R37). -/
def State.unbacked (s : State) (lpn : Nat) : State := ((s.losePage lpn).raisePage 0x0207 0 0 lpn 0).bump 0x1310 0x0A

/-- BACKING_TIMEOUT of a held write, or of a held image, whose job is then REJECTED (DEDUCED, log entry 69): only below the low mark,
with core 1 running, and not in the one-to-one case (R37). -/
def State.backingEnds (s : State) (id : Nat) : State :=
  if !s.core1Runs ∨ s.unregulated ∨ !s.below (2 * s.num 0x2000 4) then s
  else
    match s.req id, s.imageHeld id with
    | some r, _ => if s.waitsForSpace r then (s.unbacked r.lpn).writeDone r else s
    | none, some it => s.unbacked it.lpn
    | none, none => s

def execBackingTimeout (req : Nat) (s : State) : Host.Outcome State Fault Refusal := .next (s.backingEnds req).onward

/-! ### Firmware -/

/-- DEMOTION_CHOICE: while slots are short, or the free fraction is below its mark (R36, R133, section 4.6). -/
def execDemotionChoice (lpns : List Nat) (s : State) : Host.Outcome State Fault Refusal :=
  .next (if !s.core1Runs then s
    else if s.below (2 * s.num 0x2000 4) then ((s.demoteBuiltIn lpns).compactList lpns).onward
    else if s.slotsLow then (s.demoteBuiltIn lpns).onward
    else s)

/-- SLOT_RECLAIM (R30, R133). -/
def execSlotReclaim (lpn : Nat) (s : State) : Host.Outcome State Fault Refusal :=
  .next (if s.core1Runs ∧ s.reclaimNext lpn then (s.reclaim lpn).onward else s)

/-- A policy module makes the promotion choice of an epoch (Table 11.13). -/
def State.policyPromotes (s : State) : Bool := s.dict.policyState == 2 && hookEntry s.dict.policy 3 != 0

/-- COUNTER_EPOCH: the built-in promotions, unless a module made them, and the counters start again (R82). -/
def State.epochEnds (s : State) : State :=
  let s1 := if s.core1Runs ∧ !s.policyPromotes then s.promoteDue (s.map.uses.map (·.1)) else s
  let again := fun (x : Nat × PageUse) => (x.1, { x.2 with accesses := 0, bypasses := 0 })
  { s1 with
    map := { s1.map with uses := (s1.map.uses.map again).filter fun x => x.2 != PageUse.zero }
    dict := { s1.dict with epoch := s1.dict.epoch + 1 } }

def execCounterEpoch (s : State) : Host.Outcome State Fault Refusal := .next (if s.inGo then s.epochEnds.onward else s)

/-- PROVISION_SETTLE_MOVE (R298): a page is given an aligned run of 16 plots. -/
def State.settleMove (s : State) (lpn : Nat) : State :=
  let s1 := if (s.page lpn).twoCopies then s.reclaim lpn else s
  let e := s1.page lpn
  if !s1.quiet lpn ∨ s1.placed e then s1
  else if e.distOnly then s1.raiseMove (if (s1.findRun e.channel 16 16).isSome then .compact else .evacuate) lpn
  else if moveFits .writeback e then s1.raiseMove .writeback lpn
  else s1

def execProvisionSettleMove (lpn : Nat) (s : State) : Host.Outcome State Fault Refusal :=
  .next (if s.core1Runs ∧ !s.map.settled ∧ (s.page lpn).inDist ∧ !s.placed (s.page lpn) then (s.settleMove lpn).resettle.onward
    else s.resettle.onward)

/-! ### Policy hooks -/

/-- Candidates a hook takes. -/
def hookSize (hook n : Nat) : Bool :=
  match hook with
  | 1 => decide (1 ≤ n ∧ n ≤ 512)
  | 2 => n == 1
  | 3 => decide (1 ≤ n ∧ n ≤ 512)
  | 4 => n == 0
  | _ => false

/-- POLICY_HOOK_CALL (R253). -/
def execPolicyHookCall (hook : Nat) (lpns : List Nat) (base : Nat) (s : State) : Host.Outcome State Fault Refusal :=
  .next (if s.core1Runs ∧ hookSize hook lpns.length then s.callHook hook lpns base else s)

/-- POLICY_HOOK_REPLY (R254). -/
def execPolicyHookReply (value : Nat) (s : State) : Host.Outcome State Fault Refusal := .next (s.hookReply value).onward

/-- POLICY_HOOK_DEADLINE (R254). -/
def execPolicyHookDeadline (s : State) : Host.Outcome State Fault Refusal :=
  .next (if s.dict.hook.isSome then s.policyFault.onward else s)

end Sys2Proof.Machine
end

