-- ==== Sys2Proof/Machine/TestOps.lean ====
section
/-! DEFINITION. Engine laps (R278-R281) and the TAP (R285). -/

namespace Sys2Proof.Machine

/-! ### Laps -/

/-- An engine by lap number: 0-15 stride, 16-31 relay. -/
def State.lapEng (s : State) (e : Nat) : Engine := if e < 16 then s.strideEng e else s.relayEng (e - 16)

def State.modLapEng (s : State) (e : Nat) (f : Engine → Engine) : State :=
  if e < 16 then s.modStride e f else s.modRelay (e - 16) f

/-- UNIT of an engine by lap number. -/
def lapUnit (e : Nat) : Nat := if e < 16 then unitStride e else unitRelay (e - 16)

/-- The engine is present in the variant. -/
def State.lapPresent (s : State) (e : Nat) : Bool := decide (e < 32) && (s.hasStride || decide (16 ≤ e))

/-- A lap can run on the engine: present and not fenced (R281). -/
def State.lapEligible (s : State) (e : Nat) : Bool := s.lapPresent e && !(s.lapEng e).fenced

/-- The first eligible engine from a number on, wrapping. -/
def State.lapFrom (s : State) (e : Nat) : Option Nat := ((upto 32).map fun i => (e + i) % 32).find? s.lapEligible

/-- Laps run only in GO, one at a time (R280). -/
def State.lapsOpen (s : State) : Bool := s.inGo && s.run.trans == .none && s.test.lap.isNone

/-- Step 2 of Table 13.6: the engine takes no new leg or item. -/
def State.lapStart (s : State) (e : Nat) (forced aged : Bool) : State :=
  ({ s with test := { s.test with lap := some ⟨e, forced, aged, false⟩ } }).modLapEng e fun g => { g with drained := true }

/-- A lap outside the rotation: at once, and never skipped (R233, R281). -/
def State.lapNow (s : State) (e : Nat) (aged : Bool) : State :=
  if s.lapsOpen ∧ s.lapEligible e then s.lapStart e true aged else s

/-- A rotation lap becomes due: the skip rule, then the lap on the next engine (R281). -/
def State.lapDue (s : State) : State :=
  if !s.lapsOpen then s
  else if s.strained then s.bump 0xA000 6
  else
    match s.lapFrom s.test.lapNext with
    | some e => s.lapStart e false false
    | none => s

/-- Legs or items in flight on the engine. -/
def State.lapBusy (s : State) (e : Nat) : Bool :=
  if e < 16 then decide (0 < s.legsOn e) else s.relay.items.any fun i => i.engine == some (e - 16) && i.running

/-- Step 3 ends: the vectors run. -/
def State.lapDrained (s : State) : State :=
  match s.test.lap with
  | some l => if s.lapBusy l.engine then s else { s with test := { s.test with lap := some { l with drained := true } } }
  | none => s

/-- The lap is over: the engine takes work again, and its age starts anew. -/
def State.lapEnd (s : State) (e : Nat) : State :=
  ({ s with test := { s.test with lap := none } }).modLapEng e fun g => { g with drained := false }

/-- Step 3 has not ended within 2 ms: a lap that is not forced is counted as skipped (R280). -/
def State.lapTimeout (s : State) : State :=
  match s.test.lap with
  | some l => if l.drained ∨ l.forced then s else (s.lapEnd l.engine).bump 0xA000 6
  | none => s

/-- ns spent in GO since SET. -/
def State.goTime (s : State) : Nat := s.run.goAccum + (if s.run.state = 2 then s.now - s.run.goSince else 0)

/-- An engine is fenced for a failed lap; the last unfenced relay engine is not (R278, R279). -/
def State.lapFence (s : State) (e : Nat) : State := if e < 16 then s.fenceStride e else s.relayFails (e - 16)

/-- A lap has failed: LAP_FAILS, event 0x0A01, the ports woken (R280). -/
def State.lapFailed (s : State) (e : Nat) (aged : Bool) : State :=
  ((s.bump 0xA000 5).raise 0x0A01 (lapUnit e) (b2n aged) 0).wakeAll

/-- LAP_NEXT after a rotation lap on an engine (R281). -/
def State.lapAdvance (s : State) (l : Lap) : State :=
  if l.forced then s else { s with test := { s.test with lapNext := (s.lapFrom (l.engine + 1)).getD l.engine } }

/-- Steps 4 and 5 of Table 13.6. -/
def State.lapDone (s : State) (pass : Bool) : State :=
  match s.test.lap with
  | some l =>
    if !l.drained then s
    else
      let e := l.engine
      let s1 := (s.lapEnd e).modLapEng e fun g => { g with lapAge := s.goTime }
      let fail := fun (x : State) => (x.lapFailed e l.aged).lapFence e
      let s2 :=
        if e < 16 ∧ s.armed (unitStride e) 0x02 then s1.fireInject (unitStride e) 0x02 fail
        else if pass then s1.bump 0xA000 4
        else fail s1
      s2.lapAdvance l
  | none => s

/-- The re-admission lap of a fenced engine: back in service, or fenced until SYS_RST_N (R278). -/
def State.readmit (s : State) (e : Nat) (pass : Bool) : State :=
  if s.lapsOpen ∧ s.lapPresent e ∧ (s.lapEng e).fenced ∧ !(s.lapEng e).permanent then
    let s1 := s.modLapEng e fun g => { g with fenced := !pass, permanent := !pass, lapAge := s.goTime }
    if pass then (s1.bump 0xA000 4).raise (if e < 16 then 0x0521 else 0x0412) (lapUnit e) 0 0 else s1.lapFailed e false
  else s

/-! ### TAP (R285) -/

/-- The next controller state of IEEE 1149.1. -/
def TapState.next (st : TapState) (tms : Bool) : TapState :=
  match st with
  | .reset => if tms then .reset else .idle
  | .idle => if tms then .selDr else .idle
  | .selDr => if tms then .selIr else .capDr
  | .capDr => if tms then .ex1Dr else .shDr
  | .shDr => if tms then .ex1Dr else .shDr
  | .ex1Dr => if tms then .upDr else .paDr
  | .paDr => if tms then .ex2Dr else .paDr
  | .ex2Dr => if tms then .upDr else .shDr
  | .upDr => if tms then .selDr else .idle
  | .selIr => if tms then .reset else .capIr
  | .capIr => if tms then .ex1Ir else .shIr
  | .shIr => if tms then .ex1Ir else .shIr
  | .ex1Ir => if tms then .upIr else .paIr
  | .paIr => if tms then .ex2Ir else .paIr
  | .ex2Ir => if tms then .upIr else .shIr
  | .upIr => if tms then .selDr else .idle

/-- IDCODE. -/
def idcode : Nat := 0x10900779

/-- The data register an instruction selects: 0 BYPASS, 1 IDCODE, 2 boundary. EXTEST acts as BYPASS while SYS_RST_N is high. -/
def tapReg (ir : Nat) (rstLow : Bool) : Nat := if ir = 1 then 1 else if ir = 2 ∨ (ir = 0 ∧ rstLow) then 2 else 0

/-- What Capture-DR loads, bit 0 first. -/
def tapCapture (reg draw : Nat) : List Bool :=
  match reg with
  | 1 => (upto 32).map idcode.testBit
  | 2 => (upto Config.boundaryLength).map (Config.boundarySample draw)
  | _ => [false]

/-- Test-Logic-Reset: IDCODE is the instruction. -/
def Tap.toReset (t : Tap) : Tap := { t with st := .reset, ir := 1, tdo := none }

/-- A TCK cycle of the TAP; draw names the free values it captures. -/
def Tap.cycle (t : Tap) (tms tdi rstLow : Bool) (draw : Nat) : Tap :=
  let reg := tapReg t.ir rstLow
  let t1 : Tap :=
    match t.st with
    | .capDr => { t with dr := tapCapture reg draw, tdo := none }
    | .shDr => { t with tdo := some (t.dr.headD tdi), dr := (t.dr ++ [tdi]).drop 1 }
    | .capIr => { t with irShift := 1 + 4 * (Config.irCapture draw).toNat, tdo := none }
    | .shIr => { t with tdo := some (bit t.irShift 0), irShift := t.irShift / 2 + 16 * b2n tdi }
    | _ => { t with tdo := none }
  let t2 := { t1 with st := t.st.next tms, tmsHigh := if tms then t.tmsHigh + 1 else 0 }
  match t2.st with
  | .reset => { t2 with ir := 1 }
  | .upIr => { t2 with ir := t2.irShift }
  | .upDr => if reg = 2 then { t2 with latch := t2.dr } else t2
  | _ => t2

/-- The TAP of a powered T9 takes a step, and TDO shows its bit while it shifts. -/
def State.tapStep (s : State) (t : Tap) : State :=
  if s.run.state = 5 then s
  else
    let s1 := { s.drawn with test := { s.test with tap := t } }
    match t.tdo with
    | some b => s1.emit (.tdo (some b))
    | none => s1

end Sys2Proof.Machine
end

