-- ==== Sys2Proof/Machine/DictOps.lean ====
section
/-! DEFINITION. An access of the dictionary: the checks of R196, staging and commits (R198-R201), write-once objects (R202), the
conditions and effects of each object, and policy images (R253). -/

namespace Sys2Proof.Machine

/-! ### Contexts (R198-R201, R206) -/

/-- The staging context of a door. -/
def ctxOf : Door → CtxId
  | .field _ => .shared
  | .session id => .session id
  | .infield p l => .infield p l

/-- A context; one that holds nothing is not listed. -/
def State.ctx (s : State) (id : CtxId) : Ctx := (s.dict.ctxs.find? fun c => c.id == id).getD ⟨id, [], [], none, none⟩

/-- A context replaced. -/
def State.setCtx (s : State) (c : Ctx) : State :=
  let rest := s.dict.ctxs.filter fun x => x.id != c.id
  let empty := c.staged.isEmpty && c.recs.isEmpty && c.wbuf.isNone && c.snap.isNone
  { s with dict := { s.dict with ctxs := if empty then rest else rest ++ [c] } }

/-- A context ends. -/
def State.endCtx (s : State) (id : CtxId) : State :=
  { s with dict := { s.dict with ctxs := s.dict.ctxs.filter fun x => x.id != id } }

/-- Staged values of a group; the group is named by its index, which its members share. -/
def Ctx.dropGroup (c : Ctx) (g : Nat) : Ctx :=
  { c with staged := c.staged.filter (fun x => x.1 / 256 != g), recs := c.recs.filter fun x => x.1 != g }

def Ctx.stagedAt (c : Ctx) (index sub : Nat) : Option (List Byte) := (c.staged.find? fun x => x.1 == okey index sub).map (·.2)

/-- Bytes staged in a context. -/
def Ctx.bytes (c : Ctx) : Nat := total (c.staged.map fun x => x.2.length)

def State.commitCount (s : State) (g : Nat) : Nat := mget s.dict.commits 0 g

/-- A value staged: abort 0x70 past 8 groups or 64 KiB; the commit counter is recorded with the first member (R199, R201). -/
def State.stage (s : State) (id : CtxId) (index sub : Nat) (v : List Byte) : Nat × State :=
  let c := s.ctx id
  let known := c.recs.any fun x => x.1 == index
  let rest := c.staged.filter fun x => x.1 != okey index sub
  let c1 : Ctx := { c with staged := rest ++ [(okey index sub, v)], recs := if known then c.recs else c.recs ++ [(index, s.commitCount index)] }
  if (!known ∧ 8 ≤ c.recs.length) ∨ 65536 < c1.bytes then (0x70, s) else (0, s.setCtx c1)

/-! ### Checks of a write (R192, R196, R216, R217) -/

/-- UTF-8: need more bytes of a character, the next of them between lo and hi. -/
def utf8From : (need lo hi : Nat) → List Byte → Bool
  | 0, _, _, [] => true
  | _ + 1, _, _, [] => false
  | n + 1, lo, hi, a :: r => decide (lo ≤ a.toNat ∧ a.toNat ≤ hi) && utf8From n 0x80 0xBF r
  | 0, _, _, a :: r =>
    let x := a.toNat
    if x < 0x80 then utf8From 0 0 0 r
    else if x < 0xC2 then false
    else if x < 0xE0 then utf8From 1 0x80 0xBF r
    else if x < 0xF0 then utf8From 2 (if x = 0xE0 then 0xA0 else 0x80) (if x = 0xED then 0x9F else 0xBF) r
    else if x < 0xF5 then utf8From 3 (if x = 0xF0 then 0x90 else 0x80) (if x = 0xF4 then 0x8F else 0xBF) r
    else false

/-- Check 5: authentication of a write. -/
def State.authAbort (s : State) (d : Door) (o : Obj) (index : Nat) : Nat :=
  match d with
  | .field _ => if o.auth ∨ (0x1800 ≤ index ∧ index < 0x1900) then 0x60 else 0
  | .session _ => 0
  | .infield _ _ => if o.auth ∧ s.num 0x1800 6 = 0 then 0x60 else 0

/-- Check 6: the length of a value. -/
def lengthBad (o : Obj) (v : List Byte) : Bool := if o.ty < 11 then v.length != o.size else decide (o.size < v.length)

/-- Check 7, the object's range, with ranges that are no interval (Tables 3.6, 6.3, 7.5, 7.7, 7.9, 10.11, 10.14; R231, R233, R235). -/
def State.rangeBad (s : State) (o : Obj) (index sub : Nat) (v : List Byte) : Bool :=
  let n := leNat v
  if o.ty = 11 then !utf8From 0 0 0 v
  else if o.ty = 10 ∨ o.ty = 12 then false
  else if n < o.lo ∨ o.hi < n then true
  else
    match index, sub with
    | 0x4100, 1 => !([4800, 5200, 5600, 6400] : List Nat).contains n
    | 0x9000, 8 => n != 0 && !decide (150 ≤ n ∧ n ≤ maxPower s.part.variant)
    | 0xA000, 3 => !s.lapPresent n
    | _, 1 => decide (0x5100 ≤ index ∧ index < 0x5140) && !([1, 2, 4] : List Nat).contains n
    | _, 5 => decide (0x2200 ≤ index ∧ index < 0x2204) && n != 0xFF && decide (15 < n)
    | _, 7 =>
      if 0x7080 ≤ index ∧ index < 0x7084 then n != 0xFF && decide (63 < n)
      else if 0x4000 ≤ index ∧ index < 0x4100 ∧ index % 0x10 = 3 then
        decide (2 ^ 24 ≤ n) || (bits n 0 8 == 0 && decide (bits n 16 8 < bits n 8 8))
      else if 0x4800 ≤ index ∧ index < 0x4880 then !s.stacks.contains ((index - 0x4800) / 0x10)
      else false
    | _, _ => false

/-- SET or PAUSE: an RWP object can be written. -/
def State.rwpOpen (s : State) : Bool := s.run.state == 1 || s.run.state == 3

/-! ### Conditions of objects with behaviour of their own -/

/-- LOGICAL_EXTENTS for a ratio would not exceed every handle of a defined region (R35). -/
def State.ratioBad (s : State) (ratio : Nat) : Bool :=
  (upto 64).any fun n => decide (0 < s.num (0x2100 + n) 2 ∧ s.extentsFor ratio < s.num (0x2100 + n) 1 + s.num (0x2100 + n) 2)

/-- Any version is live, or a build of the region is pending or running. -/
def State.cbBusy (s : State) (n : Nat) : Bool :=
  !(s.liveSlots n).isEmpty || (s.relay.builds.any fun b => b.region == n)
    || s.relay.items.any fun i => i.kind == .build && s.region i.lpn == n

/-- The abort of CB_RETIRE (R64). -/
def State.retireAbort (s : State) (n v : Nat) : Nat :=
  let page := s.map.pages.any fun x => (s.view x.1).carries v && s.region x.1 == n
  match s.cb n v with
  | none => 0x40
  | some c => if s.num (0x5100 + n) 4 = 0 ∨ c.retiring ∨ page then 0x40 else 0

/-- The abort of RUN_REQUEST (R224). -/
def State.runAbort (s : State) (v : Nat) : Nat :=
  if s.run.trans ≠ .none then 0x70
  else if (v = 1 ∨ v = 3) ∧ s.inGo then
    (if v = 1 ∧ (upto 4).any (fun p => s.portPresent p && s.portBusy p) then 0x40 else 0)
  else if v = 2 ∧ s.run.state = 3 then 0
  else 0x40

/-- The abort of SOFT_RESET (R225, Table 10.6). -/
def State.softAbort (s : State) (v : Nat) : Nat :=
  let st := s.run.state
  if 0x11 ≤ v ∧ v ≤ 0x13 then (if 1 ≤ st ∧ st ≤ 4 then 0 else 0x40)
  else if 0x20 ≤ v ∧ v ≤ 0x23 then (if !s.portPresent (v - 0x20) then 0x31 else if st = 2 then 0 else 0x40)
  else if v = 0x30 then
    (if st = 2 then (if (upto 4).any fun p => s.portPresent p && s.portBusy p then 0x40 else 0)
     else if st = 3 ∨ (st = 4 ∧ s.run.cause ≠ 0x0B01) then 0 else 0x40)
  else if v = 0x31 then (if st = 2 then 0 else 0x40)
  else 0x31

/-- The abort of PROBE_WINDOW (R228). -/
def State.probeAbort (s : State) (v : Nat) : Nat :=
  let p := bits v 28 2
  if 2 ^ 30 ≤ v ∨ !s.portPresent p ∨ s.windowPages p ≤ v % 2 ^ 28 then 0x31
  else if (s.pageAt p (v % 2 ^ 28)).isNone then 0x40
  else 0

/-- The abort of VAULT_KEY (R87). -/
def State.vaultAbort (s : State) (n : Nat) (key : List Byte) : Nat :=
  let used := s.map.pages.any fun x => s.region x.1 == n && x.2.st != 0
  let check := s.num (0x1810 + n) 3
  if key.take 32 = key.drop 32 then 0x31
  else if !(s.blob (0x1810 + n) 1).isEmpty ∧ used then 0x40
  else if check ≠ 0 ∧ check ≠ vaultCheck key then 0x61
  else 0

/-- The unit of INJECT_UNIT exists and the kind fits it (R235, R283). -/
def State.injectFits (s : State) (unit kind : Nat) : Bool :=
  let n := unit % 4096
  match unit / 4096 with
  | 1 => s.hasStride && decide (n < 16) && [0x01, 0x02].contains kind
  | 2 => decide (n < 16) && [0x10, 0x11, 0x12].contains kind
  | 3 => decide (n < 16) && [0x20, 0x21, 0x22, 0x23].contains kind
  | 4 => s.stacks.contains (n / 32) && [0x30, 0x31, 0x32].contains kind
  | _ => false

/-- The unit is fenced or OUT. -/
def State.injectOut (s : State) (unit : Nat) : Bool :=
  let n := unit % 4096
  match unit / 4096 with
  | 1 => (s.strideEng n).fenced
  | 2 => (s.relayEng n).fenced
  | 3 => (s.chan n).state == 5
  | _ => (s.pc (n / 32) (n % 32)).out == 2

/-- The abort of INJECT_ARM (R235, R283). -/
def State.armAbort (s : State) (v : Nat) : Nat :=
  let u := s.num 0xA200 1
  if v = 0 then 0
  else if !s.injectFits u (s.num 0xA200 2) then 0x31
  else if s.injectOut u then 0x40
  else if s.test.inject.isSome then 0x70
  else 0

/-- A policy image is good (R253, Table 11.12). -/
def policyOk (signer image : List Byte) : Bool :=
  let code := field image 0x08 4
  let data := field image 0x0C 4
  let bss := field image 0x10 4
  let stack := field image 0x14 4
  let len := 0x80 + code + data + 64
  image.length == len && sha256 (slice image 0x40 64) == signer && image.take 4 == [0x55, 0x50, 0x4D, 0x01]
    && field image 4 2 == 1 && field image 6 2 == 0 && decide (4096 ≤ stack)
    && decide (sramPart code + sramPart (data + bss) + sramPart stack ≤ 524288)
    && allZero (slice image 0x2C 12) && ((upto 8).all fun k => decide (field image (0x38 + k) 1 ≤ 50))
    && ((upto 5).all fun k => decide (hookEntry image k < max 1 code))
    && ecdsaVerify (slice image 0x40 64) (image.take (len - 64)) (slice image (len - 64) 64)

/-- The conditions an object's own table or rule states for a write, after its range and RWP. -/
def State.ownAbort (s : State) (index sub : Nat) (v : List Byte) : Nat :=
  let n := leNat v
  let c := (index - 0x4000) / 0x10
  match index, sub with
  | 0x1200, 2 => s.softAbort n
  | 0x1200, 3 => s.runAbort n
  | 0x1330, 1 => if 32 * s.map.extents ≤ n then 0x31 else 0
  | 0x1330, 2 => s.probeAbort n
  | 0x1800, 6 => if n = 0 ∧ !((upto 4).any s.keySlotSet) then 0x40 else 0
  | 0x2000, 1 => if s.ratioBad n then 0x31 else 0
  | 0x2400, 1 => if (s.mappedAt n).isSome then 0x40 else 0
  | 0x8000, 3 => if Config.azmorOk s.part.azmorSigner v then 0 else 0x61
  | 0x8040, 1 =>
    match s.onceValue 0x1801 2 with
    | none => 0x40
    | some signer => if policyOk signer v then 0 else 0x61
  | 0xA000, 3 => if s.test.lap.isSome then 0x70 else 0
  | 0xA100, 1 =>
    match s.onceValue 0xA100 5 with
    | none => 0x40
    | some h => if !s.part.debugEn then 0x40 else if sha256 v = h then 0 else 0x61
  | 0xA100, 3 => if s.test.unlocked then 0 else 0x40
  | 0xA200, 3 => s.armAbort n
  | _, 1 =>
    if 0x1810 ≤ index ∧ index < 0x1850 then s.vaultAbort (index - 0x1810) v
    else if 0x2200 ≤ index ∧ index < 0x2204 then (if s.anyDecoder (index - 0x2200) then 0x40 else 0)
    else if 0x5100 ≤ index ∧ index < 0x5140 then (if s.cbBusy (index - 0x5100) then 0x40 else 0)
    else 0
  | _, 4 => if 0x5100 ≤ index ∧ index < 0x5140 ∧ s.cbBusy (index - 0x5100) then 0x40 else 0
  | _, 9 => if 0x4000 ≤ index ∧ index < 0x4100 ∧ index % 0x10 = 3 ∧ (s.chan c).trnStatus = 1 then 0x70 else 0
  | _, 11 => if 0x5100 ≤ index ∧ index < 0x5140 then s.retireAbort (index - 0x5100) n else 0
  | _, _ => 0

/-- The training modifier: the channel is TRAINING or OUT. -/
def State.trainingAbort (s : State) (o : Obj) (index : Nat) : Nat :=
  let st := (s.chan ((index - 0x4000) / 0x10)).state
  if o.trn ∧ st ≠ 1 ∧ st ≠ 5 then 0x40 else 0

/-! ### Effects of writes -/

/-- The unused plots of a run reserved to a page return to the free list (R298). -/
def State.trimRun (s : State) (r : Run) : Run :=
  match s.map.pages.find? fun x => x.2.inDist && x.2.channel == r.chan && x.2.plot == r.first with
  | some x => if r.reserved then { r with len := plotsFor (imageGranules x.2.codes) } else r
  | none => r

/-- PROVISION_RATIO is committed (R35, R298). -/
def State.setRatio (s : State) (v : Nat) : State :=
  let away := s.num 0x2000 1 == 100 && v != 100
  let s1 := s.setNum 0x2000 1 v
  let s2 := if away then { s1 with tier := { s1.tier with runs := s1.tier.runs.map s1.trimRun } } else s1
  ({ s2 with map := { s2.map with settled := s2.settledNow } }).formPools.recapacity

/-- A handle's release begins, or the write joins the one under way (R41). -/
def State.startRelease (s : State) (h : Nat) : State :=
  if s.map.releases.contains h then s else { s with map := { s.map with releases := s.map.releases ++ [h] } }

/-- Records below a value are freed (R227). -/
def State.ackEvents (s : State) (value : Nat) : State :=
  let v := value % 2 ^ 32
  let d := (v + 2 ^ 32 - s.ev.oldest) % 2 ^ 32
  if d = 0 ∨ (s.ev.next + 2 ^ 32 - s.ev.oldest) % 2 ^ 32 < d then s
  else { s with ev := { s.ev with ring := s.ev.ring.drop d, oldest := v, overflow := false } }

/-- TELEMETRY_CLEAR: the counters and the ports' counters (Table 10.8). -/
def State.clearTelemetry (s : State) : State :=
  let s1 := (upto 12).foldl (fun s i => s.setNum 0x1310 (i + 1) 0) s
  let ports := s1.ports.map fun (x : Port) => { x with zeroReads := 0, discards := 0 }
  { s1 with ports := ports, map := { s1.map with discardReported := false } }

/-- BIB_MON_CLEAR. -/
def State.clearBib (s : State) (b : Nat) : State := (upto 5).foldl (fun s i => s.setNum (0x7040 + b) (i + 4) 0) s

/-- POLICY_ENABLE: 1 runs the stored module from INIT, and a call under way is abandoned; 0 makes no further call (R230, R254). -/
def State.setPolicy (s : State) (v : Nat) : State :=
  if v = 1 then ((if s.dict.hook.isSome then s.policyFault else s).forgive).startPolicy
  else { s with dict := { s.dict with policyState := if s.dict.policy.isEmpty then 0 else 1 } }

/-- The unlocked mux is reported (R234). -/
def State.unlockMux (s : State) : State :=
  ({ s with test := { s.test with unlocked := true } }).raise 0x0A20 0 0 0

/-- One fault is armed (R283); a lap failure makes its lap due at once. -/
def State.arm (s : State) : State :=
  let u := s.num 0xA200 1
  let k := s.num 0xA200 2
  let s1 := { s with test := { s.test with inject := some ⟨u, k⟩ } }
  if k = 0x02 then s1.lapNow (u % 4096) false else s1

/-- What a write of an object does beside taking its value, where it does something else. -/
def State.ownEffect (s : State) (index sub : Nat) (v : List Byte) : State :=
  let n := leNat v
  let c := (index - 0x4000) / 0x10
  match index, sub with
  | 0x1280, 8 =>
    if n = 0 then s else if s.dict.storeRunning then { s with dict := { s.dict with storeQueued := true } } else s.startStore
  | 0x1300, 6 => s.ackEvents n
  | 0x1310, 0x11 => if n = 1 then s.clearTelemetry else s
  | 0x1330, 2 => s.setNum 0x1330 1 ((s.pageAt (bits n 28 2) (n % 2 ^ 28)).getD 0)
  | 0x2000, 4 => s.regulate
  | 0x2400, 1 => s.startRelease n
  | 0x8040, 3 => s.setPolicy n
  | 0xA000, 3 => s.lapNow n false
  | 0xA100, 1 => s.unlockMux
  | 0xA100, 3 => s.emit .dbgLow
  | 0xA100, 4 => if n = 1 then s.lockMux else s
  | 0xA200, 3 => if n = 1 then s.arm else s
  | _, 1 =>
    if 0x3000 ≤ index ∧ index < 0x3400 ∧ index % 0x100 = 0x40 ∧ n = 1 then s.askRelease ((index - 0x3000) / 0x100) else s
  | _, 4 => if 0x4000 ≤ index ∧ index < 0x4100 ∧ index % 0x10 = 0 then s.guardExits else s
  | _, 7 => if 0x4800 ≤ index ∧ index < 0x4880 then s.drainPc ((index - 0x4800) / 0x10) n 6 else s
  | _, 8 =>
    if 0x2100 ≤ index ∧ index < 0x2140 then s.guardExits
    else if 0x4000 ≤ index ∧ index < 0x4100 ∧ index % 0x10 = 0 ∧ n = 1 then s.evacuate c 6
    else s
  | _, 9 =>
    if 0x4000 ≤ index ∧ index < 0x4100 ∧ index % 0x10 = 3 ∧ n = 1 then s.modChan c fun x => { x with trnStatus := 1 } else s
  | _, 10 => if 0x7040 ≤ index ∧ index < 0x7050 ∧ n = 1 then s.clearBib (index - 0x7040) else s
  | _, 11 => if 0x5100 ≤ index ∧ index < 0x5140 then s.setRetiring (index - 0x5100) n else s
  | _, _ => s

/-- A write that passed every check takes effect: the value, then what else the object does. Images and write-once values take
effect when their store is done. -/
def State.applyWrite (s : State) (o : Obj) (index sub : Nat) (v : List Byte) : State :=
  if index = 0x2000 ∧ sub = 1 then (s.setRatio (leNat v)).touchP
  else if 0x1810 ≤ index ∧ index < 0x1850 then
    ((s.setBlob index 1 v).setNum index 3 (vaultCheck v)).touchP
  else
    let keep := o.acc = .rw ∨ o.acc = .rwp ∨ (index = 0x1800 ∧ sub ≤ 4)
    let s1 :=
      if !keep then s
      else if o.ty < 10 then s.setNum index sub (leNat v)
      else s.setBlob index sub (if allZero v ∧ index = 0x1800 then [] else v)
    (if o.persist ∧ keep then s1.touchP else s1).ownEffect index sub v

/-! ### What follows a reply -/

/-- A session ends with its context (R206, R216). -/
def State.closeSession (s : State) (id : Nat) : State :=
  ({ s with dict := { s.dict with sessions := s.dict.sessions.filter fun x => x.id != id } }).endCtx (.session id)

/-- Every session opened with a slot (R217). -/
def State.closeSlot (s : State) (k : Nat) : State :=
  (s.dict.sessions.filter fun x => x.slot == k).foldl (fun s x => s.closeSession x.id) s

/-- Every present port is treated as PERST_N treats it (R224). -/
def State.perstAll (s : State) : State := (upto 4).foldl (fun s p => if s.portPresent p then s.perst p else s) s

/-- SOFT_RESET acts (Table 10.6); a PAUSE entry that runs already goes on to the restart. -/
def State.softReset (s : State) (v : Nat) : State :=
  let restart := fun (x : State) =>
    if x.run.trans = .none then x.pauseEntry true else { x with run := { x.run with trans := .entering true } }
  if v < 0x20 then s.haltCore (v - 0x10)
  else if v < 0x30 then (s.resetLink (v - 0x20) .a false).resetLink (v - 0x20) .b false
  else if v = 0x31 then restart s.perstAll
  else if s.run.state = 2 then restart s
  else s.softStart (if s.run.state = 4 then 3 else 1)

/-- RUN_REQUEST acts (R224). -/
def State.runRequest (s : State) (v : Nat) : State :=
  if v = 2 then s.pauseExit else if v = 3 then s.perstAll.pauseEntry false else s.pauseEntry false

/-- What an accepted write does once its reply has been sent (R217, R224, R225). -/
def State.afterReply (s : State) (index sub : Nat) (v : List Byte) : State :=
  match index, sub with
  | 0x1200, 2 => s.softReset (leNat v)
  | 0x1200, 3 => s.runRequest (leNat v)
  | 0x1800, k => if 1 ≤ k ∧ k ≤ 4 then s.closeSlot (k - 1) else s
  | _, _ => s

end Sys2Proof.Machine
end

