-- ==== Sys2Proof/Machine/CommitOps.lean ====
section
/-! DEFINITION. COMMIT of the consistency groups (R200, R222): REGION_n, MAP_p, CBLOAD_n, BIB_b, CHAN_TIMING_c, THERMAL. -/

namespace Sys2Proof.Machine

/-- The value a member would have after the commit: staged, or active. -/
def State.after (s : State) (c : Ctx) (index sub : Nat) : Nat :=
  match c.stagedAt index sub with
  | some v => leNat v
  | none => s.num index sub

/-- Abort 0x51 of a group without required members: no member is staged (R200). -/
def Ctx.noneStaged (c : Ctx) (g : Nat) : Bool := !(c.staged.any fun x => x.1 / 256 == g)

/-! ### REGION_n (R23, R47, R87) -/

/-- Two runs of extents overlap. -/
def runsMeet (a n b m : Nat) : Bool := decide (a < b + m ∧ b < a + n ∧ 0 < n ∧ 0 < m)

/-- A run of extents holds a mapped extent or a page that is not UNWRITTEN. -/
def State.runUsed (s : State) (first n : Nat) : Bool :=
  let inRun := fun (h : Nat) => decide (first ≤ h ∧ h < first + n)
  (s.map.windows.any fun x => x.2.valid && inRun x.2.handle) || (s.map.pages.any fun x => x.2.st != 0 && inRun (handleOf x.1))

def State.regionAbort (s : State) (n : Nat) (c : Ctx) : Nat :=
  let g := 0x2100 + n
  let first := s.after c g 1
  let ext := s.after c g 2
  let flags := s.after c g 4
  let home := s.after c g 5
  let overlap := (upto 64).any fun m => m != n && runsMeet first ext (s.num (0x2100 + m) 1) (s.num (0x2100 + m) 2)
  if c.noneStaged g then 0x51
  else if overlap ∨ (0 < ext ∧ s.map.extents < first + ext) ∨ 8 ≤ flags ∨ (home ≠ 0xFF ∧ !s.stacks.contains home)
      ∨ 4 < s.after c g 3 then 0x31
  else if s.runUsed first ext ∨ s.runUsed (s.num g 1) (s.num g 2) ∨ (bit flags 0 ∧ (s.blob (0x1810 + n) 1).isEmpty) then 0x40
  else 0

/-! ### MAP_p (R25, R26) -/

/-- The entries a commit writes, as (host extent, VALID, HANDLE). -/
def mapRows (first : Nat) (bs : List Byte) : List (Nat × Bool × Nat) :=
  ((chunks 8 256 bs).zipIdx).map fun x => (first + x.2, bit (leNat x.1) 63, leNat x.1 % 2 ^ 24)

/-- A non-zero Reserved field: bits [61:56] or [47:24]. -/
def rowReserved (bs : List Byte) : Bool := (chunks 8 256 bs).any fun x => bits (leNat x) 56 6 != 0 || bits (leNat x) 24 24 != 0

/-- A handle occurs twice among rows with VALID. -/
def rowsRepeat : List (Nat × Bool × Nat) → Bool
  | [] => false
  | (_, v, h) :: r => (v && r.any fun x => x.2.1 && x.2.2 == h) || rowsRepeat r

/-- The five checks of R25, the first that fails. -/
def State.rowsAbort (s : State) (p first count : Nat) (rows : List (Nat × Bool × Nat)) : Nat :=
  let live := rows.filter fun x => x.2.1
  let inRange := fun (key : Nat) => key / 2 ^ 24 == p && decide (first ≤ key % 2 ^ 24 ∧ key % 2 ^ 24 < first + count)
  let same := fun (x : Nat × Bool × Nat) => (s.win p x.1).valid && (s.win p x.1).handle == x.2.2
  if s.windowExtents p < first + count then 0x31
  else if live.any fun x => (s.regionOf x.2.2).isNone || (decide (s.map.extents ≤ x.2.2) && !same x) then 0x31
  else if rowsRepeat rows ∨ (live.any fun x => s.map.windows.any fun w => w.2.valid && w.2.handle == x.2.2 && !inRange w.1) then 0x40
  else if live.any fun x => s.map.releases.contains x.2.2 then 0x40
  else if rows.any fun x => (s.win p x.1).frozen then 0x70
  else 0

def State.mapAbort (s : State) (p : Nat) (c : Ctx) : Nat :=
  let g := 0x2200 + p
  match c.stagedAt g 2, c.stagedAt g 3, c.stagedAt g 4 with
  | some f, some k, some bs =>
    if leNat k < 1 ∨ 256 < leNat k then 0x31
    else if bs.length ≠ 8 * leNat k then 0x30
    else if rowReserved bs then 0x31
    else s.rowsAbort p (leNat f) (leNat k) (mapRows (leNat f) bs)
  | _, _, _ => 0x51

/-- One entry swapped: SEQ moves when VALID or HANDLE changes (Table 2.4). -/
def State.mapRow (s : State) (p : Nat) (x : Nat × Bool × Nat) : State :=
  let e := s.win p x.1
  if e.valid = x.2.1 ∧ e.handle = x.2.2 then s else s.swapWin p x.1 ⟨x.2.1, e.frozen, (e.seq + 1) % 256, x.2.2⟩

/-- Every entry of the range is swapped; unmapped extents have OWNER 0, mapped ones the partition (Table 2.6). -/
def State.applyMap (s : State) (p : Nat) (rows : List (Nat × Bool × Nat)) : State :=
  let gone := (rows.filter fun x => (s.win p x.1).valid).map fun x => (s.win p x.1).handle
  let s1 := rows.foldl (fun s x => s.mapRow p x) s
  let s2 := gone.foldl (fun s h => s.ownExtent h 0) s1
  (rows.filter fun x => x.2.1).foldl (fun s x => s.ownExtent x.2.2 p) s2

/-! ### CBLOAD_n (R64) -/

def State.loadAbort (s : State) (n : Nat) (c : Ctx) : Nat :=
  let g := 0x5100 + n
  let slot := (c.stagedAt g 7).map leNat
  let live : Bool := match slot with
    | some v => (s.cb n v).isSome && decide (v < 16)
    | none => false
  if s.num g 4 = 0 ∨ live then 0x40
  else if (match slot with
    | some v => decide (15 < v)
    | none => false) then 0x31
  else if slot.isNone ∨ (c.stagedAt g 8).isNone then 0x51
  else 0

/-! ### BIB_b (R124) -/

/-- A member outside its range (Table 6.1). -/
def State.bibRange (s : State) (b : Nat) (c : Ctx) : Bool :=
  let v := s.after c (0x7010 + b)
  let none_or := fun (x lo hi : Nat) => x != 0 && !decide (lo ≤ x ∧ x ≤ hi)
  decide (2 < v 1) || (v 1 == 0 && none_or (v 2) 2 6) || (v 1 == 1 && none_or (v 2) 1 4)
    || none_or (v 3) 100 10000000 || none_or (v 4) 1000 100000000 || decide (1 < v 5) || !decide (1 ≤ v 6 ∧ v 6 ≤ 1536)
    || !decide (1 ≤ v 7 ∧ v 7 ≤ 1024) || !decide (1 ≤ v 8 ∧ v 8 ≤ 100)

def State.bibAbort (s : State) (b : Nat) (c : Ctx) : Nat :=
  let v := s.after c (0x7010 + b)
  if c.noneStaged (0x7010 + b) then 0x51
  else if s.bibRange b c then 0x31
  else if v 1 = 0 ∧ v 3 = 0 ∧ v 4 = 0 then 0x31
  else if v 1 ≠ 0 ∧ (v 3 ≠ 0 ∨ v 4 ≠ 0) then 0x31
  else 0

/-! ### CHAN_TIMING_c (R151) -/

def State.timingAbort (s : State) (k : Nat) (c : Ctx) : Nat :=
  let g := 0x4001 + 0x10 * k
  let v := fun (i : Nat) => match c.stagedAt g i with
    | some x => leNat x
    | none => s.timingValue k i
  let low := ((upto 12).filter fun i => i != 5).any fun i => decide (v (i + 1) < nth (s.chan k).spdMin 0 i)
  if c.noneStaged g then 0x51
  else if low ∨ v 6 < 1950 ∨ 3900 < v 6 ∨ v 6 ≤ 2 * v 5 then 0x31
  else 0

/-! ### THERMAL (R232) -/

def State.thermalAbort (s : State) (c : Ctx) : Nat :=
  let a := s.after c 0x9000 2
  let b := s.after c 0x9000 3
  if c.noneStaged 0x9000 then 0x51
  else if a < 85 ∨ 105 < a ∨ b < 106 ∨ 115 < b ∨ b < a + 5 then 0x31
  else 0

/-! ### COMMIT (R200) -/

/-- Check 4: the group's own checks. -/
def State.groupAbort (s : State) (g : Nat) (c : Ctx) : Nat :=
  if 0x2100 ≤ g ∧ g < 0x2140 then s.regionAbort (g - 0x2100) c
  else if 0x2200 ≤ g ∧ g < 0x2204 then s.mapAbort (g - 0x2200) c
  else if 0x5100 ≤ g ∧ g < 0x5140 then s.loadAbort (g - 0x5100) c
  else if 0x7010 ≤ g ∧ g < 0x7020 then s.bibAbort (g - 0x7010) c
  else if 0x4000 ≤ g ∧ g < 0x4100 then s.timingAbort ((g - 0x4001) / 0x10) c
  else s.thermalAbort c

/-- Every staged number of a group takes its value. -/
def State.takeStaged (s : State) (g : Nat) (c : Ctx) : State :=
  (c.staged.filter fun x => x.1 / 256 == g).foldl (fun s x => s.setNum g (x.1 % 256) (leNat x.2)) s

/-- BIB_b: a change of class, base or target resets averages and steps (R124); channels that became guarded leave self-refresh. -/
def State.commitBib (s : State) (b : Nat) (c : Ctx) : State :=
  let g := 0x7010 + b
  let changed := (upto 4).any fun i => s.after c g (i + 1) != s.num g (i + 1)
  let s1 := s.takeStaged g c
  let s2 := if changed then s1.modBib b fun x => { x with readAvg := 0, legAvg := 0, steps := 0 } else s1
  s2.touchP.guardExits

/-- The group takes its values in one bridge cycle. -/
def State.commitEffect (s : State) (g : Nat) (c : Ctx) : State :=
  if 0x2200 ≤ g ∧ g < 0x2204 then
    let first := s.after c g 2
    (((s.setNum g 2 first).setNum g 3 (s.after c g 3))).applyMap (g - 0x2200) (mapRows first ((c.stagedAt g 4).getD []))
  else if 0x5100 ≤ g ∧ g < 0x5140 then
    s.newVersion (g - 0x5100) (((c.stagedAt g 7).map leNat).getD 0) ((c.stagedAt g 8).getD [])
  else if 0x7010 ≤ g ∧ g < 0x7020 then s.commitBib (g - 0x7010) c
  else if g = 0x9000 then
    let s1 := (s.takeStaged g c).touchP
    if (s1.num 0x9000 3 : Int) ≤ s1.run.tj then s1.failTo 0x0906 else s1
  else (s.takeStaged g c).touchP

/-- COMMIT of the group of an object: abort code and state. -/
def State.commitGroup (s : State) (d : Door) (o : Obj) (index : Nat) : Nat × State :=
  let c := s.ctx (ctxOf d)
  let drop := fun (x : State) => x.setCtx ((x.ctx (ctxOf d)).dropGroup index)
  if !o.grp then (0x31, s)
  else if !c.noneStaged index ∧ s.authAbort d o index ≠ 0 then (s.authAbort d o index, s)
  else if c.recs.any fun x => x.1 == index && x.2 != s.commitCount index then (0x50, drop s)
  else if o.acc = .rwp ∧ !s.rwpOpen then (0x40, s)
  else
    let a := s.groupAbort index c
    if a ≠ 0 then (a, s)
    else
      let s1 := drop s
      let s2 := { s1 with dict := { s1.dict with commits := mput s1.dict.commits 0 index (s.commitCount index + 1) } }
      (0, s2.commitEffect index c)

/-- DISCARD of the group of an object (R201). -/
def State.discardGroup (s : State) (d : Door) (o : Obj) (index : Nat) : Nat × State :=
  if o.grp then (0, s.setCtx ((s.ctx (ctxOf d)).dropGroup index)) else (0x31, s)

end Sys2Proof.Machine
end

