-- ==== Sys2Proof/Machine/AccessOps.lean ====
section
/-! DEFINITION. The arbiter and the two doors: one access served (R196-R211), its reply, frames and sessions (R209-R217), and the
mailbox commands (R218). -/

namespace Sys2Proof.Machine

/-- One access as either door brings it; op is the OP of Table 9.6, limit the bytes of a block segment. -/
structure Access where
  op : Nat
  index : Nat
  sub : Nat
  type : Nat
  offset : Nat
  last : Bool
  body : List Byte
  limit : Nat

/-- What an access answers: abort code, type, FLAGS, data; later says that the reply waits for a store (R205), done that an accepted
write of the value is complete; st is the state before the reply. -/
structure Answer where
  abort : Nat
  type : Nat
  flags : Nat
  data : List Byte
  later : Bool
  done : Option (List Byte)
  st : State

/-- An access that changes nothing but st answers a code. -/
def answerCode (code type : Nat) (st : State) : Answer := ⟨code, type, 0, [], false, none, st⟩

/-- Check 1: the run state (R207), and the boot ROM (R269). DISCARD and reads are no writes. -/
def State.gate (s : State) (op index sub : Nat) : Nat :=
  if s.run.state ≠ 4 then 0
  else if s.run.cause = 0x0127 then
    let read := (op = 1 ∨ op = 3 ∨ op = 5) ∧ (index = 0x1000 ∨ index = 0x1200 ∨ (index = 0x8000 ∧ sub = 4))
    let write := (op = 2 ∨ op = 4) ∧ index = 0x8000 ∧ sub = 3
    if read ∨ write then 0 else 0x40
  else if (op = 2 ∨ op = 4 ∨ op = 6) ∧ !((0x1200 ≤ index && index ≤ 0x12FF) || (0xA000 ≤ index && index ≤ 0xAFFF)) then 0x40
  else 0

/-! ### Reads -/

/-- Channels of the stripes from which a read takes metadata: MAP_ENTRIES, PROBE_ENTRY and CB_READ_DATA (R138, R147). -/
def State.stripesRead (s : State) (index sub : Nat) : List Nat :=
  if 0x2200 ≤ index ∧ index < 0x2204 ∧ sub = 4 then
    (upto (s.num index 3)).map fun i => winStripe (index - 0x2200) (s.num index 2 + i)
  else if index = 0x1330 ∧ sub = 3 then [pageStripe (s.num 0x1330 1)]
  else if 0x5100 ≤ index ∧ index < 0x5140 ∧ sub = 0x0A then [setStripe (index - 0x5100) (s.num index 9)]
  else []

/-- What a read does: a gauge without a rule of its own takes a new free value (DESIGN CHOICE, log entry 16), and in PAUSE the
maintenance port takes the channels of its stripes out of self-refresh (R147). -/
def State.gauged (s : State) (index sub : Nat) : State :=
  if 0x8010 ≤ index ∧ index < 0x8014 ∧ sub = 4 then s.drawn
  else if s.run.state = 3 then (s.stripesRead index sub).foldl (fun s c => s.maintain (s.stripeHolder c)) s
  else s

/-- A value returned whole: at most 1024 bytes, and no OCTETS object longer than that (R210). -/
def wholeAnswer (o : Obj) (flags : Nat) (v : List Byte) (st : State) : Answer :=
  if (o.ty ≠ 12 ∧ 1024 < o.size) ∨ 1024 < v.length then answerCode 0x30 o.ty st else ⟨0, o.ty, flags, v, false, none, st⟩

def State.readAnswer (s : State) (o : Obj) (index sub : Nat) : Answer :=
  if o.acc = .wo then answerCode 0x20 o.ty s
  else
    let r := s.readObj o index sub
    if r.1 ≠ 0 then answerCode r.1 o.ty s else wholeAnswer o 0 r.2 (s.gauged index sub)

/-- READ_STAGED: the value staged in the context with STAGED set, or the active value (R198). -/
def State.stagedAnswer (s : State) (d : Door) (o : Obj) (index sub : Nat) : Answer :=
  if o.acc = .wo then answerCode 0x20 o.ty s
  else
    match (s.ctx (ctxOf d)).stagedAt index sub with
    | some v => wholeAnswer o 8 v s
    | none => s.readAnswer o index sub

/-- A segment of a snapshot; LAST on the final one. -/
def segment (o : Obj) (bs : List Byte) (off n : Nat) (st : State) : Answer :=
  let part := (bs.drop off).take n
  ⟨0, o.ty, if bs.length ≤ off + part.length then 4 else 0, part, false, none, st⟩

/-- READ_BLOCK (R210): the body's first two bytes give the count; OFFSET 0 takes the snapshot into the context's buffer. -/
def State.readBlockAnswer (s : State) (d : Door) (o : Obj) (a : Access) : Answer :=
  let n := if 2 ≤ a.body.length then min (field a.body 0 2) a.limit else a.limit
  let c := s.ctx (ctxOf d)
  if o.acc = .wo then answerCode 0x20 o.ty s
  else if a.offset = 0 then
    let r := s.readObj o a.index a.sub
    if r.1 ≠ 0 then answerCode r.1 o.ty s
    else segment o r.2 0 n ((s.gauged a.index a.sub).setCtx { c with snap := some ⟨a.index, a.sub, r.2⟩, wbuf := none })
  else
    match c.snap with
    | some b => if b.index = a.index ∧ b.sub = a.sub then segment o b.bytes a.offset n s else answerCode 0x30 o.ty s
    | none => answerCode 0x30 o.ty s

/-! ### Writes -/

/-- A write-once object has its value, or its first write waits for its store (R202, R205). -/
def State.onceSet (s : State) (index sub : Nat) : Bool :=
  (s.onceValue index sub).isSome || s.dict.waiting.any fun w => w.index == index && w.sub == sub

/-- What a refusal under an object's own conditions leaves behind (Table 10.5, R229, Table 10.13). -/
def State.refused (s : State) (index sub code : Nat) : State :=
  match index, sub with
  | 0x1200, 3 => if code = 0x40 then { s with run := { s.run with reqStatus := 3 } } else s
  | 0x8000, 3 => if code = 0x61 then s.setNum 0x8000 4 3 else s
  | 0x8040, 1 =>
    if code = 0x61 ∧ s.dict.policyState ≠ 2 then { s with dict := { s.dict with policyState := 3 } } else s
  | _, _ => s

/-- An image that is stored before its reply (R205). -/
def isImage (index sub : Nat) : Bool := (index == 0x8000 && sub == 3) || (index == 0x8040 && sub == 1)

/-- A complete value written, whole in one WRITE or at the end of a WRITE_BLOCK: checks 4 to 7 of R196, then its effect (R197). -/
def State.writeAnswer (s : State) (d : Door) (o : Obj) (index sub type : Nat) (whole : Bool) (v : List Byte) : Answer :=
  if o.acc = .const ∨ o.acc = .ro then answerCode 0x21 o.ty s
  else if o.acc = .wonce ∧ s.onceSet index sub then
    answerCode 0x22 o.ty (s.raise 0x0122 0 (match d with
      | .infield _ _ => 1
      | _ => 0) (okey index sub))
  else if s.authAbort d o index ≠ 0 then answerCode (s.authAbort d o index) o.ty s
  else if type ≠ o.ty ∨ lengthBad o v ∨ (whole ∧ 1024 < v.length) then answerCode 0x30 o.ty s
  else if o.grp then
    let r := s.stage (ctxOf d) index sub v
    answerCode r.1 o.ty r.2
  else if s.rangeBad o index sub v then answerCode 0x31 o.ty s
  else if o.acc = .rwp ∧ !s.rwpOpen then answerCode 0x40 o.ty s
  else if s.trainingAbort o index ≠ 0 then answerCode (s.trainingAbort o index) o.ty s
  else
    let a := s.ownAbort index sub v
    if a ≠ 0 then answerCode a o.ty (s.refused index sub a)
    else if o.acc = .wonce ∨ isImage index sub then ⟨0, o.ty, 0, [], true, some v, s⟩
    else ⟨0, o.ty, 0, [], false, some v, s.applyWrite o index sub v⟩

/-- WRITE_BLOCK (R210): the context's buffer, and on LAST the complete value as one write. -/
def State.writeBlockAnswer (s : State) (d : Door) (o : Obj) (a : Access) : Answer :=
  let c := s.ctx (ctxOf d)
  let got : Option (List Byte) :=
    if a.offset = 0 then some a.body
    else
      match c.wbuf with
      | some b => if b.index = a.index ∧ b.sub = a.sub ∧ a.offset = b.bytes.length then some (b.bytes ++ a.body) else none
      | none => none
  match got with
  | none => answerCode 0x30 o.ty (s.setCtx { c with wbuf := none })
  | some bs =>
    if a.last then (s.setCtx { c with wbuf := none, snap := none }).writeAnswer d o a.index a.sub a.type false bs
    else answerCode 0 o.ty (s.setCtx { c with wbuf := some ⟨a.index, a.sub, bs⟩, snap := none })

/-- TYPE of a reply: the type code of the object, 0 where this variant has none (R209). -/
def State.typeHere (s : State) (index sub : Nat) : Nat := if s.absent index sub then 0 else typeCode index sub

/-- An access served (R196, R200). -/
def State.access (s : State) (d : Door) (a : Access) : Answer :=
  let g := s.gate a.op a.index a.sub
  if g ≠ 0 then answerCode g (s.typeHere a.index a.sub) s
  else if s.absent a.index a.sub ∨ !indexKnown a.index then answerCode 0x10 0 s
  else
    match findObj a.index a.sub with
    | none => answerCode 0x11 0 s
    | some o =>
      match a.op with
      | 1 => s.readAnswer o a.index a.sub
      | 2 => s.writeAnswer d o a.index a.sub a.type true a.body
      | 3 => s.readBlockAnswer d o a
      | 4 => s.writeBlockAnswer d o a
      | 5 => s.stagedAnswer d o a.index a.sub
      | 6 =>
        let r := s.commitGroup d o a.index
        answerCode r.1 o.ty r.2
      | _ =>
        let r := s.discardGroup d o a.index
        answerCode r.1 o.ty r.2

/-! ### Serving an access (R205) -/

/-- An access served and answered; one that waits for its store is answered when that is done (R205). -/
def State.serve (s : State) (d : Door) (a : Access) (back : Option ReplyTo) : State :=
  let r := s.access d a
  match r.later, r.done with
  | true, some v =>
    let w : Waiting := ⟨a.index, a.sub, d, a.op, a.offset, back, v, false⟩
    { r.st with dict := { r.st.dict with waiting := r.st.dict.waiting ++ [w] } }
  | _, v =>
    let s1 := r.st.reply d a.op back a.index a.sub r.type a.offset r.flags r.abort r.data
    match v with
    | some x => s1.afterReply a.index a.sub x
    | none => s1

/-- The door's queue is full of accesses that wait (R205). -/
def State.fieldQueueFull (s : State) : Bool :=
  decide (16 ≤ (s.dict.waiting.filter fun w => match w.door with
    | .infield _ _ => false
    | _ => true).length)

/-! ### Objects written by a command that names them -/

/-- A door that exists now: the field door while it is served, an open session, the mailbox of an open link (R207). -/
def State.doorOpen (s : State) : Door → Bool
  | .field _ => s.run.dictServed && !s.dict.fieldSilent
  | .session id => s.run.dictServed && !s.dict.fieldSilent && (s.session id).isSome
  | .infield p l =>
    s.run.dictServed && s.linkOpen p l && s.barOpen p l && !(s.port p).frozen
      && !(s.dict.waiting.any fun w => w.door == .infield p l && !w.mute)

/-- An access of a mailbox brings its link back to L0 (R182). -/
def State.viaDoor (s : State) : Door → State
  | .infield p l => s.wakeLink p l
  | _ => s

/-- The queue of a door is full: a mailbox holds one command at a time and is never behind another (R205, R218). -/
def State.queueFull (s : State) : Door → Bool
  | .infield _ _ => false
  | _ => s.fieldQueueFull

/-- A write of a whole value of an object through a door. -/
def State.writeVia (s : State) (d : Door) (index sub : Nat) (v : List Byte) : State :=
  if s.doorOpen d then
    let ty := typeCode index sub
    if s.queueFull d then s.reply d 2 none index sub (s.typeHere index sub) 0 0 0x70 []
    else ((s.viaDoor d).serve d ⟨if v.length ≤ 1024 then 2 else 4, index, sub, ty, 0, true, v, 1024⟩ none).onward
  else s

/-- A write of a number object. -/
def State.writeNum (s : State) (d : Door) (index sub size value : Nat) : State := s.writeVia d index sub (natLe size value)

/-! ### The field door: sessions (R211, R215, R216) -/

/-- An authentication failure of R216: counted, reported, and the 16th in a row closes its session. -/
def State.authFailure (s : State) (id : Nat) : State :=
  let s1 := ((s.bump 0x1800 9).modSession id fun x => { x with fails := x.fails + 1 }).raise 0x0123 0 0 0
  match s1.session id with
  | some x => if 16 ≤ x.fails then s1.closeSession id else s1
  | none => s1

/-- Where the reply to a frame goes (R208). -/
def Frame.back (f : Sys2Proof.Frame) : ReplyTo := ⟨f.seq, f.src, f.srcPort⟩

/-- TYPE of the reply to a frame: that of the object an access names (R209). -/
def State.frameType (s : State) (op : Nat) (f : Frame) : Nat := if 1 ≤ op ∧ op ≤ 7 then s.typeHere f.index f.sub else 0

/-- A reply outside the caches, to the source of a request. -/
def State.rawReply (s : State) (f : Frame) (op flags abort : Nat) (key : Option (List Byte)) : State :=
  let w := welair op flags abort f.session f.seq f.index f.sub (s.frameType op f) f.offset []
  s.emit (.frame f.src f.srcPort (match key with
    | some k => tagged k w
    | none => w))

/-- A session id that is not 0 and not in use (R215). -/
def State.freshSession (s : State) : Nat :=
  let r := (Config.sessionId s.freeCtr).toNat
  (((upto 6).map fun i => (r + i) % 2 ^ 32).find? fun x => x != 0 && (s.session x).isNone).getD 1

/-- SESSION_OPEN (R215): slot and nonce are 17 bytes. -/
def State.openSession (s : State) (f : Frame) : State :=
  let d : Door := .field f.src
  let k := field f.body 0 1
  let no := fun (code : Nat) => s.reply d 0x11 (some (Frame.back f)) f.index f.sub 0 f.offset 0 code []
  if f.body.length ≠ 17 then no 0x30
  else if !s.keySlotSet k then no 0x61
  else if 4 ≤ s.dict.sessions.length then no 0x70
  else
    let id := s.freshSession
    let nt := slice (Config.nonce s.freeCtr) 0 16
    let ks := hmacSha256 (s.blob 0x1800 (k + 1)) (ascii "WELAIR1" ++ f.body.drop 1 ++ nt ++ natLe 4 id)
    let x : Session := ⟨id, k, ks, f.src, 0, 0, []⟩
    let r := tagged ks (welair 0x11 3 0 0 f.seq f.index f.sub 0 f.offset (natLe 4 id ++ nt))
    let s1 := { s.drawn with dict := { s.dict with sessions := s.dict.sessions ++ [x] } }
    (s1.emit (.frame f.src f.srcPort r)).cacheSrc f.src f.seq r

/-- WAKE (R213): one byte of ports, with a session; in GO a link in D3hot sends PM_PME (R185; DEDUCED, log entry 75). -/
def State.wakePorts (s : State) (d : Door) (f : Frame) : State :=
  let m := field f.body 0 1
  let answer := fun (x : State) (code : Nat) => x.reply d 0x09 (some (Frame.back f)) f.index f.sub 0 f.offset 0 code []
  match d with
  | .session _ =>
    if s.gate 0x09 0 0 ≠ 0 then answer s 0x40
    else if f.body.length ≠ 1 then answer s 0x30
    else if (upto 8).any fun p => bit m p && !s.portPresent p then answer s 0x31
    else answer ((upto 4).foldl (fun s p =>
      if !bit m p then s else if s.run.state = 3 then s.assertWake p else (s.wakeLinkPme p .a).wakeLinkPme p .b) s) 0
  | _ => answer s (if s.gate 0x09 0 0 ≠ 0 then 0x40 else 0x60)

/-- DISCOVER (R214): the reply leaves NODE_ID ms later. -/
def State.queueDiscover (s : State) (d : Door) (f : Frame) : State :=
  let body := slice s.part.mac 0 6 ++ natLe 1 s.part.nodeId ++ slice s.part.serial 0 8 ++ natLe 1 s.runCode
  let w := welair 0x10 1 0 0 f.seq f.index f.sub 0 f.offset body
  let frame := match d with
    | .session id => match s.session id with
      | some x => tagged x.key (welair 0x10 3 0 id f.seq f.index f.sub 0 f.offset body)
      | none => w
    | _ => w
  { s with dict := { s.dict with discoverQ := s.dict.discoverQ ++ [(f.src, f.srcPort, frame)] } }

/-- The oldest DISCOVER reply leaves, and a sessionless one is kept in its cache. -/
def State.sendDiscover (s : State) : State :=
  match s.dict.discoverQ with
  | [] => s
  | (dst, udp, f) :: r =>
    let s1 := ({ s with dict := { s.dict with discoverQ := r } })
    if !(s.run.dictServed && !s.dict.fieldSilent) then s1
    else if field f 8 4 = 0 then (s1.emit (.frame dst udp f)).cacheSrc dst (field f 0x0C 4) f
    else (s1.emit (.frame dst udp f)).modSession (field f 8 4) fun y => { y with cache := cachePut y.cache (field f 0x0C 4) f }

/-- SESSION_CLOSE (R216). -/
def State.endSession (s : State) (d : Door) (f : Frame) : State :=
  let s1 := s.reply d 0x12 (some (Frame.back f)) f.index f.sub 0 f.offset 0 0 []
  match d with
  | .session id => s1.closeSession id
  | _ => s1

/-- A request that passed the checks of its door is served. -/
def State.serveFrame (s : State) (op : Nat) (d : Door) (f : Frame) : State :=
  if op = 0x10 then s.queueDiscover d f
  else if s.fieldQueueFull then s.reply d op (some (Frame.back f)) f.index f.sub (s.frameType op f) f.offset 0 0x70 []
  else if op = 0x09 then s.wakePorts d f
  else if op = 0x11 then s.openSession f
  else if op = 0x12 then s.endSession d f
  else s.serve d ⟨op, f.index, f.sub, f.type, f.offset, frameLast f, f.body, 1024⟩ (some (Frame.back f))

/-- A request of a door and SEQ waits for its store, or for its time (R211). -/
def State.awaited (s : State) (d : Door) (f : Frame) : Bool :=
  (s.dict.waiting.any fun w => w.door == d && w.back.map (·.seq) == some f.seq)
    || s.dict.discoverQ.any fun x => x.1 == f.src && field x.2.2 0x0C 4 == f.seq && field x.2.2 8 4 == f.session

/-- A frame of a session (R211, R215, R216). -/
def State.sessionFrame (s : State) (op : Nat) (f : Frame) : State :=
  match s.session f.session with
  | none => (s.rawReply f op 1 0x61 none).authFailure f.session
  | some x =>
    let d : Door := .session x.id
    if !frameAuth f ∨ f.tag ≠ (hmacSha256 x.key (frameWire op f)).take 16 then (s.rawReply f op 1 0x61 none).authFailure x.id
    else
      match x.cache.find? fun c => c.1 == f.seq with
      | some c => s.emit (.frame f.src f.srcPort c.2)
      | none =>
        if s.awaited d f then s
        else if f.seq < x.nextSeq then (s.rawReply f op 3 0x61 (some x.key)).authFailure x.id
        else (s.modSession x.id fun y => { y with nextSeq := f.seq + 1, fails := 0, src := f.src }).serveFrame op d f

/-- A frame without a session (R211). -/
def State.plainFrame (s : State) (op : Nat) (f : Frame) : State :=
  match (s.srcCache f.src).find? fun c => c.1 == f.seq with
  | some c => s.emit (.frame f.src f.srcPort c.2)
  | none => if s.awaited (.field f.src) f then s else s.serveFrame op (.field f.src) f

/-- The link-local address of the node: fe80::/64 with the modified EUI-64 of FIELD_MAC (R208). -/
def State.address (s : State) : List Byte :=
  let m := slice s.part.mac 0 6
  [0xFE, 0x80, 0, 0, 0, 0, 0, 0, (nth m 0 0) ^^^ 2, nth m 0 1, nth m 0 2, 0xFF, 0xFE, nth m 0 3, nth m 0 4, nth m 0 5]

/-- ff02::1. -/
def allNodes : List Byte := [0xFF, 0x02, 0, 0, 0, 0, 0, 0, 0, 0, 0, 0, 0, 0, 0, 1]

/-- The datagram is for the node: UDP port 0xC0A6 of its own address or of ff02::1; other traffic is dropped (R208). -/
def State.takesFrame (s : State) (f : Frame) : Bool := f.dstPort == 0xC0A6 && (f.dst == s.address || f.dst == allNodes)

/-- A Welair request arrives (R207-R209). -/
def State.frameIn (s : State) (op : Nat) (f : Frame) : State :=
  if !s.run.dictServed ∨ s.dict.fieldSilent ∨ !s.takesFrame f ∨ !frameAccepted f then s
  else if f.session = 0 then (s.plainFrame op f).onward
  else (s.sessionFrame op f).onward

/-! ### The infield door (R218) -/

/-- A mailbox command with a payload of Table 9.10; the mailbox holds one command at a time. -/
def State.infieldIn (s : State) (p : Nat) (l : LinkId) (payload : List Byte) (f : Payload → State → State) : State :=
  if !s.doorOpen (.infield p l) then s
  else s.viaBar0 p l fun x =>
    match parsePayload payload with
    | some y => if 8192 < y.data.length then x.mailboxDone p l .invalidInput [] else f y x
    | none => x.mailboxDone p l .invalidInput []

/-- A dictionary access of the mailbox. -/
def State.infieldOp (s : State) (op p : Nat) (l : LinkId) (payload : List Byte) : State :=
  s.infieldIn p l payload fun y x => x.serve (.infield p l) ⟨op, y.index, y.sub, y.type, y.offset, y.last, y.data, 8192⟩ none

/-- DICT_CONTEXT: the staged groups by the index of their first members. -/
def State.contextReply (s : State) (p : Nat) (l : LinkId) : State :=
  s.mailboxDone p l .success (infieldReply 0 0 0 ((s.ctx (.infield p l)).recs.flatMap fun x => natLe 2 x.1))

end Sys2Proof.Machine
end

