-- ==== Sys2Proof/Machine/DoorCmds.lean ====
section
/-! DEFINITION. The commands of the two doors: mailbox commands (R218), Welair frames (R196-R216), the field node (R208), time-outs of
sessions and contexts (R201, R216). -/

namespace Sys2Proof.Machine

/-! ### Infield door -/

/-- DICT_READ (0xC000). -/
def execDictRead (p : Nat) (l : LinkId) (payload : List Byte) (s : State) : Host.Outcome State Fault Refusal :=
  .next (s.infieldOp 1 p l payload)

/-- DICT_WRITE (0xC001). -/
def execDictWrite (p : Nat) (l : LinkId) (payload : List Byte) (s : State) : Host.Outcome State Fault Refusal :=
  .next (s.infieldOp 2 p l payload)

/-- DICT_READ_BLOCK (0xC002). -/
def execDictReadBlock (p : Nat) (l : LinkId) (payload : List Byte) (s : State) : Host.Outcome State Fault Refusal :=
  .next (s.infieldOp 3 p l payload)

/-- DICT_WRITE_BLOCK (0xC003). -/
def execDictWriteBlock (p : Nat) (l : LinkId) (payload : List Byte) (s : State) : Host.Outcome State Fault Refusal :=
  .next (s.infieldOp 4 p l payload)

/-- DICT_READ_STAGED (0xC004). -/
def execDictReadStaged (p : Nat) (l : LinkId) (payload : List Byte) (s : State) : Host.Outcome State Fault Refusal :=
  .next (s.infieldOp 5 p l payload)

/-- DICT_COMMIT (0xC005). -/
def execDictCommit (p : Nat) (l : LinkId) (payload : List Byte) (s : State) : Host.Outcome State Fault Refusal :=
  .next (s.infieldOp 6 p l payload)

/-- DICT_DISCARD (0xC006). -/
def execDictDiscard (p : Nat) (l : LinkId) (payload : List Byte) (s : State) : Host.Outcome State Fault Refusal :=
  .next (s.infieldOp 7 p l payload)

/-- DICT_CONTEXT (0xC007). -/
def execDictContext (p : Nat) (l : LinkId) (payload : List Byte) (s : State) : Host.Outcome State Fault Refusal :=
  .next (s.infieldIn p l payload fun _ x => x.contextReply p l)

/-- Opcodes 0xC008 to 0xC00F: Unsupported. -/
def execDictReservedOpcode (p : Nat) (l : LinkId) (opcode : Nat) (s : State) : Host.Outcome State Fault Refusal :=
  .next (if s.doorOpen (.infield p l) ∧ 0xC008 ≤ opcode ∧ opcode ≤ 0xC00F then
      s.viaBar0 p l fun x => x.mailboxDone p l .unsupported []
    else s)

/-! ### Welair frames -/

/-- READ (OP 0x01). -/
def execRead (f : Frame) (s : State) : Host.Outcome State Fault Refusal := .next (s.frameIn 0x01 f)

/-- WRITE (OP 0x02). -/
def execWrite (f : Frame) (s : State) : Host.Outcome State Fault Refusal := .next (s.frameIn 0x02 f)

/-- READ_BLOCK (OP 0x03). -/
def execReadBlock (f : Frame) (s : State) : Host.Outcome State Fault Refusal := .next (s.frameIn 0x03 f)

/-- WRITE_BLOCK (OP 0x04). -/
def execWriteBlock (f : Frame) (s : State) : Host.Outcome State Fault Refusal := .next (s.frameIn 0x04 f)

/-- READ_STAGED (OP 0x05). -/
def execReadStaged (f : Frame) (s : State) : Host.Outcome State Fault Refusal := .next (s.frameIn 0x05 f)

/-- COMMIT (OP 0x06). -/
def execCommit (f : Frame) (s : State) : Host.Outcome State Fault Refusal := .next (s.frameIn 0x06 f)

/-- DISCARD (OP 0x07). -/
def execDiscard (f : Frame) (s : State) : Host.Outcome State Fault Refusal := .next (s.frameIn 0x07 f)

/-- WAKE (OP 0x09). -/
def execWake (f : Frame) (s : State) : Host.Outcome State Fault Refusal := .next (s.frameIn 0x09 f)

/-- DISCOVER (OP 0x10). -/
def execDiscover (f : Frame) (s : State) : Host.Outcome State Fault Refusal := .next (s.frameIn 0x10 f)

/-- DISCOVER_REPLY_DELAY (R214). -/
def execDiscoverReplyDelay (s : State) : Host.Outcome State Fault Refusal := .next s.sendDiscover

/-- SESSION_OPEN (OP 0x11). -/
def execSessionOpen (f : Frame) (s : State) : Host.Outcome State Fault Refusal := .next (s.frameIn 0x11 f)

/-- SESSION_CLOSE (OP 0x12). -/
def execSessionClose (f : Frame) (s : State) : Host.Outcome State Fault Refusal := .next (s.frameIn 0x12 f)

/-! ### The field node and time-outs -/

/-- The node answers on the wire. -/
def State.nodeLive (s : State) : Bool := s.run.dictServed && !s.dict.fieldSilent

/-- NEIGHBOR_SOLICITATION for the node's address (R208). -/
def execNeighborSolicitation (src : Nat) (target : List Byte) (s : State) : Host.Outcome State Fault Refusal :=
  .next (if s.nodeLive ∧ target = s.address then s.emit (.neighborAdvert src) else s)

/-- ECHO_REQUEST (R208). -/
def execEchoRequest (src : Nat) (payload : List Byte) (s : State) : Host.Outcome State Fault Refusal :=
  .next (if s.nodeLive then s.emit (.echoReply src payload) else s)

/-- FIELD_LINK_UP: a duplicate address silences the node until the next start (R208). -/
def execFieldLinkUp (duplicate : Bool) (s : State) : Host.Outcome State Fault Refusal :=
  .next (if s.nodeLive ∧ duplicate then ({ s with dict := { s.dict with fieldSilent := true } }).raise 0x0126 0 0 0 else s)

/-- SESSION_IDLE_EXPIRY (R216). -/
def execSessionIdleExpiry (id : Nat) (s : State) : Host.Outcome State Fault Refusal := .next (s.closeSession id)

/-- STAGE_TIMEOUT_EXPIRY: staged values of a group, or with none an unfinished block buffer, are cleared (R201, R210). -/
def execStageTimeoutExpiry (d : Door) (group : Option Nat) (s : State) : Host.Outcome State Fault Refusal :=
  .next (
    let c := s.ctx (ctxOf d)
    s.setCtx (match group with
      | some g => c.dropGroup g
      | none => { c with wbuf := none }))

end Sys2Proof.Machine
end

