-- ==== Sys2Proof/Machine/MemCmds.lean ====
section
/-! DEFINITION. CXL.mem requests and the BAR2 aperture (R17, R22, R173, R174, R176, R177, R188). -/

namespace Sys2Proof.Machine

/-- A CXL.mem request reaches the port (R173): CXL mode, link open, no CONTAIN freeze. -/
def State.memIn (s : State) (p : Nat) (l : LinkId) : Bool := s.linkOpen p l && !(s.port p).pcieOnly && !s.muted p

/-- The partition address of the granule of a host address. -/
def State.memAddr (s : State) (p : Nat) (l : LinkId) (hpa : Nat) : Option PartAddr :=
  (s.dpaOf p l hpa).map fun d => decodePart (s.windowLog2 p) (d / 64 * 64)

/-- A read of one granule; all ones at once on a port frozen in ALLONES (R188). -/
def State.memRead (s : State) (p : Nat) (l : LinkId) (tag hpa : Nat) : State :=
  if !s.memIn p l then s
  else
    let s1 := s.wakeLink p l
    match s1.memAddr p l hpa with
    | none => s1
    | some a =>
      if s1.onesOnly p then ((s1.bump 0x1310 1).readSample a.bib p s1.now).emit (.cxlData p l tag (allOnesBytes 64) false)
      else (s1.hostReq false p l (.cxl tag) a 64 [] .atPort false false).onward

/-- A write of one granule; completed and discarded on a port frozen in ALLONES. -/
def State.memWrite (s : State) (p : Nat) (l : LinkId) (tag hpa : Nat) (data : List (Option Byte)) (poison : Bool) : State :=
  if !s.memIn p l then s
  else
    let s1 := s.wakeLink p l
    match s1.memAddr p l hpa with
    | none => s1
    | some a =>
      if s1.onesOnly p then (s1.bump 0x1310 2).emit (.cxlCmp p l tag)
      else (s1.hostReq true p l (.cxl tag) a 64 data .atPort false poison).onward

/-- The bytes a MemWrPtl names by its mask. -/
def maskBytes (data : List Byte) (mask : BitVec 64) : List (Option Byte) :=
  (upto 64).map fun i => if mask.getLsbD i then some (data.getD i 0) else none

/-- MEM_RD (R173). -/
def execMemRd (p : Nat) (l : LinkId) (tag hpa : Nat) (s : State) : Host.Outcome State Fault Refusal := .next (s.memRead p l tag hpa)

/-- MEM_WR (R17, R173). -/
def execMemWr (p : Nat) (l : LinkId) (tag hpa : Nat) (data : List Byte) (poison : Bool) (s : State) :
    Host.Outcome State Fault Refusal :=
  .next (s.memWrite p l tag hpa ((slice data 0 64).map some) poison)

/-- MEM_WR_PTL (R173). -/
def execMemWrPtl (p : Nat) (l : LinkId) (tag hpa : Nat) (data : List Byte) (mask : BitVec 64) (poison : Bool) (s : State) :
    Host.Outcome State Fault Refusal :=
  .next (s.memWrite p l tag hpa (maskBytes data mask) poison)

/-- MEM_SPEC_RD (R173): completed with no effect; it takes the link out of L1 as any request does. -/
def execMemSpecRd (p : Nat) (l : LinkId) (_tag _hpa : Nat) (s : State) : Host.Outcome State Fault Refusal :=
  .next (if s.memIn p l then s.wakeLink p l else s)

/-- MEM_INV (R173): answered with Cmp. -/
def execMemInv (p : Nat) (l : LinkId) (tag _hpa : Nat) (s : State) : Host.Outcome State Fault Refusal :=
  .next (if s.memIn p l then (s.wakeLink p l).emit (.cxlCmp p l tag) else s)

/-! ### BAR2 -/

/-- A BAR2 request reaches the port: PCIe-only mode, within the aperture, link open, no CONTAIN freeze. -/
def State.bar2In (s : State) (p : Nat) (l : LinkId) (off len : Nat) : Bool :=
  s.linkOpen p l && (s.port p).pcieOnly && decide (off + len ≤ 2 ^ (s.port p).bar2Log2) && !s.muted p

/-- The granule pieces of a transfer; a zero-length read has one piece of no byte (R176). -/
def bar2Pieces (off len : Nat) : List (Nat × Nat) := if len = 0 then [(off, 0)] else pieces 64 (len / 64 + 2) off len

/-- A transfer joins the port's and its granules are asked for in order. -/
def State.startXfer (s : State) (write : Bool) (p : Nat) (l : LinkId) (tag off : Nat) (data : List Byte) (len : Nat)
    (relaxed poison : Bool) : State :=
  let ps := bar2Pieces off len
  let id := s.nextId
  let x : Xfer := ⟨id, write, p, l, (s.decodeBar2 p off).bib, tag, off, len, [], false, ps.length, s.now⟩
  let s1 := { s.newId with xfers := s.xfers ++ [x] }
  ps.foldl (fun s y => s.hostReq write p l (.bar2 id (y.1 - off)) (s.decodeBar2 p y.1) y.2
    (if write then (slice data (y.1 - off) y.2).map some else []) (if write then .atPort else .barrier) relaxed poison) s1

/-- BAR2_READ (R176, R177): behind earlier writes of the link; Unsupported Request without Memory Space Enable or in D3hot (R183). -/
def execBar2Read (p : Nat) (l : LinkId) (tag off len : Nat) (s : State) : Host.Outcome State Fault Refusal :=
  .next (
    if !s.bar2In p l off len then s
    else
      let s1 := s.wakeLink p l
      if !s1.barOpen p l then s1.emit (.bar2Unsupported p l tag)
      else if s1.onesOnly p then
        ((s1.bump 0x1310 1).readSample (s.decodeBar2 p off).bib p s1.now).completeBar2 p l tag off (allOnesBytes len) false
      else (s1.startXfer false p l tag off [] len false false).onward)

/-- BAR2_WRITE (R176): posted. -/
def execBar2Write (p : Nat) (l : LinkId) (off : Nat) (data : List Byte) (relaxed poison : Bool) (s : State) :
    Host.Outcome State Fault Refusal :=
  .next (
    if !s.bar2In p l off data.length ∨ data.isEmpty then s
    else
      let s1 := s.wakeLink p l
      if !s1.barOpen p l then s1
      else if s1.onesOnly p then s1.bump 0x1310 2
      else (s1.startXfer true p l 0 off data data.length relaxed poison).onward)

/-- BAR2_ATOMIC_OP (R176). -/
def execBar2AtomicOp (p : Nat) (l : LinkId) (tag off : Nat) (s : State) : Host.Outcome State Fault Refusal :=
  .next (if s.bar2In p l off 1 then (s.wakeLink p l).emit (.bar2Unsupported p l tag) else s)

end Sys2Proof.Machine
end

