-- ==== Sys2Proof/Machine/ObjectCmds.lean ====
section
/-! DEFINITION. Commands that name a dictionary object with behaviour of its own, and the ends of what they start (R41, R64, R87, R148,
R202-R205, R224-R237, R283, R298). -/

namespace Sys2Proof.Machine

/-! ### Write-once values and the persistent image -/

/-- WONCE_WRITE (R202). -/
def execWonceWrite (d : Door) (index sub : Nat) (value : List Byte) (s : State) : Host.Outcome State Fault Refusal :=
  .next (if ((findObj index sub).map (·.acc)) = some .wonce then s.writeVia d index sub value else s)

/-- A write-once value is in flash: it takes effect, and its reply is sent (R205). -/
def execWonceStoreDone (index sub : Nat) (s : State) : Host.Outcome State Fault Refusal :=
  .next (if ((findObj index sub).map (·.acc)) = some .wonce then
      s.storeDone index sub
    else s)

/-- DICT_OBJECT_WRITE (R197). -/
def execDictObjectWrite (d : Door) (index sub : Nat) (value : List Byte) (s : State) : Host.Outcome State Fault Refusal :=
  .next (s.writeVia d index sub value)

/-- PERSIST_STORE_START (R203). -/
def execPersistStoreStart (s : State) : Host.Outcome State Fault Refusal :=
  .next (if s.run.dictServed ∧ s.dict.storePending ∧ !s.dict.storeRunning then s.startStore else s)

/-- PERSIST_STORE_DONE: a store that was asked for meanwhile starts (R203). -/
def execPersistStoreDone (s : State) : Host.Outcome State Fault Refusal :=
  .next (if s.dict.storeRunning then (if s.dict.storeQueued then s.endStore.startStore else s.endStore) else s)

/-- PERSIST_SYNC (R203). -/
def execPersistSync (d : Door) (value : Nat) (s : State) : Host.Outcome State Fault Refusal := .next (s.writeNum d 0x1280 8 1 value)

/-! ### Memory -/

/-- EXTENT_RELEASE (R41). -/
def execExtentRelease (d : Door) (handle : Nat) (s : State) : Host.Outcome State Fault Refusal := .next (s.writeNum d 0x2400 1 4 handle)

/-- The moves and legs of a released extent have finished: its pages are UNWRITTEN and its record is cleared (R41). -/
def State.releaseEnds (s : State) (h : Nat) : State :=
  if s.map.releases.contains h ∧ (upto 32).all fun i => s.pageFree (h * 32 + i) then
    let s1 := (upto 32).foldl (fun s i => (s.clearPage (h * 32 + i)).vaultRelease (h * 32 + i)) s
    { s1 with map := { s1.map with releases := s1.map.releases.filter (· != h) } }
  else s

def execExtentReleaseDone (handle : Nat) (s : State) : Host.Outcome State Fault Refusal := .next (s.releaseEnds handle).onward

/-- PROVISION_RATIO (R35, R298). -/
def execProvisionRatio (d : Door) (value : Nat) (s : State) : Host.Outcome State Fault Refusal := .next (s.writeNum d 0x2000 1 2 value)

/-- VAULT_KEY (R87). -/
def execVaultKey (d : Door) (region : Nat) (key : List Byte) (s : State) : Host.Outcome State Fault Refusal :=
  .next (if region < 64 then s.writeVia d (0x1810 + region) 1 key else s)

/-- CB_RETIRE (R64). -/
def execCbRetire (d : Door) (region slot : Nat) (s : State) : Host.Outcome State Fault Refusal :=
  .next (if region < 64 then s.writeNum d (0x5100 + region) 0x0B 1 slot else s)

/-- REGION_BIB (R133). -/
def execRegionBib (d : Door) (region b : Nat) (s : State) : Host.Outcome State Fault Refusal :=
  .next (if region < 64 then s.writeNum d (0x2100 + region) 8 1 b else s)

/-- WINDOW_LOG2 (R172). -/
def execWindowLog2 (d : Door) (p value : Nat) (s : State) : Host.Outcome State Fault Refusal :=
  .next (if p < 4 then s.writeNum d (0x2200 + p) 1 1 value else s)

/-! ### Run state -/

/-- RUN_REQUEST value 1 (R224). -/
def execRunRequestPause (d : Door) (s : State) : Host.Outcome State Fault Refusal := .next (s.writeNum d 0x1200 3 1 1)

/-- RUN_REQUEST value 3 (R224). -/
def execRunRequestPauseForced (d : Door) (s : State) : Host.Outcome State Fault Refusal := .next (s.writeNum d 0x1200 3 1 3)

/-- RUN_REQUEST value 2 (R224). -/
def execRunRequestGo (d : Door) (s : State) : Host.Outcome State Fault Refusal := .next (s.writeNum d 0x1200 3 1 2)

/-- SOFT_RESET 0x10 + core (R225). -/
def execSoftResetCore (d : Door) (core : Nat) (s : State) : Host.Outcome State Fault Refusal :=
  .next (if core < 16 then s.writeNum d 0x1200 2 1 (0x10 + core) else s)

/-- SOFT_RESET 0x20 + p (R225). -/
def execSoftResetPort (d : Door) (p : Nat) (s : State) : Host.Outcome State Fault Refusal :=
  .next (if p < 16 then s.writeNum d 0x1200 2 1 (0x20 + p) else s)

/-- SOFT_RESET 0x30 (R225). -/
def execSoftResetDevice (d : Door) (s : State) : Host.Outcome State Fault Refusal := .next (s.writeNum d 0x1200 2 1 0x30)

/-- SOFT_RESET 0x31 (R225). -/
def execSoftResetDeviceForced (d : Door) (s : State) : Host.Outcome State Fault Refusal := .next (s.writeNum d 0x1200 2 1 0x31)

/-- PORT_RELEASE through a door, or through the RELEASE bit of the DVSEC of link A (R189). -/
def execPortRelease (p : Nat) (via : Option Door) (s : State) : Host.Outcome State Fault Refusal :=
  .next (match via with
    | some d => if p < 4 then s.writeNum d (0x3040 + 0x100 * p) 1 1 1 else s
    | none => s.viaConfig p .a fun x => x.askRelease p)

/-! ### Events, telemetry, the probe -/

/-- EVT_ACK (R227). -/
def execEvtAck (d : Door) (value : Nat) (s : State) : Host.Outcome State Fault Refusal := .next (s.writeNum d 0x1300 6 4 value)

/-- TELEMETRY_CLEAR (R236). -/
def execTelemetryClear (d : Door) (value : Nat) (s : State) : Host.Outcome State Fault Refusal := .next (s.writeNum d 0x1310 0x11 1 value)

/-- BIB_MON_CLEAR (R236). -/
def execBibMonClear (d : Door) (b value : Nat) (s : State) : Host.Outcome State Fault Refusal :=
  .next (if b < 16 then s.writeNum d (0x7040 + b) 0x0A 1 value else s)

/-- PROBE_PAGE (R228). -/
def execProbePage (d : Door) (lpn : Nat) (s : State) : Host.Outcome State Fault Refusal := .next (s.writeNum d 0x1330 1 4 lpn)

/-- PROBE_WINDOW (R228). -/
def execProbeWindow (d : Door) (value : Nat) (s : State) : Host.Outcome State Fault Refusal := .next (s.writeNum d 0x1330 2 4 value)

/-! ### Security, firmware, policy -/

/-- SESSION_KEY_k (R217). -/
def execSessionKey (d : Door) (slot : Nat) (key : List Byte) (s : State) : Host.Outcome State Fault Refusal :=
  .next (if slot < 4 then s.writeVia d 0x1800 (slot + 1) key else s)

/-- INFIELD_TRUST (R217). -/
def execInfieldTrust (d : Door) (value : Nat) (s : State) : Host.Outcome State Fault Refusal := .next (s.writeNum d 0x1800 6 1 value)

/-- AZMOR_UPDATE: the LAST segment has arrived (R229). -/
def execAzmorUpdate (d : Door) (image : List Byte) (s : State) : Host.Outcome State Fault Refusal := .next (s.writeVia d 0x8000 3 image)

/-- The image is in the bank not in use (R229). -/
def execAzmorImageStored (s : State) : Host.Outcome State Fault Refusal :=
  .next (s.storeDone 0x8000 3)

/-- POLICY_IMAGE: the LAST segment has arrived (R230, R253). -/
def execPolicyImage (d : Door) (image : List Byte) (s : State) : Host.Outcome State Fault Refusal := .next (s.writeVia d 0x8040 1 image)

/-- The module is stored (R205). -/
def execPolicyImageStored (s : State) : Host.Outcome State Fault Refusal :=
  .next (s.storeDone 0x8040 1).onward

/-- POLICY_ENABLE (R254). -/
def execPolicyEnable (d : Door) (value : Nat) (s : State) : Host.Outcome State Fault Refusal := .next (s.writeNum d 0x8040 3 1 value)

/-! ### Test -/

/-- LAP_RUN (R233). -/
def execLapRun (d : Door) (engine : Nat) (s : State) : Host.Outcome State Fault Refusal := .next (s.writeNum d 0xA000 3 1 engine)

/-- TRACK_UNLOCK (R234). -/
def execTrackUnlock (d : Door) (value : List Byte) (s : State) : Host.Outcome State Fault Refusal := .next (s.writeVia d 0xA100 1 value)

/-- TRACK_LOCK (R234). -/
def execTrackLock (d : Door) (value : Nat) (s : State) : Host.Outcome State Fault Refusal := .next (s.writeNum d 0xA100 4 1 value)

/-- TRACK_GROUP (R284). -/
def execTrackGroup (d : Door) (value : Nat) (s : State) : Host.Outcome State Fault Refusal := .next (s.writeNum d 0xA100 3 1 value)

/-- INJECT_ARM (R235, R283). -/
def execInjectArm (d : Door) (value : Nat) (s : State) : Host.Outcome State Fault Refusal := .next (s.writeNum d 0xA200 3 1 value)

/-! ### Tiers -/

/-- CHAN_MAP_OUT (R153). -/
def execChanMapOut (d : Door) (c value : Nat) (s : State) : Host.Outcome State Fault Refusal :=
  .next (if c < 16 then s.writeNum d (0x4000 + 0x10 * c) 8 1 value else s)

/-- STACK_PC_MAP_OUT (R163). -/
def execStackPcMapOut (d : Door) (st pc : Nat) (s : State) : Host.Outcome State Fault Refusal :=
  .next (if st < 8 then s.writeNum d (0x4800 + 0x10 * st) 7 1 pc else s)

/-- CHAN_SR_POLICY (R145). -/
def execChanSrPolicy (d : Door) (c value : Nat) (s : State) : Host.Outcome State Fault Refusal :=
  .next (if c < 16 then s.writeNum d (0x4000 + 0x10 * c) 4 1 value else s)

/-- TRN_RUN (R148, Table 7.5). -/
def execTrnRun (d : Door) (c value : Nat) (s : State) : Host.Outcome State Fault Refusal :=
  .next (if c < 16 then s.writeNum d (0x4003 + 0x10 * c) 9 1 value else s)

/-- A sweep is done: its error counts and pass map as measured (Table 7.5). -/
def execTrnSweepDone (c : Nat) (errors passMap : List Byte) (s : State) : Host.Outcome State Fault Refusal :=
  .next (if c < 16 ∧ (s.chan c).trnStatus = 1 then
      ((s.modChan c fun x => { x with trnStatus := 2 }).setBlob (0x4003 + 0x10 * c) 0x0B (slice errors 0 160)).setBlob
        (0x4004 + 0x10 * c) 2 (slice passMap 0 2560)
    else s)

end Sys2Proof.Machine
end

