-- ==== Sys2Proof/Machine/PacerCmds.lean ====
section
/-! DEFINITION. Pacer commands (R128-R131). -/

namespace Sys2Proof.Machine

/-- PACER_IDLE_DECAY: PACER_IDLE_DECAY has passed without a sample of a kind (R128). The averages run while the Field domain does,
in GO. -/
def execPacerIdleDecay (b : Nat) (leg : Bool) (s : State) : Host.Outcome State Fault Refusal :=
  .next (if s.inGo ∧ b < 16 then (s.decay b leg).onward else s)

/-- URG_CHANGE: a pin value has been stable for 32 hub cycles (R130). -/
def execUrgChange (p value : Nat) (s : State) : Host.Outcome State Fault Refusal :=
  .next ((s.modPort p fun x => { x with urgPin := value % 4 }).onward)

/-- URG_SLICE: a 1 µs slice ends on every port (R131). -/
def execUrgSlice (s : State) : Host.Outcome State Fault Refusal := .next ((upto 4).foldl State.urgSliceOf s).onward

end Sys2Proof.Machine
end

