-- ==== Sys2Proof/Machine/QueueCmds.lean ====
section
/-! DEFINITION. BAR0 accesses, work queues and descriptors (R94, R95, R97, R102, R107, R109, R111, R115, R170; R42, R43). -/

namespace Sys2Proof.Machine

/-- BAR0_ACCESS_OTHER (R170). -/
def execBar0AccessOther (p : Nat) (l : LinkId) (write : Bool) (tag off width value : Nat) (s : State) :
    Host.Outcome State Fault Refusal := .next (s.bar0Access p l write tag off width value).onward

/-- QTAIL (R94, R113). -/
def execQtail (p : Nat) (l : LinkId) (q value : Nat) (s : State) : Host.Outcome State Fault Refusal :=
  .next (if q < 16 then (s.bar0Access p l true 0 (0x200000 + 0x1000 * q) 4 value).onward else s)

/-- QCTRL_ENABLE (R94): QCTRL written with its vector as it stands. -/
def execQctrlEnable (p : Nat) (l : LinkId) (q : Nat) (enable : Bool) (s : State) : Host.Outcome State Fault Refusal :=
  .next (if q < 16 then
    (s.bar0Access p l true 0 (0x10000C + 0x1000 * q) 4 (b2n enable + 65536 * (s.queue p q).vector)).onward else s)

/-- DESCRIPTOR_READ (R95). -/
def execDescriptorRead (p q : Nat) (s : State) : Host.Outcome State Fault Refusal := .next (s.readRing p q).onward

/-- ATTEND (R102). -/
def execAttend (job : Nat) (s : State) : Host.Outcome State Fault Refusal := .next (s.startJob job fun j => j.op == 0x01)

/-- GATHER_ATTEND (R107). -/
def execGatherAttend (job : Nat) (s : State) : Host.Outcome State Fault Refusal :=
  .next (s.startJob job fun j => j.op == 0x02 && !j.resume)

/-- GATHER_ATTEND_RESUME (R109). -/
def execGatherAttendResume (job : Nat) (s : State) : Host.Outcome State Fault Refusal :=
  .next (s.startJob job fun j => j.op == 0x02 && j.resume)

/-- SEAL (R111). -/
def execSealRange (job : Nat) (s : State) : Host.Outcome State Fault Refusal := .next (s.startJob job fun j => j.op == 0x10)

/-- PREFETCH (R111). -/
def execPrefetch (job : Nat) (s : State) : Host.Outcome State Fault Refusal := .next (s.startJob job fun j => j.op == 0x11)

/-- COPY_IN_RAW (R111). -/
def execCopyInRaw (job : Nat) (s : State) : Host.Outcome State Fault Refusal :=
  .next (s.startJob job fun j => j.op == 0x12 && j.form == 0)

/-- COPY_IN_IMAGE (R67). -/
def execCopyInImage (job : Nat) (s : State) : Host.Outcome State Fault Refusal :=
  .next (s.startJob job fun j => j.op == 0x12 && j.form == 1)

/-- COPY_OUT_RAW (R111). -/
def execCopyOutRaw (job : Nat) (s : State) : Host.Outcome State Fault Refusal :=
  .next (s.startJob job fun j => j.op == 0x13 && j.form == 0)

/-- COPY_OUT_IMAGE (R111). -/
def execCopyOutImage (job : Nat) (s : State) : Host.Outcome State Fault Refusal :=
  .next (s.startJob job fun j => j.op == 0x13 && j.form == 1)

/-- BATON (R42). -/
def execBaton (job : Nat) (s : State) : Host.Outcome State Fault Refusal := .next (s.startJob job fun j => j.op == 0x20)

/-- CATCH (R42). -/
def execCatchPass (job : Nat) (s : State) : Host.Outcome State Fault Refusal := .next (s.startJob job fun j => j.op == 0x21)

/-- A BATON or CATCH that has neither a match nor a result. -/
def State.unmatched (s : State) (j : Job) : Bool :=
  j.pass && !s.inPass j && (match j.phase with
    | .writing _ => false
    | _ => true)

/-- BATON_TIMEOUT (R42). -/
def execBatonTimeout (job : Nat) (s : State) : Host.Outcome State Fault Refusal :=
  .next (match s.job job with
    | some j => if s.unmatched j then (s.endPass j 0x12 0).onward else s
    | none => s)

/-- BATON_SWAP (R43). -/
def execBatonSwap (token : Nat) (s : State) : Host.Outcome State Fault Refusal :=
  .next (match s.map.passes.find? fun x => x.token == token with
    | some x => if s.passDraining x then s else (s.swapPass x).onward
    | none => s)

/-- CODEBOOK_BUILD (R111). -/
def execCodebookBuild (job : Nat) (s : State) : Host.Outcome State Fault Refusal := .next (s.startJob job fun j => j.op == 0x30)

/-- FENCE (R115). -/
def execFence (job : Nat) (s : State) : Host.Outcome State Fault Refusal := .next (s.startJob job fun j => j.op == 0x3F)

end Sys2Proof.Machine
end

