-- ==== Sys2Proof/Machine/StrideCmds.lean ====
section
/-! DEFINITION. Legs and stride engines (R93, R103, R104, R118, R119, R273, R278). -/

namespace Sys2Proof.Machine

/-- LEG_DISPATCH (R93). -/
def execLegDispatch (s : State) : Host.Outcome State Fault Refusal := .next (if s.inGo then s.dispatchLeg.onward else s)

/-- LEG_NEAR_WAIT (R93). -/
def execLegNearWait (leg : Nat) (s : State) : Host.Outcome State Fault Refusal :=
  .next (s.modLeg leg fun l => if l.engine.isNone then { l with nearExpired := true } else l)

/-- LEG_REACHES_PAGE (R104). -/
def execLegReachesPage (leg : Nat) (s : State) : Host.Outcome State Fault Refusal :=
  .next (match s.leg leg with
    | none => s
    | some l =>
      match s.job l.job with
      | none => s
      | some j => if l.engine.isSome ∧ !l.done ∧ !l.allRead then (s.legPage j l).onward else s)

/-- LEG_COMPLETE once the leg has read its pages (R103): a residue error armed on its engine fails the run instead (Table 13.7, 0x01). -/
def execLegComplete (leg : Nat) (s : State) : Host.Outcome State Fault Refusal :=
  .next (match s.leg leg with
    | none => s
    | some l =>
      match s.job l.job, l.engine with
      | some j, some e =>
        if l.done ∨ !l.allRead ∨ s.busy leg then s
        else if s.armed (unitStride e) 0x01 then (s.fireInject (unitStride e) 0x01 fun x => x.fenceStride e).onward
        else (s.legDone j l).onward
      | _, _ => s)

/-- STRIDE_ENGINE_FAILURE (R118). -/
def execStrideEngineFailure (e : Nat) (s : State) : Host.Outcome State Fault Refusal :=
  .next (if s.hasStride ∧ e < 16 ∧ !(s.strideEng e).fenced then (s.fenceStride e).onward else s)

/-- FINISH_STORE_PARITY (R273). -/
def execFinishStoreParity (job head : Nat) (s : State) : Host.Outcome State Fault Refusal :=
  .next (match s.job job with
    | some j => if j.stride ∧ j.phase = .running then (s.finishParity j head).onward else s
    | none => s)

end Sys2Proof.Machine
end

