-- ==== Sys2Proof/Machine/TestCmds.lean ====
section
/-! DEFINITION. The lap and TAP commands (R278-R281, R285). -/

namespace Sys2Proof.Machine

/-- LAP_DUE (R281). -/
def execLapDue (s : State) : Host.Outcome State Fault Refusal := .next s.lapDue.onward

/-- LAP_AGE_FORCED (R281). -/
def execLapAgeForced (e : Nat) (s : State) : Host.Outcome State Fault Refusal := .next (s.lapNow e true).onward

/-- LAP_DRAINED (R280). -/
def execLapDrained (s : State) : Host.Outcome State Fault Refusal := .next s.lapDrained.onward

/-- LAP_DRAIN_TIMEOUT (R280). -/
def execLapDrainTimeout (s : State) : Host.Outcome State Fault Refusal := .next s.lapTimeout.onward

/-- LAP_DONE (R280). -/
def execLapDone (pass : Bool) (s : State) : Host.Outcome State Fault Refusal := .next (s.lapDone pass).onward

/-- READMISSION_LAP (R278). -/
def execReadmissionLap (e : Nat) (pass : Bool) (s : State) : Host.Outcome State Fault Refusal := .next (s.readmit e pass).onward

/-- TAP_RESET: TRST_N low (R285). -/
def execTapReset (s : State) : Host.Outcome State Fault Refusal := .next (s.tapStep s.test.tap.toReset)

/-- TCK_CYCLE (R285). -/
def execTckCycle (tms tdi : Bool) (s : State) : Host.Outcome State Fault Refusal :=
  .next (s.tapStep (s.test.tap.cycle tms tdi s.run.sysRstLow s.freeCtr))

end Sys2Proof.Machine
end

