-- ==== Sys2Proof/Machine/TierCmds.lean ====
section
/-! DEFINITION. Tier commands: refresh, temperature, self-refresh, bursts, scrub, fill, units going out, march tests (R137-R163,
R282, R283). -/

namespace Sys2Proof.Machine

/-! ### Faults of a read -/

/-- First kind of the read faults of a unit (Table 13.7): corrected, then uncorrectable. -/
def readKind : DramUnit → Nat
  | .dist _ => 0x20
  | .pc _ _ => 0x30

/-- A read of a unit with what ECC says of it, or what an armed fault makes of it (R283). -/
def State.withEcc (s : State) (u : DramUnit) (ecc : Ecc) (act : Ecc → State → State) : State :=
  if s.armed (unitOf u) (readKind u) then s.fireInject (unitOf u) (readKind u) (act .corrected)
  else if s.armed (unitOf u) (readKind u + 1) then s.fireInject (unitOf u) (readKind u + 1) (act .uncorrectable)
  else act ecc s

def isDist : DramUnit → Bool
  | .dist _ => true
  | .pc _ _ => false

/-- Errors of a read are counted (R153, R161, R163). -/
def State.countEcc (s : State) (u : DramUnit) : Ecc → State
  | .clean => s
  | .corrected => s.countError u false
  | .uncorrectable => s.countError u true

/-- An armed fault 0x23: the channel becomes unresponsive at its next command (Table 13.7). -/
def State.fireUnresponsive (s : State) (c : Nat) : State :=
  if s.armed (unitChan c) 0x23 ∧ s.unitRuns (.dist c) then s.fireInject (unitChan c) 0x23 fun x => x.unreadable c 5 else s

/-! ### Refresh and temperature -/

/-- REFRESH of a running channel (R144). -/
def State.refreshChan (s : State) (c : Nat) : State :=
  if s.inGo ∧ ((s.chan c).state = 2 ∨ (s.chan c).state = 4) then
    (s.modChan c fun x => { x with refreshes := x.refreshes + 1 }).fireUnresponsive c
  else s

def execRefresh (c : Nat) (s : State) : Host.Outcome State Fault Refusal := .next (s.refreshChan c).onward

/-- THERMAL_POLL: one reading per channel, the highest of its sensors, none while no sensor answers; polls fall in GO and PAUSE alone
(R136, R137, R144). -/
def execThermalPoll (temps : List (Option Int)) (s : State) : Host.Outcome State Fault Refusal :=
  .next (if s.run.state ≠ 2 ∧ s.run.state ≠ 3 then s
    else (temps.zipIdx.take 16).foldl (fun s x => s.pollChan x.2 x.1) s)

/-- SPRINT_REFRESH (R160): the stacks run while the Field domain has power. -/
def execSprintRefresh (st pc : Nat) (s : State) : Host.Outcome State Fault Refusal :=
  .next (if s.tier.slotsBuilt ∧ s.stacks.contains st ∧ pc < 32 then s.modPc st pc fun x => { x with refreshes := x.refreshes + 1 }
    else s)

/-- STACK_TEMP_CHANGE (R160). -/
def execStackTempChange (st : Nat) (temp : Int) (s : State) : Host.Outcome State Fault Refusal :=
  .next (if s.stacks.contains st ∧ s.run.fieldPg then s.pollStack st temp else s)

/-! ### Self-refresh -/

/-- SR_IDLE_ENTRY: an idle channel with an empty queue (R145); in PAUSE one that the maintenance port has left, whatever the policy
(R147). -/
def State.enterSr (s : State) (c : Nat) : State :=
  let x := s.chan c
  let idle := x.q.reads.isEmpty && x.q.writes.isEmpty && !(s.tier.flows.any fun f => f.unit == .dist c)
  if x.state = 2 ∧ idle ∧ (s.inGo ∧ !s.srForbidden c ∨ s.run.state = 3) then s.modChan c fun y => { y with state := 3 }
  else s

def execSrIdleEntry (c : Nat) (s : State) : Host.Outcome State Fault Refusal := .next (s.enterSr c)

/-- SR_EXIT_DONE (R146). -/
def State.exitSr (s : State) (c : Nat) : State :=
  if (s.chan c).exiting ∧ (s.chan c).state = 3 then s.modChan c fun y => { y with state := 2, exiting := false, busyAt := s.now } else s

def execSrExitDone (c : Nat) (s : State) : Host.Outcome State Fault Refusal := .next (s.exitSr c).onward

/-! ### Bursts -/

/-- A read burst of a request has ended. -/
def State.readBurst (s : State) (u : DramUnit) (id : Nat) (ecc : Ecc) : State :=
  let lost : State → State := fun x => match x.req id with
    | some (r : Req) => if (r.stage == Stage.dram || r.stage == Stage.item) && ecc == Ecc.uncorrectable then x.readLost (isDist u) 0 r else x
    | none => x
  let s1 := lost (s.countEcc u ecc)
  match s1.req id with
  | some r => if r.stage = .dram then s1.sprintArrived u r else s1
  | none => s1

/-- Sprint bytes of a raised request are counted (R131). -/
def State.urgBurst (s : State) (u : DramUnit) (e : QEnt) : State :=
  match u, e.bib with
  | .pc _ _, some b => s.urgCount b e.port 64
  | _, _ => s

/-- The page and block that a granule of a unit belongs to. -/
def State.granuleOwner (s : State) (u : DramUnit) (g : Nat) : Option (Nat × Nat) :=
  match u with
  | .pc st p =>
    (s.map.pages.find? fun x => (s.view x.1).inSprint && x.2.home == st && x.2.slot % 32 == p && x.2.slot / 32 == g / 1024).map
      fun x => (x.1, g % 1024 / 32)
  | .dist c =>
    match s.map.pages.find? fun x => (s.view x.1).inDist && x.2.channel == c &&
        decide (64 * x.2.plot ≤ g ∧ g < 64 * x.2.plot + imageGranules x.2.codes) with
    | none => none
    | some x => ((upto 32).find? fun b => decide (x.2.distGranule b ≤ g ∧ g < x.2.distGranule b + codeGranules (x.2.code b))).map
        fun b => (x.1, b)

/-- A granule read by scrub, or by a partial write, with what ECC says of it: an uncorrectable one is a failed check of its block (R152,
R161, R162). -/
def State.granuleRead (s : State) (u : DramUnit) (g : Nat) (ecc : Ecc) : State :=
  let s1 := s.countEcc u ecc
  if ecc = .uncorrectable then
    match s1.granuleOwner u g with
    | some (lpn, b) => (s1.checkFail lpn b (isDist u) 0).2
    | none => s1
  else s1

/-- A read burst of a move, an item, a leg or a job has ended (R75, R152). -/
def State.workBurst (s : State) (u : DramUnit) (id lpn b : Nat) (ecc : Ecc) : State :=
  let s1 := s.countEcc u ecc
  if ecc = .uncorrectable then s1.workBad id lpn b (isDist u) else s1

/-- A write burst of the fill has ended: with the plot's last granule it is filled and joins the free list (R139). -/
def State.fillBurst (s : State) (u : DramUnit) : State :=
  match u with
  | .pc _ _ => s
  | .dist c =>
    let x := s.chan c
    if !x.filling || x.q.serving (· == .fill) || s.tier.flows.any fun f => f.owner == .fill && f.unit == u then s
    else
      ((s.writeDist (plotAddr c x.fillPos) (List.replicate 4096 0)).modChan c fun y =>
        { y with fillPos := y.fillPos + 1, filling := false }).regulate

/-- DRAM_BURST_DONE: the picked entry's burst ends (R138a, R140-R143, R152, R161). -/
def State.burstDone (s : State) (u : DramUnit) (legal hits : List Nat) (ecc : Ecc) : State :=
  match s.burst u legal hits with
  | (none, s1) => s1
  | (some e, s1) =>
    let s2 := s1.urgBurst u e
    match e.write, e.owner with
    | false, .req id => s2.withEcc u ecc fun x s => s.readBurst u id x
    | false, .work id lpn b => s2.withEcc u ecc fun x s => s.workBurst u id lpn b x
    | false, _ => s2.withEcc u ecc fun x s => s.granuleRead u e.granule x
    | true, .part => s2.withEcc u ecc fun x s => s.granuleRead u e.granule x
    | true, .fill => s2.fillBurst u
    | true, _ => s2

def execDramBurstDone (u : DramUnit) (legal rowHits : List Nat) (ecc : Ecc) (s : State) : Host.Outcome State Fault Refusal :=
  .next (if s.inGo then
      let s1 := s.burstDone u legal rowHits ecc
      (match u with
        | .dist c => s1.fireUnresponsive c
        | .pc _ _ => s1).onward
    else s)

/-! ### Scrub and fill -/

/-- A place patrol scrub reads: a slot in use or a reserve position, by its row on the pseudo-channel; a filled data plot, or a plot of the
metadata region (R162). -/
def State.scrubbed (s : State) (u : DramUnit) (place : Nat) : Bool :=
  match u with
  | .pc st p =>
    let slot := 32 * place + p
    if slot < stackSlots s.part.variant st then s.tier.slotsUsed.contains (slotKey st slot) else decide (slot < 393216)
  | .dist c => decide (place < (s.chan c).fillPos ∧ place < s.dataPlots c) || decide (s.dataPlots c ≤ place ∧ place < (s.chan c).rawPlots)

/-- The channel is in self-refresh, and its pass is not overdue by a whole DIST_SCRUB_PERIOD, counted from its last scrub (R162; DESIGN
CHOICE, log entry 65). -/
def State.scrubSkips (s : State) (u : DramUnit) : Bool :=
  match u with
  | .pc _ _ => false
  | .dist c => (s.chan c).state == 3 && decide (s.now < (s.chan c).scrubAt + 2 * s.num 0x4100 7 * 1000000000)

/-- PATROL_SCRUB: the granules of a slot, reserve position or plot wait at level 0 to be read (R146, R162). -/
def State.scrub (s : State) (u : DramUnit) (place : Nat) : State :=
  if !s.inGo ∨ !s.unitRuns u ∨ !s.scrubbed u place ∨ s.scrubSkips u then s
  else
    match u with
    | .dist c =>
      ((s.modChan c fun x => { x with scrubAt := s.now }).touchUnit u).addFlow .scrub u false (64 * place) 64 none none
    | .pc _ _ => s.addFlow .scrub u false (1024 * place) 1024 none none

def execPatrolScrub (u : DramUnit) (place : Nat) (s : State) : Host.Outcome State Fault Refusal := .next (s.scrub u place).onward

/-- BACKGROUND_FILL: the zeros of the next data plot wait at level 0 to be written, in GO and not during PAUSE entry (R139, R146); the fill
of an evacuating channel goes on too. -/
def State.fillNext (s : State) (c : Nat) : State :=
  let x := s.chan c
  if !s.inGo ∨ s.pausing ∨ s.fillDone c ∨ x.filling ∨ !s.unitRuns (.dist c) then s
  else
    ((s.modChan c fun y => { y with filling := true }).touchUnit (.dist c)).addFlow .fill (.dist c) true (64 * x.fillPos) 64 none none

def execBackgroundFill (c : Nat) (s : State) : Host.Outcome State Fault Refusal := .next (s.fillNext c).onward

/-! ### Units going out of service -/

/-- CHANNEL_UNRESPONSIVE: reason UNRESPONSIVE, or TRAINING when a retraining failed (R153, R155). -/
def execChannelUnresponsive (c : Nat) (retrain : Bool) (s : State) : Host.Outcome State Fault Refusal :=
  .next (if c < 16 ∧ s.unitRuns (.dist c) then s.unreadable c (if retrain then 2 else 5) else s).onward

/-- EVACUATION_DRAINED (R154). -/
def execEvacuationDrained (c : Nat) (s : State) : Host.Outcome State Fault Refusal :=
  .next (if s.inGo then (s.evacDrained c).onward else s)

/-- PSEUDO_CHANNEL_FAILURE (R163). -/
def execPseudoChannelFailure (st pc reason : Nat) (readable : Bool) (s : State) : Host.Outcome State Fault Refusal :=
  .next (if s.inGo ∧ s.unitRuns (.pc st pc) then (if readable then s.drainPc st pc reason else s.pcLost st pc reason) else s).onward

/-- PSEUDO_CHANNEL_DRAINED (R163). -/
def execPseudoChannelDrained (st pc : Nat) (s : State) : Host.Outcome State Fault Refusal :=
  .next (if s.inGo then (s.pcDrained st pc).onward else s)

/-! ### March tests (R282) -/

/-- Up to n free plots of a channel leave its free list. -/
def State.takePlots (s : State) (c n : Nat) : State × List Space :=
  (upto n).foldl (fun acc _ => match acc.1.findRun c 1 1 with
    | some r => (acc.1.takeRun r, acc.2 ++ [.run r false])
    | none => acc) (s, [])

/-- Up to n free slots of a pseudo-channel leave its free list. -/
def State.takeSlots (s : State) (st pc n : Nat) : State × List Space :=
  let rows := stackSlots s.part.variant st / 32
  let used := s.pcUsed st pc
  let k := min n (s.pcFree st pc)
  let sl := (((upto (used.length + n)).map fun i => i % rows * 32 + pc).filter fun x => !used.contains (slotKey st x)).take k
  (sl.foldl (fun s x => { s with tier := { s.tier with slotsUsed := s.tier.slotsUsed ++ [slotKey st x] } }) s, sl.map (.slot st))

/-- A march fault is armed on the unit: its test is due (Table 13.7, DEDUCED, log entry 33). -/
def State.marchArmed (s : State) (u : DramUnit) : Bool := s.armed (unitOf u) (readKind u + 2)

/-- MARCH_TEST_START: a candidate, its space withdrawn; a pseudo-channel without a free slot is not tested. -/
def State.marchStart (s : State) (u : DramUnit) : State :=
  if !s.inGo ∨ !(s.candidate u || (s.marchArmed u && s.unitRuns u)) ∨ (s.tier.march.any fun m => m.1 == u) then s
  else
    match u with
    | .dist c =>
      let r := s.takePlots c 64
      ({ r.1 with tier := { r.1.tier with march := r.1.tier.march ++ [(u, r.2)] } }).touchUnit u
    | .pc st p =>
      let r := s.takeSlots st p 16
      if r.2.isEmpty then s else { r.1 with tier := { r.1.tier with march := r.1.tier.march ++ [(u, r.2)] } }

def execMarchTestStart (u : DramUnit) (s : State) : Host.Outcome State Fault Refusal := .next (s.marchStart u).onward

/-- A failed march: event 0x0A02, and the unit is mapped out with reason LAP_TEST. -/
def State.marchFail (s : State) (u : DramUnit) : State := (s.raise 0x0A02 (unitOf u) 0 0).mapOut u 7

/-- MARCH_TEST_DONE: the space returns; a failure maps the unit out. -/
def State.marchDone (s : State) (u : DramUnit) (pass : Bool) : State :=
  match s.tier.march.find? fun m => m.1 == u with
  | none => s
  | some m =>
    let s1 := m.2.foldl State.freeSpace { s with tier := { s.tier with march := s.tier.march.filter fun x => x.1 != u } }
    if s.marchArmed u then s1.fireInject (unitOf u) (readKind u + 2) fun x => x.marchFail u
    else if pass then s1
    else s1.marchFail u

def execMarchTestDone (u : DramUnit) (pass : Bool) (s : State) : Host.Outcome State Fault Refusal :=
  .next (s.marchDone u pass).onward

end Sys2Proof.Machine
end

