-- ==== Sys2Proof/Machine/Dispatch.lean ====
section
/-! DEFINITION. The commands of the T9: one arm per constructor of Instr. -/

namespace Sys2Proof.Machine

/-- A command's effect on everything but the queue. -/
def exec (i : Instr) (s : State) : Host.Outcome State Fault Refusal :=
  match i with
  | .memRd p l tag hpa => Sys2Proof.Machine.execMemRd p l tag hpa s
  | .memWr p l tag hpa data poison => Sys2Proof.Machine.execMemWr p l tag hpa data poison s
  | .memWrPtl p l tag hpa data mask poison => Sys2Proof.Machine.execMemWrPtl p l tag hpa data mask poison s
  | .memSpecRd p l tag hpa => Sys2Proof.Machine.execMemSpecRd p l tag hpa s
  | .memInv p l tag hpa => Sys2Proof.Machine.execMemInv p l tag hpa s
  | .bar2Read p l tag off len => Sys2Proof.Machine.execBar2Read p l tag off len s
  | .bar2Write p l off data relaxed poison => Sys2Proof.Machine.execBar2Write p l off data relaxed poison s
  | .bar2AtomicOp p l tag off => Sys2Proof.Machine.execBar2AtomicOp p l tag off s
  | .bar0AccessOther p l write tag off width value => Sys2Proof.Machine.execBar0AccessOther p l write tag off width value s
  | .qtail p l q value => Sys2Proof.Machine.execQtail p l q value s
  | .qctrlEnable p l q enable => Sys2Proof.Machine.execQctrlEnable p l q enable s
  | .descriptorRead p q => Sys2Proof.Machine.execDescriptorRead p q s
  | .attend job => Sys2Proof.Machine.execAttend job s
  | .gatherAttend job => Sys2Proof.Machine.execGatherAttend job s
  | .gatherAttendResume job => Sys2Proof.Machine.execGatherAttendResume job s
  | .sealRange job => Sys2Proof.Machine.execSealRange job s
  | .prefetch job => Sys2Proof.Machine.execPrefetch job s
  | .copyInRaw job => Sys2Proof.Machine.execCopyInRaw job s
  | .copyInImage job => Sys2Proof.Machine.execCopyInImage job s
  | .copyOutRaw job => Sys2Proof.Machine.execCopyOutRaw job s
  | .copyOutImage job => Sys2Proof.Machine.execCopyOutImage job s
  | .baton job => Sys2Proof.Machine.execBaton job s
  | .catchPass job => Sys2Proof.Machine.execCatchPass job s
  | .batonTimeout job => Sys2Proof.Machine.execBatonTimeout job s
  | .batonSwap token => Sys2Proof.Machine.execBatonSwap token s
  | .codebookBuild job => Sys2Proof.Machine.execCodebookBuild job s
  | .fence job => Sys2Proof.Machine.execFence job s
  | .legDispatch => Sys2Proof.Machine.execLegDispatch s
  | .legNearWait leg => Sys2Proof.Machine.execLegNearWait leg s
  | .legComplete leg => Sys2Proof.Machine.execLegComplete leg s
  | .strideEngineFailure e => Sys2Proof.Machine.execStrideEngineFailure e s
  | .finishStoreParity job head => Sys2Proof.Machine.execFinishStoreParity job head s
  | .atsTranslationCompletion p l addr size r w => Sys2Proof.Machine.execAtsTranslationCompletion p l addr size r w s
  | .dmaReadCompletion p l id status data => Sys2Proof.Machine.execDmaReadCompletion p l id status data s
  | .dmaCompletionTimeout p l id => Sys2Proof.Machine.execDmaCompletionTimeout p l id s
  | .invalidationRequest p l tag addr size => Sys2Proof.Machine.execInvalidationRequest p l tag addr size s
  | .invalidationCompletion p l tag => Sys2Proof.Machine.execInvalidationCompletion p l tag s
  | .configWrite p l off value => Sys2Proof.Machine.execConfigWrite p l off value s
  | .atsEnableClear p l => Sys2Proof.Machine.execAtsEnableClear p l s
  | .msixUnmask p l vec => Sys2Proof.Machine.execMsixUnmask p l vec s
  | .msixEnableClear p l => Sys2Proof.Machine.execMsixEnableClear p l s
  | .functionLevelReset p l => Sys2Proof.Machine.execFunctionLevelReset p l s
  | .hotReset p l => Sys2Proof.Machine.execHotReset p l s
  | .perstAssert p => Sys2Proof.Machine.execPerstAssert p s
  | .perstRelease p => Sys2Proof.Machine.execPerstRelease p s
  | .d3hotEntry p l => Sys2Proof.Machine.execD3hotEntry p l s
  | .d0Return p l => Sys2Proof.Machine.execD0Return p l s
  | .pmeTurnOff p l => Sys2Proof.Machine.execPmeTurnOff p l s
  | .linkUp p l hostSpeed hostWidth partnerFlit ask68 => Sys2Proof.Machine.execLinkUp p l hostSpeed hostWidth partnerFlit ask68 s
  | .linkLoss p l => Sys2Proof.Machine.execLinkLoss p l s
  | .fatalAerError p l => Sys2Proof.Machine.execFatalAerError p l s
  | .ioDieInternalError p => Sys2Proof.Machine.execIoDieInternalError p s
  | .portDrained p => Sys2Proof.Machine.execPortDrained p s
  | .portRelease p via => Sys2Proof.Machine.execPortRelease p via s
  | .l1IdleExpiry p l => Sys2Proof.Machine.execL1IdleExpiry p l s
  | .l1Exit p l => Sys2Proof.Machine.execL1Exit p l s
  | .l0pNarrow p => Sys2Proof.Machine.execL0pNarrow p s
  | .l0pWiden p => Sys2Proof.Machine.execL0pWiden p s
  | .l0pHostRequest p width => Sys2Proof.Machine.execL0pHostRequest p width s
  | .hdmDecoderCommit p l d base size ways gran skip pos commit => Sys2Proof.Machine.execHdmDecoderCommit p l d base size ways gran skip pos commit s
  | .identifyMemoryDevice p l => Sys2Proof.Machine.execIdentifyMemoryDevice p l s
  | .getPoisonList p l => Sys2Proof.Machine.execGetPoisonList p l s
  | .clearPoison p l dpa => Sys2Proof.Machine.execClearPoison p l dpa s
  | .unsupportedMailboxCommand p l opcode => Sys2Proof.Machine.execUnsupportedMailboxCommand p l opcode s
  | .dictRead p l payload => Sys2Proof.Machine.execDictRead p l payload s
  | .dictWrite p l payload => Sys2Proof.Machine.execDictWrite p l payload s
  | .dictReadBlock p l payload => Sys2Proof.Machine.execDictReadBlock p l payload s
  | .dictWriteBlock p l payload => Sys2Proof.Machine.execDictWriteBlock p l payload s
  | .dictReadStaged p l payload => Sys2Proof.Machine.execDictReadStaged p l payload s
  | .dictCommit p l payload => Sys2Proof.Machine.execDictCommit p l payload s
  | .dictDiscard p l payload => Sys2Proof.Machine.execDictDiscard p l payload s
  | .dictContext p l payload => Sys2Proof.Machine.execDictContext p l payload s
  | .dictReservedOpcode p l opcode => Sys2Proof.Machine.execDictReservedOpcode p l opcode s
  | .read f => Sys2Proof.Machine.execRead f s
  | .write f => Sys2Proof.Machine.execWrite f s
  | .readBlock f => Sys2Proof.Machine.execReadBlock f s
  | .writeBlock f => Sys2Proof.Machine.execWriteBlock f s
  | .readStaged f => Sys2Proof.Machine.execReadStaged f s
  | .commit f => Sys2Proof.Machine.execCommit f s
  | .discard f => Sys2Proof.Machine.execDiscard f s
  | .wake f => Sys2Proof.Machine.execWake f s
  | .discover f => Sys2Proof.Machine.execDiscover f s
  | .discoverReplyDelay => Sys2Proof.Machine.execDiscoverReplyDelay s
  | .sessionOpen f => Sys2Proof.Machine.execSessionOpen f s
  | .sessionClose f => Sys2Proof.Machine.execSessionClose f s
  | .neighborSolicitation src target => Sys2Proof.Machine.execNeighborSolicitation src target s
  | .echoRequest src payload => Sys2Proof.Machine.execEchoRequest src payload s
  | .fieldLinkUp duplicate => Sys2Proof.Machine.execFieldLinkUp duplicate s
  | .sessionIdleExpiry id => Sys2Proof.Machine.execSessionIdleExpiry id s
  | .stageTimeoutExpiry d group => Sys2Proof.Machine.execStageTimeoutExpiry d group s
  | .wonceWrite d index sub value => Sys2Proof.Machine.execWonceWrite d index sub value s
  | .wonceStoreDone index sub => Sys2Proof.Machine.execWonceStoreDone index sub s
  | .dictObjectWrite d index sub value => Sys2Proof.Machine.execDictObjectWrite d index sub value s
  | .persistStoreStart => Sys2Proof.Machine.execPersistStoreStart s
  | .persistStoreDone => Sys2Proof.Machine.execPersistStoreDone s
  | .persistSync d value => Sys2Proof.Machine.execPersistSync d value s
  | .extentRelease d handle => Sys2Proof.Machine.execExtentRelease d handle s
  | .extentReleaseDone handle => Sys2Proof.Machine.execExtentReleaseDone handle s
  | .provisionRatio d value => Sys2Proof.Machine.execProvisionRatio d value s
  | .provisionSettleMove lpn => Sys2Proof.Machine.execProvisionSettleMove lpn s
  | .vaultKey d region key => Sys2Proof.Machine.execVaultKey d region key s
  | .cbRetire d region slot => Sys2Proof.Machine.execCbRetire d region slot s
  | .versionRetired region slot => Sys2Proof.Machine.execVersionRetired region slot s
  | .runRequestPause d => Sys2Proof.Machine.execRunRequestPause d s
  | .runRequestPauseForced d => Sys2Proof.Machine.execRunRequestPauseForced d s
  | .runRequestGo d => Sys2Proof.Machine.execRunRequestGo d s
  | .softResetCore d core => Sys2Proof.Machine.execSoftResetCore d core s
  | .softResetPort d p => Sys2Proof.Machine.execSoftResetPort d p s
  | .softResetDevice d => Sys2Proof.Machine.execSoftResetDevice d s
  | .softResetDeviceForced d => Sys2Proof.Machine.execSoftResetDeviceForced d s
  | .evtAck d value => Sys2Proof.Machine.execEvtAck d value s
  | .telemetryClear d value => Sys2Proof.Machine.execTelemetryClear d value s
  | .bibMonClear d b value => Sys2Proof.Machine.execBibMonClear d b value s
  | .probePage d lpn => Sys2Proof.Machine.execProbePage d lpn s
  | .probeWindow d value => Sys2Proof.Machine.execProbeWindow d value s
  | .sessionKey d slot key => Sys2Proof.Machine.execSessionKey d slot key s
  | .infieldTrust d value => Sys2Proof.Machine.execInfieldTrust d value s
  | .azmorUpdate d image => Sys2Proof.Machine.execAzmorUpdate d image s
  | .policyImage d image => Sys2Proof.Machine.execPolicyImage d image s
  | .policyEnable d value => Sys2Proof.Machine.execPolicyEnable d value s
  | .lapRun d engine => Sys2Proof.Machine.execLapRun d engine s
  | .trackUnlock d value => Sys2Proof.Machine.execTrackUnlock d value s
  | .trackLock d value => Sys2Proof.Machine.execTrackLock d value s
  | .trackGroup d value => Sys2Proof.Machine.execTrackGroup d value s
  | .injectArm d value => Sys2Proof.Machine.execInjectArm d value s
  | .chanMapOut d c value => Sys2Proof.Machine.execChanMapOut d c value s
  | .stackPcMapOut d st pc => Sys2Proof.Machine.execStackPcMapOut d st pc s
  | .chanSrPolicy d c value => Sys2Proof.Machine.execChanSrPolicy d c value s
  | .regionBib d region b => Sys2Proof.Machine.execRegionBib d region b s
  | .windowLog2 d p value => Sys2Proof.Machine.execWindowLog2 d p value s
  | .trnRun d c value => Sys2Proof.Machine.execTrnRun d c value s
  | .trnSweepDone c errors passMap => Sys2Proof.Machine.execTrnSweepDone c errors passMap s
  | .itemStart e => Sys2Proof.Machine.execItemStart e s
  | .expandDone item => Sys2Proof.Machine.execExpandDone item s
  | .xtsDone item => Sys2Proof.Machine.execXtsDone item s
  | .bypassDone item => Sys2Proof.Machine.execBypassDone item s
  | .unsealDone item => Sys2Proof.Machine.execUnsealDone item s
  | .sealClose move => Sys2Proof.Machine.execSealClose move s
  | .sealCloseLimit move => Sys2Proof.Machine.execSealCloseLimit move s
  | .sealIdleTimer lpn => Sys2Proof.Machine.execSealIdleTimer lpn s
  | .moveSwitch move => Sys2Proof.Machine.execMoveSwitch move s
  | .spaceFreed ticket => Sys2Proof.Machine.execSpaceFreed ticket s
  | .buildDone item => Sys2Proof.Machine.execBuildDone item s
  | .relayEngineFailure e => Sys2Proof.Machine.execRelayEngineFailure e s
  | .lastRelayEngineFailure e => Sys2Proof.Machine.execLastRelayEngineFailure e s
  | .promoteSlotWait req => Sys2Proof.Machine.execPromoteSlotWait req s
  | .slotCreditGrant req => Sys2Proof.Machine.execSlotCreditGrant req s
  | .backingTimeout req => Sys2Proof.Machine.execBackingTimeout req s
  | .demotionChoice lpns => Sys2Proof.Machine.execDemotionChoice lpns s
  | .slotReclaim lpn => Sys2Proof.Machine.execSlotReclaim lpn s
  | .counterEpoch => Sys2Proof.Machine.execCounterEpoch s
  | .rebuildRequest region => Sys2Proof.Machine.execRebuildRequest region s
  | .policyHookCall hook lpns base => Sys2Proof.Machine.execPolicyHookCall hook lpns base s
  | .policyHookReply value => Sys2Proof.Machine.execPolicyHookReply value s
  | .policyHookDeadline => Sys2Proof.Machine.execPolicyHookDeadline s
  | .pacerIdleDecay b leg => Sys2Proof.Machine.execPacerIdleDecay b leg s
  | .urgChange p value => Sys2Proof.Machine.execUrgChange p value s
  | .urgSlice => Sys2Proof.Machine.execUrgSlice s
  | .refresh c => Sys2Proof.Machine.execRefresh c s
  | .thermalPoll temps => Sys2Proof.Machine.execThermalPoll temps s
  | .srIdleEntry c => Sys2Proof.Machine.execSrIdleEntry c s
  | .srExitDone c => Sys2Proof.Machine.execSrExitDone c s
  | .dramBurstDone u legal rowHits ecc => Sys2Proof.Machine.execDramBurstDone u legal rowHits ecc s
  | .patrolScrub u place => Sys2Proof.Machine.execPatrolScrub u place s
  | .backgroundFill c => Sys2Proof.Machine.execBackgroundFill c s
  | .channelUnresponsive c retrain => Sys2Proof.Machine.execChannelUnresponsive c retrain s
  | .evacuationDrained c => Sys2Proof.Machine.execEvacuationDrained c s
  | .pseudoChannelFailure st pc reason readable => Sys2Proof.Machine.execPseudoChannelFailure st pc reason readable s
  | .pseudoChannelDrained st pc => Sys2Proof.Machine.execPseudoChannelDrained st pc s
  | .sprintRefresh st pc => Sys2Proof.Machine.execSprintRefresh st pc s
  | .stackTempChange st temp => Sys2Proof.Machine.execStackTempChange st temp s
  | .marchTestStart u => Sys2Proof.Machine.execMarchTestStart u s
  | .marchTestDone u pass => Sys2Proof.Machine.execMarchTestDone u pass s
  | .lapDue => Sys2Proof.Machine.execLapDue s
  | .lapAgeForced e => Sys2Proof.Machine.execLapAgeForced e s
  | .lapDrained => Sys2Proof.Machine.execLapDrained s
  | .lapDrainTimeout => Sys2Proof.Machine.execLapDrainTimeout s
  | .lapDone pass => Sys2Proof.Machine.execLapDone pass s
  | .readmissionLap e pass => Sys2Proof.Machine.execReadmissionLap e pass s
  | .callw n offset => Sys2Proof.Machine.execCallw n offset s
  | .retw n => Sys2Proof.Machine.execRetw n s
  | .trap n number => Sys2Proof.Machine.execTrap n number s
  | .savectx n mask => Sys2Proof.Machine.execSavectx n mask s
  | .loadctx n mask => Sys2Proof.Machine.execLoadctx n mask s
  | .dropctx n => Sys2Proof.Machine.execDropctx n s
  | .reti n => Sys2Proof.Machine.execReti n s
  | .cutw n reg => Sys2Proof.Machine.execCutw n reg s
  | .halt n => Sys2Proof.Machine.execHalt n s
  | .tallyInstruction n => Sys2Proof.Machine.execTallyInstruction n s
  | .csrAccess n csr write reg => Sys2Proof.Machine.execCsrAccess n csr write reg s
  | .illegalInstruction n => Sys2Proof.Machine.execIllegalInstruction n s
  | .interruptEntry n line => Sys2Proof.Machine.execInterruptEntry n line s
  | .spill n => Sys2Proof.Machine.execSpill n s
  | .spillDone n => Sys2Proof.Machine.execSpillDone n s
  | .fillDone n uncorrectable => Sys2Proof.Machine.execFillDone n uncorrectable s
  | .coreWatchdog n => Sys2Proof.Machine.execCoreWatchdog n s
  | .coreRestart n => Sys2Proof.Machine.execCoreRestart n s
  | .trackPowerOn => Sys2Proof.Machine.execTrackPowerOn s
  | .trackPowerLoss => Sys2Proof.Machine.execTrackPowerLoss s
  | .sysRstAssert => Sys2Proof.Machine.execSysRstAssert s
  | .sysRstRelease node bankOk otherBankOk flashFound crcA crcB => Sys2Proof.Machine.execSysRstRelease node bankOk otherBankOk flashFound crcA crcB s
  | .trainingDone chans => Sys2Proof.Machine.execTrainingDone chans s
  | .fieldPgRise => Sys2Proof.Machine.execFieldPgRise s
  | .fieldPgTimeout => Sys2Proof.Machine.execFieldPgTimeout s
  | .fieldPgFall => Sys2Proof.Machine.execFieldPgFall s
  | .sprintInitDone pcBad perst => Sys2Proof.Machine.execSprintInitDone pcBad perst s
  | .pauseDemotionsDone => Sys2Proof.Machine.execPauseDemotionsDone s
  | .pllLockLoss hub => Sys2Proof.Machine.execPllLockLoss hub s
  | .ddrPllLockLoss q => Sys2Proof.Machine.execDdrPllLockLoss q s
  | .dieSensorPoll hub io => Sys2Proof.Machine.execDieSensorPoll hub io s
  | .throttleInterval peak avgPower trackPower => Sys2Proof.Machine.execThrottleInterval peak avgPower trackPower s
  | .thermtrip => Sys2Proof.Machine.execThermtrip s
  | .debugEnFall => Sys2Proof.Machine.execDebugEnFall s
  | .tapReset => Sys2Proof.Machine.execTapReset s
  | .legReachesPage leg => Sys2Proof.Machine.execLegReachesPage leg s
  | .wrongPathFetch n inRegion fills => Sys2Proof.Machine.execWrongPathFetch n inRegion fills s
  | .loadStore n store addr width reg => Sys2Proof.Machine.execLoadStore n store addr width reg s
  | .tckCycle tms tdi => Sys2Proof.Machine.execTckCycle tms tdi s
  | .debugEnRise => Sys2Proof.Machine.execDebugEnRise s
  | .azmorImageStored => Sys2Proof.Machine.execAzmorImageStored s
  | .policyImageStored => Sys2Proof.Machine.execPolicyImageStored s

end Sys2Proof.Machine
end

