-- ==== Sys2Proof/Safety.lean ====
section
/-! DEFINITION. What a safe run is: no command of it stops the machine, and the machine's data keep their form. -/

namespace Sys2Proof

/-- A step that goes on. -/
def Goes (s : Machine.State) : Prop := ∃ t, Machine.step s = .next t

/-- A run of n steps that goes on at every step. -/
def SafeRun (n : Nat) (s : Machine.State) : Prop := ∃ t, core.run n s = .next t

/-- The data of a coach core keep their form: its memories are canonical, it has 8 globals and 12 windows of 16 registers, and the
newest window is one of the 11 of the ring (R238, section 11.2). -/
structure CoreForm (c : Machine.Core) : Prop where
  sram : c.sram.wf = true
  scratch : c.scratch.wf = true
  policySram : c.policySram.wf = true
  globals : c.g.length = 8
  windows : c.win.length = 192
  top : c.top ≤ 10

/-- The event ring: EVT_NEXT and EVT_OLDEST are 32-bit sequence numbers, the ring holds the records between them, at most EVT_DEPTH
of them, and each record carries its own number (R227). -/
structure RingForm (e : Machine.EvSt) : Prop where
  next : e.next < 2 ^ 32
  oldest : e.oldest < 2 ^ 32
  depth : e.ring.length ≤ 1024
  count : (e.oldest + e.ring.length) % 2 ^ 32 = e.next
  seqs : ∀ i r, e.ring[i]? = some r → r.seq = (e.oldest + i) % 2 ^ 32

/-- Keys rise strictly: each has one entry. -/
def Rises {α : Type} (m : List (Nat × α)) : Prop := m.Pairwise fun a b => a.1 < b.1

/-- The tables of object values, the active one and those of the two flash copies, hold one value for an object (R194, R203). -/
structure TableForm (d : Machine.DictSt) : Prop where
  nums : Rises d.nums
  blobs : Rises d.blobs
  numsA : Rises d.flashA.nums
  blobsA : Rises d.flashA.blobs
  numsB : Rises d.flashB.nums
  blobsB : Rises d.flashB.blobs

/-- The data of the T9 keep their form: memories and maps are canonical, every unit of the part has its one record, the event ring
is whole, an object has one value, the run state is one of R261's and the throttle level one of R293's. -/
structure Form (s : Machine.State) : Prop where
  sprint : s.tier.sprint.wf = true
  dist : s.tier.dist.wf = true
  pages : Machine.mwf Machine.Page.zero s.map.pages = true
  windows : Machine.mwf Machine.WinEntry.zero s.map.windows = true
  uses : Machine.mwf Machine.PageUse.zero s.map.uses = true
  chans : s.tier.chans.length = 16
  ports : s.ports.length = 4
  bibs : s.bibs.length = 16
  relays : s.relay.engines.length = 16
  strides : s.stride.engines.length = 16
  cores : s.cores.length = 4 ∧ ∀ c ∈ s.cores, CoreForm c
  ring : RingForm s.ev
  table : TableForm s.dict
  runState : s.run.state ≤ 5
  throttle : s.run.throttle ≤ 6

end Sys2Proof
end

