-- ==== Sys2Proof/WellFormed.lean ====
section
/-! DEFINITION. Which operands a command can carry: the widths and ranges that the tables of the manual give them. A statement about a
command may assume them; exec is total and needs none of them. -/

namespace Sys2Proof

/-- Ports are 0-3 (R9), work queues 0-15 (R94), coach cores 0-3 (Table 11.1), engines 0-15 (R278), bibs 0-15 (R121). -/
def okPort (p : Nat) : Bool := decide (p < 4)
def okQueue (q : Nat) : Bool := decide (q < 16)
def okCore (n : Nat) : Bool := decide (n < 4)
def okEngine (e : Nat) : Bool := decide (e < 16)
def okBib (b : Nat) : Bool := decide (b < 16)

/-- Distance channels are 0-15 (R135); stacks 0-7 with 32 pseudo-channels (R157). -/
def okChan (c : Nat) : Bool := decide (c < 16)
def okPc (st pc : Nat) : Bool := decide (st < 8 ∧ pc < 32)
def okUnit : DramUnit → Bool
  | .dist c => okChan c
  | .pc st pc => okPc st pc

/-- A value of an object of so many bytes (Table 9.1). -/
def okNum (bytes v : Nat) : Bool := decide (v < 256 ^ bytes)

/-- Host extents and handles have 24 bits (Tables 2.2, 2.4), logical pages 29; regions are 0-63, codebook slots 0-15. -/
def okHandle (h : Nat) : Bool := decide (h < 2 ^ 24)
def okPage (lpn : Nat) : Bool := decide (lpn < 2 ^ 29)
def okSlot (region slot : Nat) : Bool := decide (region < 64 ∧ slot < 16)

/-- CXL.mem addresses: granules of a 52-bit address space (R173); tags of 16 bits. -/
def okMem (p tag hpa : Nat) : Bool := okPort p && okNum 2 tag && decide (hpa < 2 ^ 52 ∧ hpa % 64 = 0)

/-- A PCIe access of an aperture: an offset of 52 bits, a tag of 10 (Table 8.1). -/
def okPcie (p tag off : Nat) : Bool := okPort p && decide (tag < 2 ^ 10 ∧ off < 2 ^ 52)

/-- A door (R206): an IPv6 source, a session id other than 0, or a link of a port. -/
def okDoor : Door → Bool
  | .field src => decide (src < 2 ^ 128)
  | .session id => decide (0 < id ∧ id < 2 ^ 32)
  | .infield p _ => okPort p

/-- The field widths of a Welair frame (R209, Table 9.5); the datagram has at most 1452 bytes. -/
def okFrame (f : Frame) : Bool :=
  decide (f.src < 2 ^ 128 ∧ f.dst.length = 16) && okNum 2 f.srcPort && okNum 2 f.dstPort && okNum 2 f.magic && okNum 1 f.version && okNum 2 f.length && okNum 4 f.session && okNum 4 f.seq
    && okNum 2 f.index && okNum 1 f.sub && okNum 1 f.type && okNum 4 f.offset && decide (24 + f.body.length + f.tag.length ≤ 1452)

/-- A write of a number object of so many bytes through a door. -/
def okWrite (d : Door) (bytes v : Nat) : Bool := okDoor d && okNum bytes v

/-- An object by index and subindex. -/
def okObject (d : Door) (index sub : Nat) : Bool := okDoor d && okNum 2 index && okNum 1 sub

/-- What SPD and training say of a channel: 0 to 2 RDIMMs, 12 timing minima (R135, Table 7.6). -/
def okTrain (t : ChanTrain) : Bool :=
  decide (t.dimms.length ≤ 2 ∧ t.runs.length ≤ 3) && (t.dimms.all fun d => decide (d.times.length = 12 ∧ d.cycles.length = 12))
    && t.runs.all fun r => decide (r.eyes.length = 160)

/-- The operands of a command are in range. -/
def Instr.wf : Instr → Bool
  | .memRd p _ tag hpa => okMem p tag hpa
  | .memWr p _ tag hpa data _ => okMem p tag hpa && decide (data.length = 64)
  | .memWrPtl p _ tag hpa data _ _ => okMem p tag hpa && decide (data.length = 64)
  | .memSpecRd p _ tag hpa => okMem p tag hpa
  | .memInv p _ tag hpa => okMem p tag hpa
  | .bar2Read p _ tag off len => okPcie p tag off && decide (len ≤ 4096)
  | .bar2Write p _ off data _ _ => okPcie p 0 off && decide (1 ≤ data.length ∧ data.length ≤ 512)
  | .bar2AtomicOp p _ tag off => okPcie p tag off
  | .bar0AccessOther p _ _ tag off width value => okPcie p tag off && okNum width value
  | .qtail p _ q value => okPort p && okQueue q && okNum 4 value
  | .qctrlEnable p _ q _ => okPort p && okQueue q
  | .descriptorRead p q => okPort p && okQueue q
  | .attend _ => true
  | .gatherAttend _ => true
  | .gatherAttendResume _ => true
  | .sealRange _ => true
  | .prefetch _ => true
  | .copyInRaw _ => true
  | .copyInImage _ => true
  | .copyOutRaw _ => true
  | .copyOutImage _ => true
  | .baton _ => true
  | .catchPass _ => true
  | .batonTimeout _ => true
  | .batonSwap token => okNum 8 token
  | .codebookBuild _ => true
  | .fence _ => true
  | .legDispatch => true
  | .legNearWait _ => true
  | .legComplete _ => true
  | .strideEngineFailure e => okEngine e
  | .finishStoreParity _ _ => true
  | .atsTranslationCompletion p _ addr size _ _ => okPort p && okNum 8 addr && okNum 8 size
  | .dmaReadCompletion p _ _ _ data => okPort p && decide (data.length ≤ 4096)
  | .dmaCompletionTimeout p _ _ => okPort p
  | .invalidationRequest p _ tag addr size => okPort p && okNum 1 tag && okNum 8 addr && okNum 8 size
  | .invalidationCompletion p _ tag => okPort p && okNum 1 tag
  | .configWrite p _ off value => okPort p && decide (off < 4096 ∧ off % 4 = 0) && okNum 4 value
  | .atsEnableClear p _ => okPort p
  | .msixUnmask p _ vec => okPort p && decide (vec < 64)
  | .msixEnableClear p _ => okPort p
  | .functionLevelReset p _ => okPort p
  | .hotReset p _ => okPort p
  | .perstAssert p => okPort p
  | .perstRelease p => okPort p
  | .d3hotEntry p _ => okPort p
  | .d0Return p _ => okPort p
  | .pmeTurnOff p _ => okPort p
  | .linkUp p _ speed width _ _ => okPort p && decide (speed ≤ 5) && ([1, 2, 4, 8, 16] : List Nat).contains width
  | .linkLoss p _ => okPort p
  | .fatalAerError p _ => okPort p
  | .ioDieInternalError p => okPort p
  | .portDrained p => okPort p
  | .portRelease p via => okPort p && (match via with | some d => okDoor d | none => true)
  | .l1IdleExpiry p _ => okPort p
  | .l1Exit p _ => okPort p
  | .l0pNarrow p => okPort p
  | .l0pWiden p => okPort p
  | .l0pHostRequest p width => okPort p && (width == 8 || width == 16)
  | .hdmDecoderCommit p _ d base size ways gran skip pos _ =>
    okPort p && decide (d < 2 ∧ ways ≤ 16 ∧ gran ≤ 16384 ∧ pos < 16) && okNum 8 base && okNum 8 size && okNum 8 skip
  | .identifyMemoryDevice p _ => okPort p
  | .getPoisonList p _ => okPort p
  | .clearPoison p _ dpa => okPort p && okNum 8 dpa
  | .unsupportedMailboxCommand p _ opcode => okPort p && okNum 2 opcode
  | .dictRead p _ payload => okPort p && decide (payload.length ≤ 8204)
  | .dictWrite p _ payload => okPort p && decide (payload.length ≤ 8204)
  | .dictReadBlock p _ payload => okPort p && decide (payload.length ≤ 8204)
  | .dictWriteBlock p _ payload => okPort p && decide (payload.length ≤ 8204)
  | .dictReadStaged p _ payload => okPort p && decide (payload.length ≤ 8204)
  | .dictCommit p _ payload => okPort p && decide (payload.length ≤ 8204)
  | .dictDiscard p _ payload => okPort p && decide (payload.length ≤ 8204)
  | .dictContext p _ payload => okPort p && decide (payload.length ≤ 8204)
  | .dictReservedOpcode p _ opcode => okPort p && decide (0xC008 ≤ opcode ∧ opcode ≤ 0xC00F)
  | .read f => okFrame f
  | .write f => okFrame f
  | .readBlock f => okFrame f
  | .writeBlock f => okFrame f
  | .readStaged f => okFrame f
  | .commit f => okFrame f
  | .discard f => okFrame f
  | .wake f => okFrame f
  | .discover f => okFrame f
  | .discoverReplyDelay => true
  | .sessionOpen f => okFrame f
  | .sessionClose f => okFrame f
  | .neighborSolicitation src target => decide (src < 2 ^ 128 ∧ target.length = 16)
  | .echoRequest src payload => decide (src < 2 ^ 128 ∧ payload.length ≤ 1452)
  | .fieldLinkUp _ => true
  | .sessionIdleExpiry id => decide (0 < id ∧ id < 2 ^ 32)
  | .stageTimeoutExpiry d group => okDoor d && (match group with | some g => okNum 2 g | none => true)
  | .wonceWrite d index sub value => okObject d index sub && decide (value.length ≤ 1024)
  | .wonceStoreDone index sub => okNum 2 index && okNum 1 sub
  | .dictObjectWrite d index sub value => okObject d index sub && decide (value.length ≤ 8192)
  | .persistStoreStart => true
  | .persistStoreDone => true
  | .persistSync d value => okWrite d 1 value
  | .extentRelease d handle => okWrite d 4 handle
  | .extentReleaseDone handle => okHandle handle
  | .provisionRatio d value => okWrite d 2 value
  | .provisionSettleMove lpn => okPage lpn
  | .vaultKey d region key => okDoor d && decide (region < 64 ∧ key.length = 64)
  | .cbRetire d region slot => okWrite d 1 slot && decide (region < 64)
  | .versionRetired region slot => okSlot region slot
  | .runRequestPause d => okDoor d
  | .runRequestPauseForced d => okDoor d
  | .runRequestGo d => okDoor d
  | .softResetCore d core => okDoor d && decide (core < 16)
  | .softResetPort d p => okDoor d && decide (p < 16)
  | .softResetDevice d => okDoor d
  | .softResetDeviceForced d => okDoor d
  | .evtAck d value => okWrite d 4 value
  | .telemetryClear d value => okWrite d 1 value
  | .bibMonClear d b value => okWrite d 1 value && okBib b
  | .probePage d lpn => okWrite d 4 lpn
  | .probeWindow d value => okWrite d 4 value
  | .sessionKey d slot key => okDoor d && decide (slot < 4 ∧ key.length = 32)
  | .infieldTrust d value => okWrite d 1 value
  | .azmorUpdate d image => okDoor d && decide (image.length ≤ 8388608)
  | .policyImage d image => okDoor d && decide (image.length ≤ 262144)
  | .policyEnable d value => okWrite d 1 value
  | .lapRun d engine => okWrite d 1 engine
  | .trackUnlock d value => okDoor d && decide (value.length = 16)
  | .trackLock d value => okWrite d 1 value
  | .trackGroup d value => okWrite d 1 value
  | .injectArm d value => okWrite d 1 value
  | .chanMapOut d c value => okWrite d 1 value && okChan c
  | .stackPcMapOut d st pc => okWrite d 1 pc && decide (st < 8)
  | .chanSrPolicy d c value => okWrite d 1 value && okChan c
  | .regionBib d region b => okWrite d 1 b && decide (region < 64)
  | .windowLog2 d p value => okWrite d 1 value && okPort p
  | .trnRun d c value => okWrite d 1 value && okChan c
  | .trnSweepDone c errors passMap => okChan c && decide (errors.length ≤ 160 ∧ passMap.length ≤ 2560)
  | .itemStart e => okEngine e
  | .expandDone _ => true
  | .xtsDone _ => true
  | .bypassDone _ => true
  | .unsealDone _ => true
  | .sealClose _ => true
  | .sealCloseLimit _ => true
  | .sealIdleTimer lpn => okPage lpn
  | .moveSwitch _ => true
  | .spaceFreed _ => true
  | .buildDone _ => true
  | .relayEngineFailure e => okEngine e
  | .lastRelayEngineFailure e => okEngine e
  | .promoteSlotWait _ => true
  | .slotCreditGrant _ => true
  | .backingTimeout _ => true
  | .demotionChoice lpns => decide (lpns.length ≤ 512) && lpns.all okPage
  | .slotReclaim lpn => okPage lpn
  | .counterEpoch => true
  | .rebuildRequest region => decide (region < 64)
  | .policyHookCall hook lpns base =>
    decide (hook ≤ 4 ∧ lpns.length ≤ 512 ∧ 0x00400000 ≤ base ∧ base < 0x00480000) && lpns.all okPage
  | .policyHookReply value => okNum 4 value
  | .policyHookDeadline => true
  | .pacerIdleDecay b _ => okBib b
  | .urgChange p value => okPort p && decide (value < 4)
  | .urgSlice => true
  | .refresh c => okChan c
  | .thermalPoll temps => decide (temps.length = 16)
  | .srIdleEntry c => okChan c
  | .srExitDone c => okChan c
  | .dramBurstDone u _ _ _ => okUnit u
  | .patrolScrub u place => okUnit u && decide (place < 2 ^ 40)
  | .backgroundFill c => okChan c
  | .channelUnresponsive c _ => okChan c
  | .evacuationDrained c => okChan c
  | .pseudoChannelFailure st pc reason _ => okPc st pc && okNum 1 reason
  | .pseudoChannelDrained st pc => okPc st pc
  | .sprintRefresh st pc => okPc st pc
  | .stackTempChange st temp => decide (st < 8 ∧ -32768 ≤ temp ∧ temp < 32768)
  | .marchTestStart u => okUnit u
  | .marchTestDone u _ => okUnit u
  | .lapDue => true
  | .lapAgeForced e => decide (e < 32)
  | .lapDrained => true
  | .lapDrainTimeout => true
  | .lapDone _ => true
  | .readmissionLap e _ => decide (e < 32)
  | .callw n _ => okCore n
  | .retw n => okCore n
  | .trap n number => okCore n && okNum 1 number
  | .savectx n _ => okCore n
  | .loadctx n _ => okCore n
  | .dropctx n => okCore n
  | .reti n => okCore n
  | .cutw n reg => okCore n && decide (reg < 32)
  | .halt n => okCore n
  | .tallyInstruction n => okCore n
  | .csrAccess n csr _ reg => okCore n && decide (csr < 4096 ∧ reg < 32)
  | .illegalInstruction n => okCore n
  | .interruptEntry n line => okCore n && decide (line < 32)
  | .spill n => okCore n
  | .spillDone n => okCore n
  | .fillDone n _ => okCore n
  | .coreWatchdog n => okCore n
  | .coreRestart n => okCore n && decide (1 ≤ n)
  | .trackPowerOn => true
  | .trackPowerLoss => true
  | .sysRstAssert => true
  | .sysRstRelease _ _ _ _ _ _ => true
  | .trainingDone chans => decide (chans.length = 16) && chans.all okTrain
  | .fieldPgRise => true
  | .fieldPgTimeout => true
  | .fieldPgFall => true
  | .sprintInitDone pcBad _ => pcBad.all fun x => okPc x.1 x.2
  | .pauseDemotionsDone => true
  | .pllLockLoss _ => true
  | .ddrPllLockLoss q => decide (q < 4)
  | .dieSensorPoll hub io => decide (hub.length = 4 ∧ io.length = 4)
  | .throttleInterval _ avg trk => okNum 4 avg && okNum 4 trk
  | .thermtrip => true
  | .debugEnFall => true
  | .tapReset => true
  | .legReachesPage _ => true
  | .wrongPathFetch n _ _ => okCore n
  | .loadStore n _ addr width reg => okCore n && okNum 4 addr && (width == 1 || width == 2 || width == 4) && decide (reg < 32)
  | .tckCycle _ _ => true
  | .debugEnRise => true
  | .azmorImageStored => true
  | .policyImageStored => true

end Sys2Proof
end

