-- ==== Sys2Proof/Certificates/Slice0/Obligations.lean ====
section
/-! DEFINITION. The statements for the provers. `Form` (Sys2Proof/Safety.lean) is the invariant of the model's data; a statement that
assumes it rests on StepKeepsForm and ResetHasForm. In an equation `exec c s = .next t.onward`, t is the state right after the command's
own effect, and `onward` lets waiting work go on (log entry 24). -/

open Sys2Proof Sys2Proof.Machine

/-! ### The machine as a whole -/

/-- The command at the front of the queue runs on the state with the queue's rest. -/
def Obligations.StepRunsTheFrontCommand : Prop :=
  ∀ (s : State) (c : Instr) (q : List Instr), s.pending = c :: q → step s = exec c { s with pending := q }

/-- On an empty queue one nanosecond passes and nothing else changes (DESIGN CHOICE, log entry 1). -/
def Obligations.EmptyQueueLetsTimePass : Prop :=
  ∀ s : State, s.pending = [] → step s = .next { s with now := s.now + 1 }

/-- Every command goes on from every state, so every run is safe: the manual describes every error as an outcome that the T9 reports
and goes on from. -/
def Obligations.EveryRunIsSafe : Prop := ∀ (n : Nat) (s : State), SafeRun n s

/-- Every step keeps the form of the data: memories and maps canonical, one record for every unit, the coach cores' windows and memories
whole, the event ring a run of consecutive numbers of at most EVT_DEPTH records, one of the run states, a throttle level up to 6. -/
def Obligations.StepKeepsForm : Prop := ∀ s t : State, Form s → step s = .next t → Form t

/-- The data have their form after reset. -/
def Obligations.ResetHasForm : Prop := Form State.reset

/-- No command touches the queue or the clock, and what has left the pins stays: outputs are only appended. -/
def Obligations.CommandsOnlyAppendOutputs : Prop :=
  ∀ (c : Instr) (s t : State), exec c s = .next t → t.pending = s.pending ∧ t.now = s.now ∧ s.out <+: t.out

/-- No command changes the identity of the part. -/
def Obligations.IdentityNeverChanges : Prop :=
  ∀ (c : Instr) (s t : State), exec c s = .next t →
    t.part.variant = s.part.variant ∧ t.part.stepping = s.part.stepping ∧ t.part.serial = s.part.serial ∧
    t.part.mac = s.part.mac ∧ t.part.mfgDate = s.part.mfgDate ∧ t.part.azmorSigner = s.part.azmorSigner

/-- Write-once values that are stored stay, in their order, through every command, so that the value of an object never changes. -/
def Obligations.WriteOnceValuesStay : Prop :=
  (∀ (c : Instr) (s t : State), exec c s = .next t → s.dict.wonce <+: t.dict.wonce) ∧
  (∀ (c : Instr) (s t : State) (k : Nat) (v : List Byte), exec c s = .next t →
    (s.dict.wonce.find? fun x => x.1 == k) = some (k, v) → (t.dict.wonce.find? fun x => x.1 == k) = some (k, v))

/-- The state after reset, as far as the manual states it: MARKS; no page allocated and no window slot mapped; no engine fenced; no
port frozen; every work queue disabled with the smallest ring and every bib allowed; every MSI-X vector masked; the TAP in
Test-Logic-Reset with IDCODE; every object at its default; an empty event ring; throttle level 0. -/
def Obligations.ResetValues : Prop :=
  State.reset.run.state = 0 ∧ State.reset.pending = [] ∧
  (∀ lpn, (State.reset.page lpn).st = 0) ∧ (∀ p e, (State.reset.win p e).valid = false) ∧
  (∀ e, (nth State.reset.relay.engines Engine.init e).fenced = false ∧ (nth State.reset.stride.engines Engine.init e).fenced = false) ∧
  (∀ p, (State.reset.port p).frozen = false) ∧
  (∀ p q, (State.reset.queue p q).enable = false ∧ (State.reset.queue p q).size = 6 ∧ (State.reset.queue p q).bibMask = 0xFFFF) ∧
  (∀ p l v, (nth (State.reset.link p l).msix ⟨0, 0, true, false⟩ v).masked = true) ∧
  State.reset.test.tap.st = .reset ∧ State.reset.test.tap.ir = 1 ∧
  (∀ i j, State.reset.num i j = dfltOf (okey i j)) ∧ State.reset.ev.ring = [] ∧ State.reset.run.throttle = 0

/-! ### Host accesses of memory -/

namespace Sys2Proof.Claims

/-- A request for n bytes of a block at a partition address, as it enters the device at a port. -/
def portReq (s : State) (write : Bool) (p : Nat) (l : LinkId) (src : ReqSrc) (a : PartAddr) (n : Nat) (data : List (Option Byte))
    (stage : Stage) (relaxed poison : Bool) : Req :=
  { id := s.nextId, write := write, port := p, link := l, src := src, bib := a.bib, hostExtent := a.extent, lpn := a.page,
    blk := a.block, off := a.off, len := n, data := data, arrival := s.now, entry := Page.zero, stage := stage, rdata := [],
    relaxed := relaxed, poison := poison, held := false }

/-- A state in which one more request has arrived. -/
def arrived (s : State) (r : Req) : State := { s with nextId := s.nextId + 1, reqs := s.reqs ++ [r] }

/-- A port in CXL mode whose link is open. -/
def cxlOpen (s : State) (p : Nat) (l : LinkId) : Prop :=
  s.linkOpen p l = true ∧ (s.port p).pcieOnly = false ∧ (s.port p).frozen = false

/-- A port in PCIe-only mode whose link is open and answers memory requests, n bytes from off lying in the aperture. -/
def pcieOpen (s : State) (p : Nat) (l : LinkId) (off n : Nat) : Prop :=
  s.linkOpen p l = true ∧ (s.port p).pcieOnly = true ∧ (s.port p).frozen = false ∧ s.barOpen p l = true ∧
  off + n ≤ 2 ^ (s.port p).bar2Log2

/-- The last thing that leaves the pins on the way from s to t (a report of a latency miss may leave before it). -/
def lastOut (s t : State) (o : Output) : Prop := ∃ q, s.out <+: q ∧ t.out = q ++ [o]

end Sys2Proof.Claims

open Sys2Proof.Claims

/-- MEM_RD, MEM_WR and MEM_WR_PTL: where a committed decoder maps the host address to a DPA, a request for the granule joins the
requests with the bib, host extent, page, block and byte of Table 2.1; a read asks for 64 bytes, a write carries its 64 bytes, and a
partial write those that its byte mask names. Only the link (out of L1), the requests and the next id change before waiting work goes
on. -/
def Obligations.CxlRequestsEnterWithTheirGranule : Prop :=
  ∀ (s : State) (p tag hpa d : Nat) (l : LinkId) (data : List Byte) (mask : BitVec 64) (poison : Bool),
    cxlOpen s p l → s.dpaOf p l hpa = some d →
    let a := decodePart (s.windowLog2 p) (d / 64 * 64)
    let u := s.wakeLink p l
    exec (.memRd p l tag hpa) s = .next (arrived u (portReq s false p l (.cxl tag) a 64 [] .atPort false false)).onward ∧
    (data.length = 64 → exec (.memWr p l tag hpa data poison) s =
      .next (arrived u (portReq s true p l (.cxl tag) a 64 (data.map some) .atPort false poison)).onward) ∧
    (data.length = 64 → exec (.memWrPtl p l tag hpa data mask poison) s =
      .next (arrived u (portReq s true p l (.cxl tag) a 64
        ((upto 64).map fun i => if mask.getLsbD i then some (data.getD i 0) else none) .atPort false poison)).onward)

/-- MEM_SPEC_RD completes with no effect but taking the link out of L1, MEM_INV is answered with Cmp and a BAR2 AtomicOp with
Unsupported Request; nothing else changes. -/
def Obligations.RequestsWithoutMemoryEffect : Prop :=
  (∀ (s : State) (p tag hpa : Nat) (l : LinkId), cxlOpen s p l →
    exec (.memSpecRd p l tag hpa) s = .next (s.wakeLink p l) ∧
    exec (.memInv p l tag hpa) s = .next { s.wakeLink p l with out := s.out ++ [.cxlCmp p l tag] }) ∧
  ∀ (s : State) (p tag off : Nat) (l : LinkId), pcieOpen s p l off 1 →
    exec (.bar2AtomicOp p l tag off) s = .next { s.wakeLink p l with out := s.out ++ [.bar2Unsupported p l tag] }

/-- BAR2_READ and BAR2_WRITE of bytes within one granule: a transfer and one request for exactly those bytes, decoded under R22, join
the device; the read waits behind earlier BAR2 writes (R177). -/
def Obligations.Bar2TransfersEnterByGranule : Prop :=
  ∀ (s : State) (p tag off : Nat) (l : LinkId) (n : Nat) (data : List Byte) (relaxed poison : Bool),
    pcieOpen s p l off n → 0 < n → off % 64 + n ≤ 64 →
    let a := s.decodeBar2 p off
    let u := s.wakeLink p l
    let x := fun (w : Bool) (t : Nat) => (⟨s.nextId, w, p, l, a.bib, t, off, n, [], false, 1, s.now⟩ : Xfer)
    let r := fun (w : Bool) (bytes : List (Option Byte)) (st : Stage) (rel bad : Bool) =>
      { portReq s w p l (.bar2 s.nextId 0) a n bytes st rel bad with id := s.nextId + 1 }
    exec (.bar2Read p l tag off n) s =
      .next { u with nextId := s.nextId + 2, xfers := s.xfers ++ [x false tag], reqs := s.reqs ++ [r false [] .barrier false false] }.onward ∧
    (data.length = n → exec (.bar2Write p l off data relaxed poison) s =
      .next { u with nextId := s.nextId + 2, xfers := s.xfers ++ [x true 0],
                     reqs := s.reqs ++ [r true (data.map some) .atPort relaxed poison] }.onward)

/-- R39: a host write through an unmapped slot, or to a page its partition does not own, changes no contents: it is completed and
counted in 0x1310.05, and the first such write after that counter is cleared raises event 0x0208. Whether the page is its partition's
is decided by the OWNER read at its lookup (R13, R18). -/
def Obligations.WritesOutsideTheWindowAreDiscarded : Prop :=
  (∀ (s : State) (r : Req), Form s → s.inGo = true → s.pausing = false → (r.lpn = noPage ∨ r.entry.owner ≠ r.port) →
    (∀ i off x, r.src = .bar2 i off → s.xfers.find? (fun y => y.id == i) = some x → x.write = true) →
    ∃ t : State, s.dispatchWrite r = t ∧ t.tier = s.tier ∧ t.map.pages = s.map.pages ∧ t.map.windows = s.map.windows ∧
      t.num 0x1310 5 = min (s.num 0x1310 5 + 1) 0xFFFFFFFFFFFFFFFF ∧ t.map.discardReported = true ∧
      t.reqs = s.reqs.filter (fun x => x.id != r.id) ∧
      (∀ tag, r.src = .cxl tag → s.muted r.port = false → lastOut s t (.cxlCmp r.port r.link tag)) ∧
      (s.map.discardReported = true → t.ev.ring = s.ev.ring) ∧
      (s.map.discardReported = false → s.ev.full = false →
        ∃ e, t.ev.ring = s.ev.ring ++ [e] ∧ e.code = 0x0208 ∧ e.port = r.port)) ∧
  (∀ s : State, s.clearTelemetry.map.discardReported = false) ∧
  ∀ (s : State) (r : Req), r.write = true → ((s.win r.port r.hostExtent).valid = false ∨ (s.win r.port r.hostExtent).frozen = true) →
    (s.lookup r).lpn = noPage

/-- R38, R40 and R174: what a read of contents that no DRAM holds answers on a CXL port in GO; whether the page is its partition's is
decided by the OWNER read at its lookup (R13, R18). -/
def Obligations.ReadsThatReturnZerosOrPoison : Prop :=
  ∀ (s : State) (r : Req) (tag : Nat), Form s → s.inGo = true → s.muted r.port = false → s.onesOnly r.port = false →
    r.src = .cxl tag → r.len = 64 →
    let e := s.page r.lpn
    let outside := r.lpn = noPage ∨ r.entry.owner ≠ r.port
    let empty := e.st = 0 ∨ (e.st ≠ 6 ∧ e.st ≠ 8 ∧ e.code r.blk = 0)
    -- an unmapped slot or another owner: zeros without poison, counted
    (outside → ∃ t : State, s.dispatchRead r = t ∧ lastOut s t (.cxlData r.port r.link tag (List.replicate 64 0) false) ∧
      t.tier = s.tier ∧ t.num 0x1310 4 = min (s.num 0x1310 4 + 1) 0xFFFFFFFFFFFFFFFF) ∧
    -- an UNWRITTEN page or a block never written: zeros, or poison where the region asks for it, counted
    (¬ outside → s.moveOn r.lpn = none → empty → ∃ t : State, s.dispatchRead r = t ∧ t.tier = s.tier ∧
      t.num 0x1310 4 = min (s.num 0x1310 4 + 1) 0xFFFFFFFFFFFFFFFF ∧
      lastOut s t (if s.poisonUnwritten r.lpn then .cxlData r.port r.link tag [] true
        else .cxlData r.port r.link tag (List.replicate 64 0) false)) ∧
    -- a POISONED page: poison
    (¬ outside → s.moveOn r.lpn = none → e.st = 8 → ∃ t : State, s.dispatchRead r = t ∧ t.tier = s.tier ∧
      lastOut s t (.cxlData r.port r.link tag [] true))

/-- Memory reads after writes: bytes written to a DRAM tier read back in order, and every other byte as before. -/
def Obligations.MemoryReadsAfterWrites : Prop :=
  ∀ (m : Memory) (a : Nat) (bs : List Byte), m.wf = true →
    (m.writeN a bs).readN a bs.length = bs ∧ (m.writeN a bs).wf = true ∧
    ∀ b, (b < a ∨ a + bs.length ≤ b) → (m.writeN a bs).read b = m.read b

/-! ### BAR0, work queues and descriptors -/

namespace Sys2Proof.Claims

/-- A link that answers BAR accesses. -/
def barAnswers (s : State) (p : Nat) (l : LinkId) : Prop :=
  s.linkOpen p l = true ∧ (s.port p).frozen = false ∧ s.barOpen p l = true

/-- A link that may issue requests, with ATS disabled and no invalidation open. -/
def issuesUntranslated (s : State) (p : Nat) (l : LinkId) : Prop :=
  s.mayIssue p l = true ∧ (s.link p l).atsEn = false ∧ (s.link p l).invals = []

/-- A state after one more output. -/
def said (s : State) (o : Output) : State := { s with out := s.out ++ [o] }

/-- A state whose job of an id is changed. -/
def withJob (s : State) (id : Nat) (f : Job → Job) : State :=
  { s with stride := { s.stride with jobs := updFirst (fun x => x.id == id) f s.stride.jobs } }

end Sys2Proof.Claims

/-- BAR0_ACCESS_OTHER, QTAIL and QCTRL_ENABLE on the link that holds queue q (Tables 5.2-5.4, R94, R113): QHEAD reads as it stands;
QBIB is written only while the queue is disabled; ENABLE going to 1 sets the internal tail to QHEAD; a doorbell within reach of the ring
moves the tail, one of a disabled queue or out of reach sets TAIL_ERROR and nothing else, and one behind BAR2 writes still on their way
is held. ENABLE going to 0 drops the read of the ring that is under way. Any other BAR0 read of the link is answered with the word, and
any other BAR0 write done, before waiting work goes on. -/
def Obligations.QueueRegistersAndDoorbells : Prop :=
  ∀ (s : State) (p q tag v : Nat) (en : Bool), p < 4 → q < 16 → v < 2 ^ 32 → (s.queue p q).vector < 64 →
    let l := s.queueLink p q
    let u := s.wakeLink p l
    let k := s.queue p q
    barAnswers s p l →
    (∀ off width, exec (.bar0AccessOther p l false tag off width v) s = .next (said u (.bar0Data p l tag (u.bar0Read p l off width))).onward ∧
      exec (.bar0AccessOther p l true tag off width v) s = .next (u.bar0Write p l off width v).onward) ∧
    exec (.bar0AccessOther p l false tag (0x100014 + 0x1000 * q) 4 v) s =
      .next (said u (.bar0Data p l tag k.head)).onward ∧
    exec (.bar0AccessOther p l true tag (0x100010 + 0x1000 * q) 4 v) s =
      .next (if k.enable then u else u.modQueue p q fun x => { x with bibMask := v % 65536 }).onward ∧
    exec (.qctrlEnable p l q en) s =
      .next ((if en then u else u.dropReads p l (.ring q)).modQueue p q fun x =>
        { x with enable := en, tail := if en ∧ !x.enable then x.head else x.tail }).onward ∧
    (s.bellHeld p s.nextId = false →
      exec (.qtail p l q v) s =
        .next (if k.enable = true ∧ (v + 2 ^ 32 - k.head) % 2 ^ 32 ≤ 2 ^ k.size then u.modQueue p q fun x => { x with tail := v }
          else u.modQueue p q fun x => { x with tailError := true }).onward) ∧
    (s.bellHeld p s.nextId = true →
      exec (.qtail p l q v) s = .next (u.modPort p fun y => { y with bells := y.bells ++ [(l, q, v, s.nextId)] }).onward)

/-- DESCRIPTOR_READ (R95): while an enabled queue has a slot before its tail, the limits of 64 descriptors a queue and 256 a port allow it
and COMPLETION of every earlier descriptor of the queue is translated (the model's reading, log entry 28), the 128 bytes of ring slot
QHEAD are asked of host memory. -/
def Obligations.DescriptorReadAsksForTheHeadSlot : Prop :=
  ∀ (s : State) (p q : Nat), Form s → p < 4 → q < 16 →
    let l := s.queueLink p q
    let k := s.queue p q
    k.enable = true → k.head ≠ k.tail → (s.queueJobs p q).length < 64 → (s.portJobs p).length < 256 →
    (∀ j ∈ s.queueJobs p q, j.compOk = true) → s.pausing = false → (s.link p l).issued < (s.link p l).readTags →
    issuesUntranslated s p l → ((s.link p l).dma.any fun d => d.owner == .ring q) = false → k.base % 4096 = 0 →
    (s.link p l).state ≠ 4 → (∀ d ∈ (s.link p l).dma, d.id ≠ s.nextId) →
    exec (.descriptorRead p q) s = .next (said (({ s with nextId := s.nextId + 1 } : State).modLink p l fun y => { y with
        dma := y.dma ++ [⟨s.nextId, .ring q, k.base + k.head % 2 ^ k.size * 128, 128, .issued, false⟩] })
      (.dmaRead p l s.nextId (k.base + k.head % 2 ^ k.size * 128) 128 false)).onward

/-- The twelve opcodes (R95, R102, R107, R109, R111, R115): a descriptor that has been read, that no earlier FENCE or unstarted
descriptor of its queue holds back, on a port and link that run, starts in GO: it goes on to read what it needs, and nothing else
changes before waiting work goes on. -/
def Obligations.DescriptorsStart : Prop :=
  ∀ (s : State) (id : Nat) (j : Job), s.job id = some j → s.startable j = true →
    let t := withJob s id fun x => { x with phase := .reading }
    (j.op = 0x01 → exec (.attend id) s = .next t.proceed) ∧
    (j.op = 0x02 → j.resume = false → exec (.gatherAttend id) s = .next t.proceed) ∧
    (j.op = 0x02 → j.resume = true → exec (.gatherAttendResume id) s = .next t.proceed) ∧
    (j.op = 0x10 → exec (.sealRange id) s = .next t.proceed) ∧
    (j.op = 0x11 → exec (.prefetch id) s = .next t.proceed) ∧
    (j.op = 0x12 → j.form = 0 → exec (.copyInRaw id) s = .next t.proceed) ∧
    (j.op = 0x12 → j.form = 1 → exec (.copyInImage id) s = .next t.proceed) ∧
    (j.op = 0x13 → j.form = 0 → exec (.copyOutRaw id) s = .next t.proceed) ∧
    (j.op = 0x13 → j.form = 1 → exec (.copyOutImage id) s = .next t.proceed) ∧
    (j.op = 0x20 → exec (.baton id) s = .next t.proceed) ∧
    (j.op = 0x21 → exec (.catchPass id) s = .next t.proceed) ∧
    (j.op = 0x30 → exec (.codebookBuild id) s = .next t.proceed) ∧
    (j.op = 0x3F → exec (.fence id) s = .next t.proceed)

/-- BATON_TIMEOUT (R42, R185): a BATON or CATCH that no pass has matched completes with status TIMEOUT, 0x12, and RESULT 0, and a CATCH
whose link is in D3hot with PME_En set sends PM_PME. BATON_SWAP (R43): once the giver's accepted writes have drained, one atomic step unmaps each named slot of the giver, maps the receiver's slots to the
same handles in the order named, and makes the receiver the owner of every page of those extents; every other window slot and the
owner of every other page stay. -/
def Obligations.BatonTimeoutAndSwap : Prop :=
  (∀ (s : State) (id : Nat) (j : Job), s.job id = some j → s.unmatched j = true → (∀ i ∈ s.relay.items, i.job ≠ some id) →
    let k := s.link j.port j.link
    let t := withJob s id fun x => { x with phase := .writing 0x12, result := 0, writes := [], faults := [], faultCount := 0 }
    exec (.batonTimeout id) s = .next (if j.op = 0x21 ∧ k.dstate = 3 ∧ k.pmeEn = true
      then said (t.modLink j.port j.link fun x => { x with pmeStatus := true }) (.pmPme j.port j.link) else t).onward) ∧
  ∀ (s : State) (x : Pass), Form s → s.map.passes.find? (fun y => y.token == x.token) = some x → s.passDraining x = false →
    x.giver ≠ x.receiver → x.from_.length = x.to_.length → x.from_.Nodup → x.to_.Nodup →
    (∀ e ∈ x.from_, e < 2 ^ 24) → (∀ e ∈ x.to_, e < 2 ^ 24) →
    ∃ t : State, exec (.batonSwap x.token) s = .next t.onward ∧
      (∀ a ∈ x.from_, (t.win x.giver a).valid = false) ∧
      (∀ i a b : Nat, x.from_[i]? = some a → x.to_[i]? = some b →
        (t.win x.receiver b).valid = true ∧ (t.win x.receiver b).frozen = false ∧
        (t.win x.receiver b).handle = (s.win x.giver a).handle ∧
        ∀ k < 32, (t.page ((s.win x.giver a).handle * 32 + k)).owner = x.receiver) ∧
      (∀ p e, e < 2 ^ 24 → ¬ (p = x.giver ∧ e ∈ x.from_) → ¬ (p = x.receiver ∧ e ∈ x.to_) → t.win p e = s.win p e) ∧
      (∀ lpn, (∀ a ∈ x.from_, handleOf lpn ≠ (s.win x.giver a).handle) → t.page lpn = s.page lpn) ∧
      x ∉ t.map.passes

/-! ### Legs and stride engines -/

namespace Sys2Proof.Claims

/-- A state whose leg of an id is changed. -/
def withLeg (s : State) (id : Nat) (f : Leg → Leg) : State :=
  { s with stride := { s.stride with legs := updFirst (fun x => x.id == id) f s.stride.legs } }

/-- Every leg has an id and a job of its own. -/
def legsNamed (s : State) : Prop :=
  (s.stride.legs.map (·.id)).Nodup ∧ (s.stride.jobs.map (·.id)).Nodup ∧ ∀ l ∈ s.stride.legs, ∃ j, s.job l.job = some j

end Sys2Proof.Claims

/-- R92: an ATTEND is cut into legs of 16 consecutive list positions of one KV head, a GATHER_ATTEND that starts at element 0 into legs
of 256 consecutive elements; the legs of a KV head are numbered from 0 in order, the last may be shorter, and a leg computes one partial
for every query head that shares its KV head. -/
def Obligations.JobsAreCutIntoLegs : Prop :=
  ∀ (s : State) (j : Job),
    ∃ new : List Leg, (s.cutLegs j).stride.legs = s.stride.legs ++ new ∧
      (∀ l ∈ new, l.job = j.id ∧ l.bib = j.bib ∧ l.port = j.port ∧ l.engine = none ∧ l.done = false ∧ l.head < j.kvHeads) ∧
      (∀ h < j.kvHeads, j.op = 0x01 →
        (new.filter fun l => l.head == h).map (fun l => (l.num, l.lo, l.count)) =
          (List.range ((j.positions + 15) / 16)).map fun i => (i, 16 * i, min 16 (j.positions - 16 * i))) ∧
      (∀ h < j.kvHeads, j.op = 0x02 → j.from_ = 0 →
        (new.filter fun l => l.head == h).map (fun l => (l.num, l.lo, l.count)) =
          (List.range ((j.elements + 255) / 256)).map fun i => (i, 256 * i, min 256 (j.elements - 256 * i))) ∧
      (∀ l ∈ new, ∀ f : Nat → Bool, (j.legPartials l f).length = j.group)

/-- LEG_DISPATCH and LEG_NEAR_WAIT (R93): with a free place among the 1024 of the device, the first ready leg in the order of level,
descriptor age and leg number, if its bib may hold another leg and an engine can take it, goes to that engine; the engine is neither
fenced nor drained and holds fewer than 64 legs; nothing else changes. A waiting leg whose LEG_NEAR_WAIT is over is marked so. -/
def Obligations.LegsAreDispatched : Prop :=
  (∀ (s : State) (l : Leg) (j : Job) (e : Nat), s.inGo = true → s.legsInFlight < 1024 →
    bestBy s.legBefore (s.stride.legs.filter s.legReady) = some l → s.bibLegs l.bib < s.num (0x7010 + l.bib) 7 →
    s.job l.job = some j → s.legEngine (s.legHome j l) l = some e →
    exec .legDispatch s = .next (withLeg s l.id fun x => { x with engine := some e, home := s.legHome j l }).onward) ∧
  (∀ (s : State) (home e : Nat) (l : Leg), s.legEngine home l = some e →
    (s.strideEng e).fenced = false ∧ (s.strideEng e).drained = false ∧ s.legsOn e < 64 ∧
    (l.nearExpired = false → e / 4 = home / 2)) ∧
  (∀ (s : State) (id : Nat) (l : Leg), s.leg id = some l → l.engine = none →
    exec (.legNearWait id) s = .next (withLeg s id fun x => { x with nearExpired := true }))

/-- LEG_REACHES_PAGE (R104, R105, R38): an unmapped page, one of another owner, a POISONED one, a vault or one of another element type
gives the leg a fault record with that reason and no bytes; a page never written gives zeros; whatever the page, the leg then stands
before its next one. -/
def Obligations.LegsReachTheirPages : Prop :=
  ∀ (s : State) (id : Nat) (l : Leg) (j : Job), s.leg id = some l → s.job l.job = some j → l.engine.isSome = true →
    l.done = false → l.allRead = false → j.op = 0x01 →
    let u := l.next / 2
    let wp := j.listPage l.head u (l.next % 2)
    (∃ t : State, exec (.legReachesPage id) s = .next t.onward ∧ ∃ x, t.leg id = some x ∧ x.next = l.next + 1 ∧ x.done = false) ∧
    (∀ r, s.pageFault j wp = some r →
      exec (.legReachesPage id) s =
        .next (withLeg s id fun x => x.take none [⟨j.p0 + u, wp, 0, r, l.head, l.next % 2⟩] [] []).onward) ∧
    (∀ lpn, s.pageFault j wp = none → s.pageAt j.port wp = some lpn → (s.view lpn).st = 0 →
      ∃ t : State, exec (.legReachesPage id) s = .next t.onward ∧ t.tier = s.tier ∧ t.map.pages = s.map.pages ∧
        ∃ x, t.leg id = some x ∧ x.next = l.next + 1 ∧ x.faults = l.faults ∧
          (if l.next % 2 = 0 then x.ks else x.vs) = (if l.next % 2 = 0 then l.ks else l.vs) ++
            [(u, some (List.replicate ((j.unitTokens u).2 * j.tokenBytes) 0))])

/-- LEG_COMPLETE, STRIDE_ENGINE_FAILURE and FINISH_STORE_PARITY (R103, R118, R273): a leg that has read every page, with no granule of it
still on its way, is done and its partials are in the finish unit's store; an engine that fails is fenced with its record in the event ring, and no unfinished leg stays
on it; a parity error of a stored head discards that head's partials, and every leg of the head runs again. -/
def Obligations.LegsCompleteAndRunAgain : Prop :=
  (∀ (s : State) (id e : Nat) (l : Leg) (j : Job), s.leg id = some l → s.job l.job = some j → l.engine = some e → l.done = false →
    l.allRead = true → s.busy id = false → s.armed (unitStride e) 0x01 = false →
    ∃ t : State, exec (.legComplete id) s = .next t.onward ∧
      t.stride.legs = updFirst (fun x => x.id == id) (fun x => { x with done := true, sampled := true }) s.stride.legs ∧
      t.stride.partials = s.stride.partials ++ [((l.job, l.head, l.num), j.legPartials l fun _ => false)] ∧
      t.stride.jobs = s.stride.jobs ∧ t.tier = s.tier ∧ t.map = s.map) ∧
  (∀ (s : State) (e : Nat), Form s → legsNamed s → s.hasStride = true → e < 16 → (s.strideEng e).fenced = false →
    ∃ t : State, exec (.strideEngineFailure e) s = .next t.onward ∧ (t.strideEng e).fenced = true ∧
      (∀ l ∈ t.stride.legs, l.engine = some e → l.done = true) ∧
      (∀ k, k ≠ e → t.strideEng k = s.strideEng k) ∧ t.tier = { s.tier with flows := t.tier.flows } ∧
      (∀ f ∈ t.tier.flows, f ∈ s.tier.flows) ∧ t.map = s.map ∧
      (s.ev.full = false → ∃ v, v ∈ t.ev.ring ∧ v.code = 0x0520 ∧ v.unit = unitStride e)) ∧
  (∀ (s : State) (id head : Nat) (j : Job), legsNamed s → s.job id = some j → j.stride = true → j.phase = .running →
    ∃ t : State, exec (.finishStoreParity id head) s = .next t.onward ∧
      (∀ x ∈ t.stride.partials, ¬ (x.1.1 = j.id ∧ x.1.2.1 = head)) ∧
      (∀ l ∈ t.stride.legs, l.job = j.id → l.head = head → l.done = false) ∧
      (∀ l ∈ s.stride.legs, ¬ (l.job = j.id ∧ l.head = head) → l ∈ t.stride.legs) ∧ t.tier = s.tier ∧ t.map = s.map)

/-! ### The T9's own accesses of host memory -/

/-- ATS_TRANSLATION_COMPLETION, DMA_READ_COMPLETION and DMA_COMPLETION_TIMEOUT (R116, R178, R179): a translation of 4 KiB or more that
grants an access becomes the newest of the link's cache, which holds at most 512 entries, or 256 on a bifurcated port; a read under way
ends with its bytes, and with any other completion status or a timeout it has failed. -/
def Obligations.TranslationsAndReadsComplete : Prop :=
  (∀ (s : State) (p addr size : Nat) (l : LinkId) (r w : Bool), Form s → p < 4 → s.linkOpen p l = true → (s.link p l).atsEn = true →
    4096 ≤ size → (r || w) = true →
    ∃ t : State, exec (.atsTranslationCompletion p l addr size r w) s = .next t.onward ∧
      (t.link p l).cache.getLast? = some ⟨addr, size, r, w⟩ ∧
      (t.link p l).cache.length ≤ (if (s.port p).bifurcated then 256 else 512) ∧
      (∀ x ∈ (t.link p l).cache, x = ⟨addr, size, r, w⟩ ∨ x ∈ (s.link p l).cache) ∧ t.reqs = s.reqs ∧ t.map = s.map ∧ t.tier = s.tier) ∧
  (∀ (s : State) (p id : Nat) (l : LinkId) (d : DmaRead) (data : List Byte) (st : DmaStatus), Form s → p < 4 →
    (s.link p l).dma.find? (fun x => x.id == id) = some d → d.phase = .issued → data.length = d.len →
    (∃ t : State, exec (.dmaReadCompletion p l id st data) s = .next t.onward ∧
      (t.link p l).dma = updFirst (fun x => x.id == id) (fun x => { x with phase := if st = .ok then .done data else .failed })
        (s.link p l).dma ∧ t.stride = s.stride ∧ t.map = s.map ∧ t.tier = s.tier) ∧
    (∃ t : State, exec (.dmaCompletionTimeout p l id) s = .next t.onward ∧
      (t.link p l).dma = updFirst (fun x => x.id == id) (fun x => { x with phase := .failed }) (s.link p l).dma ∧
      t.stride = s.stride ∧ t.map = s.map ∧ t.tier = s.tier))

/-- INVALIDATION_REQUEST and INVALIDATION_COMPLETION (R117, R179): the range is recorded, so that accesses of it pause, no
translation that meets it stays in the cache, and none that a result of the link's jobs has obtained; once no access issued to the range is under way, the completion leaves and the range is
free again. -/
def Obligations.InvalidationsPauseAndComplete : Prop :=
  (∀ (s : State) (p tag addr size : Nat) (l : LinkId), Form s → p < 4 → s.linkOpen p l = true →
    ∃ t : State, exec (.invalidationRequest p l tag addr size) s = .next t ∧
      (t.link p l).invals = (s.link p l).invals ++ [(tag, addr, size)] ∧
      (∀ x ∈ (t.link p l).cache, x ∈ (s.link p l).cache ∧ ¬ (addr < x.addr + x.size ∧ x.addr < addr + size)) ∧
      (∀ a n, addr < a + n → a < addr + size → (t.link p l).paused a n = true) ∧
      (∀ j ∈ t.stride.jobs, j.port = p → j.link = l → ∀ w ∈ j.writes, w.ready = true →
        ¬ (w.addr < addr + size ∧ addr < w.addr + w.data.length)) ∧
      t.stride = { s.stride with jobs := t.stride.jobs } ∧ t.stride.jobs.map (·.id) = s.stride.jobs.map (·.id) ∧
      t.map = s.map ∧ t.tier = s.tier ∧ t.out = s.out) ∧
  (∀ (s : State) (p tag : Nat) (l : LinkId) (v : Nat × Nat × Nat), Form s → p < 4 → s.linkOpen p l = true →
    (s.link p l).invals.find? (fun x => x.1 == tag) = some v →
    ((s.link p l).dma.any fun d => d.phase == .issued && meets v.2.1 v.2.2 d.addr d.len) = false →
    ∃ t : State, exec (.invalidationCompletion p l tag) s = .next t.onward ∧
      t.out = s.out ++ [.invalComplete p l tag] ∧ v ∉ (t.link p l).invals ∧ (t.link p l).cache = (s.link p l).cache ∧
      t.stride = s.stride ∧ t.map = s.map ∧ t.tier = s.tier)

/-! ### Links and ports -/

namespace Sys2Proof.Claims

/-- Link A of an unbifurcated port that is present, with L0p Enable set: the one x16 link that L0p applies to. -/
def wideLink (s : State) (p : Nat) : Prop :=
  s.portPresent p = true ∧ (s.port p).bifurcated = false ∧ (s.link p .a).width = 16 ∧ (s.link p .a).l0pEn = true

/-- The record of an event is in the ring. -/
def reported (t : State) (code port : Nat) : Prop := ∃ v ∈ t.ev.ring, v.code = code ∧ v.port = port

end Sys2Proof.Claims

/-- Configuration requests on an open link (R167, R179, R181, R184): the Command register takes its writable bits, a hardwired word stays,
any write is done before waiting work goes on; ATS Enable 0 empties
the translation cache, and the translations that results have obtained are obtained again; MSI-X Enable 0 keeps the table, D3hot is
entered from D0; in each case the rest of the link stays. D0 entered from D3hot completes the descriptors of the port ABORTED, passes
apart (the whole port's on a bifurcated one: the model's reading, log entry 76), and disables the link's queues. -/
def Obligations.ConfigurationRequests : Prop :=
  (∀ (s : State) (p v : Nat) (l : LinkId), s.linkOpen p l = true →
    let u := s.wakeLink p l
    exec (.configWrite p l 0x04 v) s = .next (u.modLink p l fun k => { k with command := v &&& 0x546 }).onward ∧
    exec (.configWrite p l 0x00 v) s = .next u.onward ∧
    (∀ off, exec (.configWrite p l off v) s = .next (u.configWrite p l off v).onward) ∧
    exec (.atsEnableClear p l) s =
      .next ((u.modLink p l fun k => { k with atsEn := false, cache := [] }).unready p l 0 (2 ^ 64)).onward ∧
    exec (.msixEnableClear p l) s = .next (u.modLink p l fun k => { k with msixEn := false }).onward ∧
    ((s.link p l).dstate = 0 → exec (.d3hotEntry p l) s = .next (u.modLink p l fun k => { k with dstate := 3 }).onward)) ∧
  ∀ (s : State) (p : Nat) (l : LinkId), Form s → p < 4 → s.linkOpen p l = true → (s.link p l).dstate = 3 →
    (s.stride.jobs.map (·.id)).Nodup →
    ∃ t : State, exec (.d0Return p l) s = .next t.onward ∧ (t.link p l).dstate = 0 ∧
      (∀ j ∈ t.stride.jobs, j.port = p → j.pass = false → j.phase = .writing 5) ∧
      (∀ q < 16, q ∈ s.linkQueues p l → (t.queue p q).enable = false) ∧ t.map = s.map ∧ t.tier = { s.tier with flows := t.tier.flows }

/-- MSIX_UNMASK (R181): the vector is unmasked; a pending one whose function is enabled and unmasked sends its message and is pending no
longer, and otherwise the pending bit stays. -/
def Obligations.MsixUnmaskSendsThePendingMessage : Prop :=
  ∀ (s : State) (p v : Nat) (l : LinkId), Form s → p < 4 → v < 64 → barAnswers s p l → (s.link p l).msix.length = 64 →
    let e := nth (s.link p l).msix ⟨0, 0, true, false⟩ v
    let send := e.pending && (s.link p l).msixEn && !(s.link p l).funcMask
    ∃ t : State, exec (.msixUnmask p l v) s = .next t.onward ∧
      nth (t.link p l).msix ⟨0, 0, true, false⟩ v = { e with masked := false, pending := e.pending && !send } ∧
      (∀ w, w ≠ v → nth (t.link p l).msix ⟨0, 0, true, false⟩ w = nth (s.link p l).msix ⟨0, 0, true, false⟩ w) ∧
      t.out = (if send then s.out ++ [.msix p l e.addr e.data] else s.out) ∧ t.stride = s.stride ∧ t.map = s.map ∧ t.tier = s.tier

/-- Function Level Reset, hot reset and PERST_N (R190): each discards the descriptors of the partition (of both links: log entry 76) with
no record and the link's host requests, puts its queues, MSI-X table and translation cache at their reset values and ends a freeze; Function Level Reset keeps the configuration
registers, hot reset resets them too and lets the link train again, and PERST_N holds both links down until it is released; a
released port trains (R164, R185). Pages and DRAM contents stay. PERST_N is looked at in SET, GO, PAUSE and FALSE_START (R272). -/
def Obligations.LinkResets : Prop :=
  (∀ (s : State) (p : Nat) (l : LinkId), Form s → p < 4 → s.linkOpen p l = true → s.map.passes = [] →
    (∃ t : State, exec (.functionLevelReset p l) s = .next t.onward ∧ (t.link p l).command = (s.link p l).command ∧
      (t.link p l).cache = [] ∧ (t.link p l).msix = Link.init.msix ∧ (t.port p).frozen = false ∧
      (∀ q ∈ s.linkQueues p l, t.queue p q = Queue.init) ∧ (∀ j ∈ t.stride.jobs, j.port ≠ p) ∧
      (∀ r ∈ t.reqs, ¬ (r.port = p ∧ r.link = l ∧ r.isHost = true)) ∧ t.tier = { s.tier with flows := t.tier.flows } ∧
      t.map.pages = s.map.pages) ∧
    (∃ t : State, exec (.hotReset p l) s = .next t.onward ∧ (t.link p l).command = 0 ∧ (t.link p l).state = 1 ∧
      (t.link p l).cache = [] ∧ (t.link p l).msix = Link.init.msix ∧ (t.link p l).hdm = [Hdm.init, Hdm.init] ∧
      (∀ q ∈ s.linkQueues p l, t.queue p q = Queue.init) ∧ (∀ j ∈ t.stride.jobs, j.port ≠ p) ∧
      (∀ r ∈ t.reqs, ¬ (r.port = p ∧ r.link = l ∧ r.isHost = true)) ∧ t.tier = { s.tier with flows := t.tier.flows } ∧
      t.map.pages = s.map.pages)) ∧
  (∀ (s : State) (p : Nat), Form s → p < 4 → s.portPresent p = true → 1 ≤ s.run.state → s.run.state ≤ 4 → s.map.passes = [] →
    ∃ t : State, exec (.perstAssert p) s = .next t.onward ∧ (t.port p).perstLow = true ∧
      (∀ l, (t.link p l).state = 0 ∧ (t.link p l).command = 0 ∧ (t.link p l).cache = []) ∧ (t.port p).frozen = false ∧
      (∀ j ∈ t.stride.jobs, j.port ≠ p) ∧ (∀ r ∈ t.reqs, ¬ (r.port = p ∧ r.isHost = true)) ∧
      t.tier = { s.tier with flows := t.tier.flows } ∧ t.map.pages = s.map.pages) ∧
  (∀ (s : State) (p : Nat), Form s → p < 4 → s.portPresent p = true → 1 ≤ s.run.state → s.run.state ≤ 4 →
    (s.port p).perstLow = true → s.run.portsReleased = true →
    ∃ t : State, exec (.perstRelease p) s = .next t.onward ∧ (t.port p).perstLow = false ∧ (t.port p).wake = false ∧
      (t.port p).pcieOnly = (s.num (0x3000 + 0x100 * p) 1 == 1) ∧ (t.port p).bifurcated = (s.num (0x3000 + 0x100 * p) 2 == 1) ∧
      (t.link p .a).state = 1 ∧ (t.link p .b).state = (if s.num (0x3000 + 0x100 * p) 2 = 1 then 1 else 0) ∧
      t.reqs = s.reqs ∧ t.stride = s.stride ∧ t.map = s.map ∧ t.tier = s.tier)

/-- LINK_UP, LINK_LOSS and PME_TURN_OFF (R166, R183, R186): a link comes up in L0 with event 0x0804, at the highest common speed, at a
width that both sides have when the host's is 1, 2, 4, 8 or 16, and in FLIT mode at 64 GT/s or with a partner that supports it; a link that leaves DL_Active goes down with event 0x0803, counted in its port's object, and its
port freezes with cause 1, unless the link was in L2 or PAUSE entry runs; PME_Turn_Off is acknowledged and the link enters L2. -/
def Obligations.LinksComeUpAndGoDown : Prop :=
  (∀ (s : State) (p sp w : Nat) (l : LinkId) (fl ask : Bool), Form s → p < 4 → s.linkPresent p l = true → (s.link p l).state ≤ 1 →
    s.run.portsReleased = true → (s.port p).perstLow = false → (s.run.state = 1 ∨ s.run.state = 2) → s.ev.full = false →
    w ∈ [1, 2, 4, 8, 16] →
    ∃ t : State, exec (.linkUp p l sp w fl ask) s = .next t.onward ∧ (t.link p l).state = 2 ∧
      (t.link p l).speed = min 5 (max (s.num (0x3000 + 0x100 * p) 3) sp) ∧
      ((t.link p l).flit = true ↔ (t.link p l).speed = 0 ∨ fl = true) ∧
      (t.link p l).width = min w (if (s.port p).bifurcated then 8 else 16) ∧ reported t 0x0804 p ∧
      t.stride = s.stride ∧ t.map = s.map ∧ t.tier = s.tier) ∧
  (∀ (s : State) (p : Nat) (l : LinkId), Form s → p < 4 → s.linkPresent p l = true → 2 ≤ (s.link p l).state →
    (s.link p l).state ≠ 5 → s.pausing = false → (s.port p).frozen = false → s.ev.ring.length < 1000 →
    ∃ t : State, exec (.linkLoss p l) s = .next t.onward ∧ (t.link p l).state = 0 ∧ (t.port p).frozen = true ∧
      (t.port p).cause = 1 ∧ (t.port p).drained = false ∧ reported t 0x0803 p ∧ reported t 0x0801 p ∧
      t.num (0x3000 + 0x100 * p) 0x0B = min (s.num (0x3000 + 0x100 * p) 0x0B + 1) 0xFFFFFFFFFFFFFFFF ∧
      t.map.pages = s.map.pages ∧ t.tier.sprint = s.tier.sprint ∧ t.tier.dist = s.tier.dist) ∧
  (∀ (s : State) (p : Nat) (l : LinkId), s.linkOpen p l = true →
    exec (.pmeTurnOff p l) s = .next ((said s (.pmeToAck p l)).modLink p l fun k => { k with state := 5 }))

/-- FATAL_AER_ERROR, IO_DIE_INTERNAL_ERROR, PORT_DRAINED and PORT_RELEASE (R186, R188, R189): a port freezes with its cause in force
and PORT_SR_MODE as it stands, counted and reported by event 0x0801; a frozen port none of whose work is left has drained; a release
asked for before that is remembered, and one asked for then empties the translation caches, completes its descriptors ABORTED,
passes apart, disables its queues and reopens the port with event 0x0802. -/
def Obligations.PortsFreezeDrainAndReopen : Prop :=
  (∀ (s : State) (p : Nat) (l : LinkId), Form s → p < 4 → (s.port p).frozen = false → s.ev.ring.length < 1000 →
    let good := fun (t : State) (cause : Nat) => (t.port p).frozen = true ∧ (t.port p).cause = cause ∧ (t.port p).drained = false ∧
      ((t.port p).allOnes = true ↔ s.num (0x3040 + 0x100 * p) 2 = 1) ∧ reported t 0x0801 p ∧
      t.num (0x3040 + 0x100 * p) 6 = min (s.num (0x3040 + 0x100 * p) 6 + 1) 0xFFFFFFFFFFFFFFFF ∧
      t.map.pages = s.map.pages ∧ t.reqs = s.reqs
    (s.linkOpen p l = true → s.map.passes = [] → (∀ j ∈ s.stride.jobs, j.pass = false) →
      ∃ t : State, exec (.fatalAerError p l) s = .next t.onward ∧ good t 2) ∧
    (s.portPresent p = true → s.run.portsReleased = true → s.map.passes = [] → (∀ j ∈ s.stride.jobs, j.pass = false) →
      ∃ t : State, exec (.ioDieInternalError p) s = .next t.onward ∧ good t 3)) ∧
  (∀ (s : State) (p : Nat), Form s → p < 4 → (s.port p).frozen = true → s.portIdle p = true → (s.port p).releaseAsked = false →
    exec (.portDrained p) s = .next (s.modPort p fun x => { x with drained := true }).onward) ∧
  (∀ (s : State) (p : Nat), s.linkOpen p .a = true → (s.port p).frozen = true → (s.port p).drained = false →
    exec (.portRelease p none) s = .next ((s.wakeLink p .a).modPort p fun x => { x with releaseAsked := true }).onward) ∧
  (∀ (s : State) (p : Nat), Form s → p < 4 → s.linkOpen p .a = true → (s.port p).frozen = true → (s.port p).drained = true →
    s.ev.full = false → (s.stride.jobs.map (·.id)).Nodup →
    ∃ t : State, exec (.portRelease p none) s = .next t.onward ∧ (t.port p).frozen = false ∧ (t.port p).drained = false ∧
      (∀ l, (t.link p l).cache = []) ∧ (∀ q < 16, (t.queue p q).enable = false) ∧
      (∀ j ∈ t.stride.jobs, j.port = p → j.pass = false → j.phase = .writing 5) ∧ reported t 0x0802 p ∧
      t.map = s.map ∧ t.tier = { s.tier with flows := t.tier.flows })

/-- L1 and L0p (R182): a quiet link in L0 or L0p with ASPM L1 enabled enters L1, and any request takes it out; L0p narrows and widens
the one x16 link of a port, of itself or when the host asks for x8 or x16, and does not narrow it while a request of level 5 or more
waits; nothing else changes. -/
def Obligations.LowPowerLinkStates : Prop :=
  (∀ (s : State) (p : Nat) (l : LinkId), s.linkPresent p l = true → ((s.link p l).state = 2 ∨ (s.link p l).state = 3) →
    (s.link p l).aspmL1 = true → (∀ j ∈ s.stride.jobs, ¬ (j.port = p ∧ j.link = l)) → (s.link p l).reading = false →
    (∀ r ∈ s.reqs, ¬ (r.port = p ∧ r.link = l)) →
    exec (.l1IdleExpiry p l) s = .next (s.modLink p l fun k => { k with state := 4 })) ∧
  (∀ (s : State) (p : Nat) (l : LinkId), (s.link p l).state = 4 →
    exec (.l1Exit p l) s = .next (s.modLink p l fun k => { k with state := 2 })) ∧
  (∀ (s : State) (p : Nat), wideLink s p →
    (s.urgentWaits p = true → exec (.l0pNarrow p) s = .next s ∧ exec (.l0pHostRequest p 8) s = .next s) ∧
    ((s.link p .a).state = 2 → s.urgentWaits p = false →
      exec (.l0pNarrow p) s = .next (s.modLink p .a fun k => { k with state := 3 }) ∧
      exec (.l0pHostRequest p 8) s = .next (s.modLink p .a fun k => { k with state := 3 })) ∧
    ((s.link p .a).state = 3 →
      exec (.l0pWiden p) s = .next (s.modLink p .a fun k => { k with state := 2 }) ∧
      exec (.l0pHostRequest p 16) s = .next (s.modLink p .a fun k => { k with state := 2 })))

/-- HDM_DECODER_COMMIT (R171): decoder 0 commits at DPA 0 when its interleave is of 1, 2, 4 or 8 ways at 4 KiB, its skip is 0, its
position lies within the ways and its share fits in the 16 W of the partition; any other setting is not committed and sets Error
Not Committed; decoder 1 commits under the same conditions at the DPA where a committed decoder 0 ends; a write without Commit leaves
the decoder uncommitted; nothing but the decoder changes. -/
def Obligations.HdmDecoderCommits : Prop :=
  ∀ (s : State) (p base size ways gran skip pos : Nat) (l : LinkId), Form s → p < 4 → barAnswers s p l →
    (s.port p).pcieOnly = false → (s.link p l).hdm.length = 2 →
    let good := ways ∈ [1, 2, 4, 8] ∧ gran = 4096 ∧ skip = 0 ∧ pos < ways ∧ size / ways ≤ 16 * 2 ^ s.windowLog2 p
    ∃ t : State, exec (.hdmDecoderCommit p l 0 base size ways gran skip pos true) s = .next t.onward ∧
      (good → nth (t.link p l).hdm Hdm.init 0 = ⟨base, size, ways, pos, 0, true, false⟩) ∧
      (¬ good → (nth (t.link p l).hdm Hdm.init 0).committed = false ∧ (nth (t.link p l).hdm Hdm.init 0).error = true) ∧
      nth (t.link p l).hdm Hdm.init 1 = nth (s.link p l).hdm Hdm.init 1 ∧
      t.reqs = s.reqs ∧ t.stride = s.stride ∧ t.map = s.map ∧ t.tier = s.tier ∧
      (let h := nth (s.link p l).hdm Hdm.init 0
       let dpa := h.dpa + h.size / h.ways
       h.committed = true → ways ∈ [1, 2, 4, 8] → gran = 4096 → skip = 0 → pos < ways → dpa + size / ways ≤ 16 * 2 ^ s.windowLog2 p →
        exec (.hdmDecoderCommit p l 1 base size ways gran skip pos true) s = .next ((s.wakeLink p l).modLink p l fun k =>
          { k with hdm := updAt k.hdm 1 fun _ => ⟨base, size, ways, pos, dpa, true, false⟩ }).onward) ∧
      ∀ d < 2, exec (.hdmDecoderCommit p l d base size ways gran skip pos false) s = .next ((s.wakeLink p l).modLink p l fun k =>
        { k with hdm := updAt k.hdm d fun x => { x with committed := false, error := false } }).onward

/-- The CXL mailbox in CXL mode (R171, R175, R181): each command completes with interrupt vector 0. Identify Memory Device reports 16 W bytes of volatile capacity, Get Poison List one entry
for each POISONED page mapped in the partition's window, Clear Poison of an unmapped slot or of a page of another owner answers Invalid
Physical Address, one of a page of the partition waits for the page to be free, and any other command answers Unsupported. The layouts
of the payloads are PRESUMED (log entry 31). -/
def Obligations.CxlMailboxCommands : Prop :=
  ∀ (s : State) (p dpa op : Nat) (l : LinkId), barAnswers s p l → (s.port p).pcieOnly = false →
    let u := s.wakeLink p l
    let a := decodePart (s.windowLog2 p) dpa
    let w := s.win p a.extent
    let lpn := w.handle * 32 + a.page
    exec (.identifyMemoryDevice p l) s =
      .next ((said u (.mailbox p l .success (natLe 8 (16 * 2 ^ s.windowLog2 p) ++ natLe 8 0))).fire p l 0).onward ∧
    (∃ bs n, exec (.getPoisonList p l) s =
        .next (((said u (.mailbox p l .success bs)).fire p l 0).modLink p l fun k => { k with poisonAt := n }).onward ∧
      ((s.poisonDpas p).length ≤ 1022 → (s.link p l).poisonAt = 0 → n = 0 ∧ field bs 0 1 = 0 ∧
        field bs 10 2 = (s.poisonDpas p).length ∧ bs.length = 32 + 16 * (s.poisonDpas p).length)) ∧
    (dpa < 16 * 2 ^ s.windowLog2 p → w.valid = true → (s.page lpn).owner = p →
      exec (.clearPoison p l dpa) s = .next ({ u with map := { s.map with clears := s.map.clears ++ [⟨p, l, lpn⟩] } } : State).onward) ∧
    ((w.valid = false ∨ (s.page lpn).owner ≠ p ∨ 16 * 2 ^ s.windowLog2 p ≤ dpa) →
      exec (.clearPoison p l dpa) s = .next ((said u (.mailbox p l .invalidPhysicalAddress [])).fire p l 0).onward) ∧
    exec (.unsupportedMailboxCommand p l op) s = .next ((said u (.mailbox p l .unsupported [])).fire p l 0).onward

/-! ### The two doors of the dictionary -/

namespace Sys2Proof.Claims

/-- A sessionless frame that reaches the arbiter: the door is served, the datagram is for the node, nothing of it is malformed, its SEQ is neither in the reply cache
of its source nor awaited, and the door's queue has room (R205, R207-R209, R211). -/
def reaches (s : State) (f : Frame) : Prop :=
  s.run.dictServed = true ∧ s.dict.fieldSilent = false ∧ s.takesFrame f = true ∧ frameAccepted f = true ∧ f.session = 0 ∧
  (s.srcCache f.src).find? (fun c => c.1 == f.seq) = none ∧ s.awaited (.field f.src) f = false ∧ s.fieldQueueFull = false

/-- A frame of an open session that reaches the arbiter: its TAG, over the frame with its OP, is right and its SEQ is new (R215,
R216). -/
def reachesIn (s : State) (op : Nat) (f : Frame) (x : Session) : Prop :=
  s.run.dictServed = true ∧ s.dict.fieldSilent = false ∧ s.takesFrame f = true ∧ frameAccepted f = true ∧ f.session ≠ 0 ∧ s.session f.session = some x ∧
  frameAuth f = true ∧ f.tag = (hmacSha256 x.key (frameWire op f)).take 16 ∧
  x.cache.find? (fun c => c.1 == f.seq) = none ∧ s.awaited (.session x.id) f = false ∧ x.nextSeq ≤ f.seq ∧ s.fieldQueueFull = false

/-- An object that exists in this part, outside FALSE_START. -/
def object (s : State) (index sub : Nat) (o : Obj) : Prop :=
  s.run.state ≠ 4 ∧ s.absent index sub = false ∧ indexKnown index = true ∧ findObj index sub = some o

/-- A write of a value that passes checks 4 to 7 of R196 and is not a group's, a write-once's or an image's. -/
def writable (s : State) (d : Door) (o : Obj) (index sub : Nat) (v : List Byte) : Prop :=
  (o.acc = .rw ∨ o.acc = .wo ∨ (o.acc = .rwp ∧ s.rwpOpen = true)) ∧ o.grp = false ∧ s.authAbort d o index = 0 ∧
  lengthBad o v = false ∧ s.rangeBad o index sub v = false ∧ s.trainingAbort o index = 0 ∧ s.ownAbort index sub v = 0 ∧
  isImage index sub = false

/-- The Welair reply to a sessionless frame. -/
def replyTo (f : Frame) (op flags abort ty : Nat) (data : List Byte) : List Byte :=
  welair op (1 + flags) abort 0 f.seq f.index f.sub ty f.offset data

/-- The reply of a sessionless frame leaves for the address and UDP port it came from, and is the newest of its source's reply cache. -/
def repliedTo (s t : State) (f : Frame) (w : List Byte) : Prop :=
  lastOut s t (.frame f.src f.srcPort w) ∧ (t.srcCache f.src).getLast? = some (f.seq, w)

/-- All that leaves is the completion of a mailbox command with its payload, and its interrupt (R181, R218). -/
def mailed (s t : State) (p : Nat) (l : LinkId) (bs : List Byte) : Prop :=
  t.out = ((said s (.mailbox p l .success bs)).fire p l 0).out

end Sys2Proof.Claims

/-- READ, READ_BLOCK, READ_STAGED and their mailbox commands (R198, R210, R211, R218): an object that may be read answers its value, the
first segment of a block read also takes the snapshot that later segments read and says with LAST whether it is the whole value, and a
value staged in the context is answered with STAGED; no object changes, and outside PAUSE, where a read of metadata takes channels out
of self-refresh (R147), no tier. -/
def Obligations.ReadsAnswerTheValue : Prop :=
  (∀ (s : State) (f : Frame) (o : Obj) (v : List Byte), reaches s f → object s f.index f.sub o → o.acc ≠ .wo →
    s.readObj o f.index f.sub = (0, v) → v.length ≤ 1024 → (o.ty = 12 ∨ o.size ≤ 1024) → Rises s.dict.srcCaches →
    (∃ t : State, exec (.read f) s = .next t.onward ∧ repliedTo s t f (replyTo f 1 0 0 o.ty v) ∧
      t.dict.nums = s.dict.nums ∧ t.dict.blobs = s.dict.blobs ∧ t.map = s.map ∧ (s.run.state ≠ 3 → t.tier = s.tier)) ∧
    (f.offset = 0 → f.body.length < 2 →
      ∃ t : State, exec (.readBlock f) s = .next t.onward ∧ repliedTo s t f (replyTo f 3 4 0 o.ty v) ∧
        (t.ctx .shared).snap = some ⟨f.index, f.sub, v⟩ ∧ t.dict.nums = s.dict.nums ∧ t.map = s.map ∧
        (s.run.state ≠ 3 → t.tier = s.tier)) ∧
    (∀ w : List Byte, (s.ctx .shared).stagedAt f.index f.sub = some w → w.length ≤ 1024 →
      ∃ t : State, exec (.readStaged f) s = .next t.onward ∧ repliedTo s t f (replyTo f 5 8 0 o.ty w) ∧
        t.dict.nums = s.dict.nums ∧ t.dict.ctxs = s.dict.ctxs ∧ t.map = s.map ∧ t.tier = s.tier)) ∧
  (∀ (s : State) (p : Nat) (l : LinkId) (bs : List Byte) (y : Payload) (o : Obj) (v : List Byte),
    s.doorOpen (.infield p l) = true → parsePayload bs = some y → y.data.length < 2 → object s y.index y.sub o → o.acc ≠ .wo →
    (s.wakeLink p l).readObj o y.index y.sub = (0, v) → v.length ≤ 1024 → (o.ty = 12 ∨ o.size ≤ 1024) →
    (∃ t : State, exec (.dictRead p l bs) s = .next t.onward ∧ mailed s t p l (infieldReply 0 o.ty 0 v) ∧
      t.dict.nums = s.dict.nums ∧ t.dict.ctxs = s.dict.ctxs ∧ t.map = s.map ∧ (s.run.state ≠ 3 → t.tier = s.tier)) ∧
    (y.offset = 0 →
      ∃ t : State, exec (.dictReadBlock p l bs) s = .next t.onward ∧
        mailed s t p l (infieldReply 0 o.ty 4 v) ∧
        (t.ctx (.infield p l)).snap = some ⟨y.index, y.sub, v⟩ ∧ t.dict.nums = s.dict.nums ∧ t.map = s.map ∧
        (s.run.state ≠ 3 → t.tier = s.tier)) ∧
    (∀ w : List Byte, (s.ctx (.infield p l)).stagedAt y.index y.sub = some w → w.length ≤ 1024 →
      ∃ t : State, exec (.dictReadStaged p l bs) s = .next t.onward ∧
        mailed s t p l (infieldReply 0 o.ty 8 w) ∧
        t.dict.nums = s.dict.nums ∧ t.dict.ctxs = s.dict.ctxs ∧ t.map = s.map ∧ t.tier = s.tier))

/-- WRITE, WRITE_BLOCK, their mailbox commands and the write of an object that a command names (R196, R197, R203, R210): a value that
passes every check takes effect before its reply, a number object without an effect of its own then reads as written and a persistent
one asks for a store; a segment of a block write that is not the last is kept in the context's buffer and changes no object. -/
def Obligations.WritesTakeEffect : Prop :=
  (∀ (s : State) (f : Frame) (o : Obj), Form s → reaches s f → object s f.index f.sub o →
    writable s (.field f.src) o f.index f.sub f.body → f.type = o.ty → f.body.length ≤ 1024 → o.acc ≠ .wo → o.ty < 10 →
    (∀ u : State, u.ownEffect f.index f.sub f.body = u ∧ u.afterReply f.index f.sub f.body = u) →
    ¬ (f.index = 0x2000 ∧ f.sub = 1) → ¬ (0x1810 ≤ f.index ∧ f.index < 0x1850) → Rises s.dict.srcCaches →
    ∃ t : State, exec (.write f) s = .next t.onward ∧ t.num f.index f.sub = leNat f.body ∧
      repliedTo s t f (replyTo f 2 0 0 o.ty []) ∧ (o.persist = true → t.dict.storePending = true) ∧
      (∀ i j, okey i j ≠ okey f.index f.sub → t.num i j = s.num i j) ∧ t.map = s.map ∧ t.tier = s.tier) ∧
  (∀ (s : State) (p : Nat) (l : LinkId) (bs : List Byte) (y : Payload) (o : Obj), Form s → s.doorOpen (.infield p l) = true →
    parsePayload bs = some y → y.data.length ≤ 1024 → object s y.index y.sub o →
    writable (s.wakeLink p l) (.infield p l) o y.index y.sub y.data → y.type = o.ty → o.acc ≠ .wo → o.ty < 10 →
    (∀ u : State, u.ownEffect y.index y.sub y.data = u ∧ u.afterReply y.index y.sub y.data = u) →
    ¬ (y.index = 0x2000 ∧ y.sub = 1) → ¬ (0x1810 ≤ y.index ∧ y.index < 0x1850) →
    ∃ t : State, exec (.dictWrite p l bs) s = .next t.onward ∧ t.num y.index y.sub = leNat y.data ∧
      mailed s t p l (infieldReply 0 o.ty 0 []) ∧
      (∀ i j, okey i j ≠ okey y.index y.sub → t.num i j = s.num i j) ∧ t.map = s.map ∧ t.tier = s.tier) ∧
  (∀ (s : State) (id index sub : Nat) (v : List Byte) (o : Obj), Form s → s.doorOpen (.session id) = true →
    s.fieldQueueFull = false → object s index sub o →
    writable s (.session id) o index sub v → v.length ≤ 1024 → o.acc ≠ .wo → o.ty < 10 →
    (∀ u : State, u.ownEffect index sub v = u ∧ u.afterReply index sub v = u) →
    ¬ (index = 0x2000 ∧ sub = 1) → ¬ (0x1810 ≤ index ∧ index < 0x1850) →
    ∃ t : State, exec (.dictObjectWrite (.session id) index sub v) s = .next t.onward ∧ t.num index sub = leNat v ∧
      t.out = s.out ++ [.answer (.session id) 0 o.ty []] ∧ (∀ i j, okey i j ≠ okey index sub → t.num i j = s.num i j) ∧
      t.map = s.map ∧ t.tier = s.tier) ∧
  (∀ (s : State) (f : Frame) (o : Obj), reaches s f → object s f.index f.sub o → f.offset = 0 → frameLast f = false →
    Rises s.dict.srcCaches →
    ∃ t : State, exec (.writeBlock f) s = .next t.onward ∧ (t.ctx .shared).wbuf = some ⟨f.index, f.sub, f.body⟩ ∧
      repliedTo s t f (replyTo f 4 0 0 o.ty []) ∧ t.dict.nums = s.dict.nums ∧ t.dict.blobs = s.dict.blobs ∧
      t.map = s.map ∧ t.tier = s.tier) ∧
  (∀ (s : State) (p : Nat) (l : LinkId) (bs : List Byte) (y : Payload) (o : Obj), s.doorOpen (.infield p l) = true →
    parsePayload bs = some y → y.data.length ≤ 8192 → object s y.index y.sub o → y.offset = 0 → y.last = false →
    ∃ t : State, exec (.dictWriteBlock p l bs) s = .next t.onward ∧
      (t.ctx (.infield p l)).wbuf = some ⟨y.index, y.sub, y.data⟩ ∧
      mailed s t p l (infieldReply 0 o.ty 0 []) ∧
      t.dict.nums = s.dict.nums ∧ t.dict.blobs = s.dict.blobs ∧ t.map = s.map ∧ t.tier = s.tier)

/-- COMMIT and DISCARD through both doors, DICT_CONTEXT, the reserved mailbox opcodes and STAGE_TIMEOUT (R198-R201, R218): a commit whose
checks pass clears the context's staged values of the group and counts, one whose counter has moved is refused with 0x50 and clears
them too, and a discard clears them; DICT_CONTEXT answers the groups staged; a timeout clears a group's staged values, or the context's
block buffer. -/
def Obligations.GroupsCommitAndDiscard : Prop :=
  (∀ (s : State) (f : Frame) (o : Obj), reaches s f → object s f.index f.sub o → o.grp = true → Rises s.dict.srcCaches →
    Rises s.dict.commits →
    let c := s.ctx .shared
    let gone := fun (t : State) => ∀ x ∈ (t.ctx .shared).staged, x.1 / 256 ≠ f.index
    (c.noneStaged f.index = true ∨ s.authAbort (.field f.src) o f.index = 0) →
    ((c.recs.any fun x => x.1 == f.index && x.2 != s.commitCount f.index) = false → (o.acc = .rwp → s.rwpOpen = true) →
      s.groupAbort f.index c = 0 →
      ∃ t : State, exec (.commit f) s = .next t.onward ∧ t.commitCount f.index = s.commitCount f.index + 1 ∧ gone t ∧
        Output.frame f.src f.srcPort (replyTo f 6 0 0 o.ty []) ∈ t.out) ∧
    ((c.recs.any fun x => x.1 == f.index && x.2 != s.commitCount f.index) = true →
      ∃ t : State, exec (.commit f) s = .next t.onward ∧ gone t ∧ repliedTo s t f (replyTo f 6 0 0x50 o.ty []) ∧
        t.dict.nums = s.dict.nums ∧ t.dict.commits = s.dict.commits ∧ t.map = s.map ∧ t.tier = s.tier) ∧
    (∃ t : State, exec (.discard f) s = .next t.onward ∧ gone t ∧ repliedTo s t f (replyTo f 7 0 0 o.ty []) ∧
      t.dict.nums = s.dict.nums ∧ t.dict.commits = s.dict.commits ∧ t.map = s.map ∧ t.tier = s.tier)) ∧
  (∀ (s : State) (p : Nat) (l : LinkId) (bs : List Byte) (y : Payload) (o : Obj), s.doorOpen (.infield p l) = true →
    parsePayload bs = some y → y.data.length ≤ 8192 → object s y.index y.sub o → o.grp = true → Rises s.dict.commits →
    let c := s.ctx (.infield p l)
    let gone := fun (t : State) => ∀ x ∈ (t.ctx (.infield p l)).staged, x.1 / 256 ≠ y.index
    ((c.noneStaged y.index = true ∨ s.authAbort (.infield p l) o y.index = 0) →
      (c.recs.any fun x => x.1 == y.index && x.2 != s.commitCount y.index) = false → (o.acc = .rwp → s.rwpOpen = true) →
      (s.wakeLink p l).groupAbort y.index c = 0 →
      ∃ t : State, exec (.dictCommit p l bs) s = .next t.onward ∧ t.commitCount y.index = s.commitCount y.index + 1 ∧ gone t ∧
        Output.mailbox p l .success (infieldReply 0 o.ty 0 []) ∈ t.out) ∧
    (∃ t : State, exec (.dictDiscard p l bs) s = .next t.onward ∧ gone t ∧
      mailed s t p l (infieldReply 0 o.ty 0 []) ∧ t.dict.nums = s.dict.nums ∧ t.map = s.map)) ∧
  (∀ (s : State) (p op : Nat) (l : LinkId) (bs : List Byte) (y : Payload), s.doorOpen (.infield p l) = true →
    (parsePayload bs = some y → y.data.length ≤ 8192 →
      exec (.dictContext p l bs) s = .next ((said (s.wakeLink p l) (.mailbox p l .success
        (infieldReply 0 0 0 ((s.ctx (.infield p l)).recs.flatMap fun x => natLe 2 x.1)))).fire p l 0).onward) ∧
    (0xC008 ≤ op → op ≤ 0xC00F →
      exec (.dictReservedOpcode p l op) s = .next ((said (s.wakeLink p l) (.mailbox p l .unsupported [])).fire p l 0).onward)) ∧
  (∀ (s : State) (d : Door) (g : Nat), ∃ t : State, exec (.stageTimeoutExpiry d (some g)) s = .next t ∧
    (∀ x ∈ (t.ctx (ctxOf d)).staged, x.1 / 256 ≠ g) ∧ (∀ x ∈ (s.ctx (ctxOf d)).staged, x.1 / 256 ≠ g → x ∈ (t.ctx (ctxOf d)).staged) ∧
    (∀ c, c ≠ ctxOf d → t.ctx c = s.ctx c) ∧ t.dict.nums = s.dict.nums ∧ t.map = s.map ∧ t.tier = s.tier) ∧
  (∀ (s : State) (d : Door), ∃ t : State, exec (.stageTimeoutExpiry d none) s = .next t ∧ (t.ctx (ctxOf d)).wbuf = none ∧
    (t.ctx (ctxOf d)).staged = (s.ctx (ctxOf d)).staged ∧ (∀ c, c ≠ ctxOf d → t.ctx c = s.ctx c) ∧
    t.dict.nums = s.dict.nums ∧ t.map = s.map ∧ t.tier = s.tier)

/-- R211: a sessionless request whose SEQ is in the reply cache of its source is answered with the cached reply and is not served
again: that frame leaves and nothing else happens, whatever the operation. -/
def Obligations.RetransmissionsAreAnsweredFromTheCache : Prop :=
  ∀ (s : State) (f : Frame) (w : List Byte) (n : Nat), s.run.dictServed = true → s.dict.fieldSilent = false →
    s.takesFrame f = true → frameAccepted f = true → f.session = 0 → (s.srcCache f.src).find? (fun c => c.1 == f.seq) = some (n, w) →
    ∀ c ∈ [Instr.read f, .write f, .readBlock f, .writeBlock f, .readStaged f, .commit f, .discard f, .wake f, .discover f,
        .sessionOpen f, .sessionClose f],
      exec c s = .next (said s (.frame f.src f.srcPort w)).onward

/-- Sessions, WAKE and DISCOVER (R213-R216): SESSION_OPEN with a set key slot opens one session of at most 4, whose key is the
HMAC-SHA-256 of the slot's key over "WELAIR1", the client's nonce, the T9's nonce and the session id, and replies with id and nonce
tagged with it; SESSION_CLOSE and the idle expiry end the session with its context; WAKE of a session asserts WAKE_N of the ports it
names in PAUSE and touches no other port; a DISCOVER reply waits for its time and then leaves. -/
def Obligations.SessionsWakeAndDiscover : Prop :=
  (∀ (s : State) (f : Frame), reaches s f → f.body.length = 17 → s.keySlotSet (field f.body 0 1) = true → s.dict.sessions.length < 4 →
    let id := s.freshSession
    let nt := slice (Config.nonce s.freeCtr) 0 16
    let key := hmacSha256 (s.blob 0x1800 (field f.body 0 1 + 1)) (ascii "WELAIR1" ++ f.body.drop 1 ++ nt ++ natLe 4 id)
    ∃ t : State, exec (.sessionOpen f) s = .next t.onward ∧ t.freeCtr = s.freeCtr + 1 ∧
      t.dict.sessions = s.dict.sessions ++ [⟨id, field f.body 0 1, key, f.src, 0, 0, []⟩] ∧
      t.out = s.out ++ [.frame f.src f.srcPort (tagged key (welair 0x11 3 0 0 f.seq f.index f.sub 0 f.offset (natLe 4 id ++ nt)))] ∧
      t.map = s.map ∧ t.tier = s.tier) ∧
  (∀ (s : State) (f : Frame) (x : Session),
    (reachesIn s 0x12 f x →
      ∃ t : State, exec (.sessionClose f) s = .next t.onward ∧ t.session x.id = none ∧
        (∀ c ∈ t.dict.ctxs, c.id ≠ .session x.id) ∧ t.map = s.map ∧ t.tier = s.tier) ∧
    (∀ b : Byte, Form s → reachesIn s 0x09 f x → s.run.state ≠ 4 → f.body = [b] →
      (∀ q < 8, b.getLsbD q = true → s.portPresent q = true) →
      ∃ t : State, exec (.wake f) s = .next t.onward ∧ (s.run.state = 3 → ∀ q < 4, b.getLsbD q = true → (t.port q).wake = true) ∧
        (∀ q < 4, b.getLsbD q = false → t.port q = s.port q) ∧ t.run = s.run ∧ t.map = s.map ∧ t.tier = s.tier)) ∧
  (∀ (s : State) (id : Nat), ∃ t : State, exec (.sessionIdleExpiry id) s = .next t ∧ t.session id = none ∧
    (∀ c ∈ t.dict.ctxs, c.id ≠ .session id) ∧ (∀ x ∈ s.dict.sessions, x.id ≠ id → x ∈ t.dict.sessions) ∧
    t.out = s.out ∧ t.map = s.map ∧ t.tier = s.tier) ∧
  (∀ (s : State) (f : Frame), reaches s f →
    exec (.discover f) s = .next ({ s with dict := { s.dict with discoverQ := s.dict.discoverQ ++ [(f.src, f.srcPort,
      welair 0x10 1 0 0 f.seq f.index f.sub 0 f.offset
        (slice s.part.mac 0 6 ++ natLe 1 s.part.nodeId ++ slice s.part.serial 0 8 ++ natLe 1 s.runCode))] } } : State).onward) ∧
  (∀ (s : State) (dst udp : Nat) (w : List Byte) (r : List (Nat × Nat × List Byte)), s.dict.discoverQ = (dst, udp, w) :: r →
    s.run.dictServed = true → s.dict.fieldSilent = false →
    ∃ t : State, exec .discoverReplyDelay s = .next t ∧ t.out = s.out ++ [.frame dst udp w] ∧ t.dict.discoverQ = r ∧ t.map = s.map ∧
      t.tier = s.tier)

/-- The field node (R208): it answers a Neighbor Solicitation for its address and an Echo Request, and after a duplicate address it
raises event 0x0126 and sends nothing further. -/
def Obligations.FieldNodeAnswers : Prop :=
  ∀ (s : State) (src : Nat) (payload : List Byte), s.run.dictServed = true → s.dict.fieldSilent = false →
    exec (.neighborSolicitation src s.address) s = .next (said s (.neighborAdvert src)) ∧
    exec (.echoRequest src payload) s = .next (said s (.echoReply src payload)) ∧
    (s.ev.full = false → ∃ t : State, exec (.fieldLinkUp true) s = .next t ∧ t.dict.fieldSilent = true ∧ reported t 0x0126 0xFF ∧
      t.fieldLive = false ∧ t.map = s.map ∧ t.tier = s.tier ∧
      ∀ f : Frame, exec (.read f) t = .next t ∧ exec (.echoRequest src payload) t = .next t)


/-! ### Objects with behaviour of their own, through a session (an authenticated field door, R215) -/

namespace Sys2Proof.Claims

/-- An open session of a T9 that is not in FALSE_START, on a door whose queue has room (R205). -/
def authentic (s : State) (id : Nat) : Prop :=
  s.doorOpen (.session id) = true ∧ s.run.state ≠ 4 ∧ s.fieldQueueFull = false

/-- A state after the command of a session was answered without an error, with the type of its object. -/
def granted (s : State) (id ty : Nat) : State := said s (.answer (.session id) 0 ty [])

end Sys2Proof.Claims

/-- EXTENT_RELEASE, VAULT_KEY, WINDOW_LOG2, REGION_BIB, PROBE_PAGE, PROBE_WINDOW, PROVISION_RATIO and CB_RETIRE (R35, R41, R64, R87,
R133, R172, R228): under the conditions the rule of each object states, the write is answered without an error and has that rule's
effect: the handle's release is recorded; the key and its check value are kept; the window, the bib, the probed page take their value
(through a window slot, the page it maps); the ratio is committed and no page moves; the version becomes retiring. -/
def Obligations.MemoryObjectsTakeEffect : Prop :=
  ∀ (s : State) (id : Nat), Form s → authentic s id →
    (∀ h < 2 ^ 32, s.mappedAt h = none →
      exec (.extentRelease (.session id) h) s = .next (granted (if s.map.releases.contains h then s
        else { s with map := { s.map with releases := s.map.releases ++ [h] } }) id 4).onward) ∧
    (∀ n < 64, ∀ key : List Byte, key.length = 64 → key.take 32 ≠ key.drop 32 →
      ((s.blob (0x1810 + n) 1).isEmpty = true ∨ ∀ x ∈ s.map.pages, s.region x.1 = n → x.2.st = 0) →
      (s.num (0x1810 + n) 3 = 0 ∨ s.num (0x1810 + n) 3 = vaultCheck key) →
      ∃ t : State, exec (.vaultKey (.session id) n key) s = .next t.onward ∧ t.blob (0x1810 + n) 1 = key ∧
        t.num (0x1810 + n) 3 = vaultCheck key ∧ t.dict.storePending = true ∧ t.map = s.map ∧ t.tier = s.tier ∧
        t.out = (granted s id 10).out) ∧
    (∀ p v, s.portPresent p = true → 30 ≤ v → v ≤ 44 → s.anyDecoder p = false →
      exec (.windowLog2 (.session id) p v) s = .next (granted (s.setNum (0x2200 + p) 1 v).touchP id 2).onward) ∧
    (∀ n < 64, ∀ b < 16,
      ∃ t : State, exec (.regionBib (.session id) n b) s = .next t.onward ∧ t.num (0x2100 + n) 8 = b ∧ t.dict.storePending = true ∧
        t.map = s.map ∧ t.tier.sprint = s.tier.sprint ∧ t.tier.dist = s.tier.dist ∧ t.out = (granted s id 2).out) ∧
    (∀ lpn < 2 ^ 32, lpn < 32 * s.map.extents →
      exec (.probePage (.session id) lpn) s = .next (granted (s.setNum 0x1330 1 lpn) id 4).onward) ∧
    (∀ p wp lpn, s.portPresent p = true → p < 4 → wp < s.windowPages p → wp < 2 ^ 28 → s.pageAt p wp = some lpn →
      exec (.probeWindow (.session id) (p * 2 ^ 28 + wp)) s = .next (granted (s.setNum 0x1330 1 lpn) id 4).onward) ∧
    (∀ v, 100 ≤ v → v ≤ 400 → (s.run.state = 1 ∨ s.run.state = 3) → s.ratioBad v = false →
      ∃ t : State, exec (.provisionRatio (.session id) v) s = .next t.onward ∧ t.num 0x2000 1 = v ∧ t.dict.storePending = true ∧
        t.map.pages = s.map.pages ∧ t.map.windows = s.map.windows ∧ t.map.extents = s.extentsFor v ∧
        t.tier.sprint = s.tier.sprint ∧ t.tier.dist = s.tier.dist ∧ Output.answer (.session id) 0 3 [] ∈ t.out) ∧
    (∀ n < 64, ∀ v < 16, ∀ c : CbVer, s.cb n v = some c → c.retiring = false → s.num (0x5100 + n) 4 ≠ 0 →
      (∀ x ∈ s.map.pages, s.region x.1 = n → (s.view x.1).carries v = false) →
      ∃ t : State, exec (.cbRetire (.session id) n v) s = .next t.onward ∧ t.cb n v = some { c with retiring := true } ∧
        (∀ w, w ≠ v → w < 16 → t.cb n w = s.cb n w) ∧ t.map = s.map ∧ t.tier = s.tier ∧ t.out = (granted s id 2).out)

/-- The ends of what these writes start, and the settling of the one-to-one case (R41, R62, R298): a recorded release whose pages no
move and no leg holds ends with every page of the extent UNWRITTEN, no copy kept and the handle no longer recorded; a retiring version
without pins leaves its slot with event 0x0321; while PROVISION_SETTLED is 0, PROVISION_SETTLE_MOVE raises a COMPACT or EVACUATE for
a page that lies in the distance tier alone and has no aligned run of 16 plots. -/
def Obligations.ReleasesRetirementsAndSettling : Prop :=
  (∀ (s : State) (h : Nat), Form s → h ∈ s.map.releases → (∀ i < 32, s.pageFree (h * 32 + i) = true) →
    ∃ t : State, exec (.extentReleaseDone h) s = .next t.onward ∧ (∀ i < 32, (t.page (h * 32 + i)).st = 0 ∧
        (t.page (h * 32 + i)).owner = (s.page (h * 32 + i)).owner) ∧
      (∀ lpn, handleOf lpn ≠ h → t.page lpn = s.page lpn) ∧ h ∉ t.map.releases ∧ t.map.windows = s.map.windows) ∧
  (∀ (s : State) (n v : Nat) (c : CbVer), Form s → s.cb n v = some c → c.retiring = true → s.pinned n v = false → s.ev.full = false →
    ∃ t : State, exec (.versionRetired n v) s = .next t.onward ∧ t.cb n v = none ∧ t.map = s.map ∧ t.tier = s.tier ∧
      ∃ e ∈ t.ev.ring, e.code = 0x0321 ∧ e.unit = unitRegion n ∧ e.detail = v) ∧
  (∀ (s : State) (lpn : Nat), s.core1Runs = true → s.map.settled = false → (s.page lpn).distOnly = true →
    s.placed (s.page lpn) = false → s.quiet lpn = true →
    ∃ t : State, exec (.provisionSettleMove lpn) s = .next t.onward ∧ t.map.pages = s.map.pages ∧ t.tier.dist = s.tier.dist ∧
      t.relay.items.map (·.id) = s.relay.items.map (·.id) ++ [s.nextId] ∧
      ∃ i, t.relay.items.getLast? = some i ∧ i.lpn = lpn ∧
        i.kind = (if (s.findRun (s.page lpn).channel 16 16).isSome then .compact else .evacuate))

/-- Run requests and soft resets (R224, R225, Tables 10.5 and 10.6): a PAUSE request in GO with no host request or descriptor under way
starts PAUSE entry once it is answered, and PAUSE_FORCED does so after treating every port as PERST_N does; a GO request in PAUSE
starts the way back through SET; SOFT_RESET halts a core, resets a port, or restarts the T9 through PAUSE entry, or from PAUSE and
FALSE_START at once. -/
def Obligations.RunRequestsAndSoftResets : Prop :=
  ∀ (s : State) (id : Nat), Form s → s.doorOpen (.session id) = true → s.fieldQueueFull = false → s.run.trans = .none →
    let u := granted s id 2
    let quietPorts := ∀ p < 4, s.portPresent p = true → s.portBusy p = false
    (s.run.state = 2 → quietPorts →
      (∃ t : State, exec (.runRequestPause (.session id)) s = .next t.onward ∧ t = u.pauseEntry false ∧ t.run.trans = .entering false ∧
        t.run.reqStatus = 1 ∧ t.map.pages = s.map.pages) ∧
      (∃ t : State, exec (.softResetDevice (.session id)) s = .next t.onward ∧ t = u.pauseEntry true ∧
        t.run.trans = .entering true ∧ t.map.pages = s.map.pages)) ∧
    (s.run.state = 2 →
      exec (.runRequestPauseForced (.session id)) s = .next (u.perstAll.pauseEntry false).onward ∧
      (∃ t : State, exec (.softResetDeviceForced (.session id)) s = .next t.onward ∧
        (∀ p < 4, s.portPresent p = true → (∀ j ∈ t.stride.jobs, j.port ≠ p) ∧ ∀ r ∈ t.reqs, ¬ (r.port = p ∧ r.isHost = true)) ∧
        t.run.trans = .entering true) ∧
      (∀ p, s.portPresent p = true →
        exec (.softResetPort (.session id) p) s = .next ((u.resetLink p .a false).resetLink p .b false).onward)) ∧
    (s.run.state = 3 →
      (∃ t : State, exec (.runRequestGo (.session id)) s = .next t.onward ∧ t.run.state = 1 ∧ t.run.startKind = 2 ∧
        t.run.fieldEn = true ∧ t.map = s.map ∧ t.tier.dist = s.tier.dist) ∧
      exec (.softResetDevice (.session id)) s = .next (u.softStart 1).onward) ∧
    (s.run.state = 4 → s.run.cause ≠ 0x0B01 → s.run.cause ≠ 0x0127 →
      ∃ t : State, exec (.softResetDevice (.session id)) s = .next t.onward ∧ t.run.state = 1 ∧ t.run.startKind = 3) ∧
    (∀ n, 1 ≤ n → n ≤ 3 → 1 ≤ s.run.state → s.run.state ≤ 3 → (s.core n).state = 0 → s.ev.full = false →
      s.dict.hook = none →
      ∃ t : State, exec (.softResetCore (.session id) n) s = .next t.onward ∧ (t.core n).state = 1 ∧
        (∀ k, k ≠ n → t.core k = s.core k) ∧ (∃ e ∈ t.ev.ring, e.code = 0x0B01 ∧ e.unit = unitCore n) ∧
        t.map = s.map ∧ t.tier = s.tier)

/-- Write-once objects and the persistent image (R202, R203): the first write of a write-once object waits for its store and is
answered when that is done, with the value in effect; a later write is refused with 0x22 and event 0x0122, the value unchanged; a store
goes to the older copy with the next sequence number, which is valid once it ends, and PERSIST_SYNC starts one or asks for the next. -/
def Obligations.WriteOnceAndPersistence : Prop :=
  (∀ (s : State) (id : Nat) (v : List Byte), authentic s id →
    ∀ k ∈ [(0x1000, 0x0A), (0x1801, 2), (0xA100, 5)],
      let ty := if k.1 = 0x1000 then 11 else 10
      ((if k.1 = 0x1000 then v.length ≤ 32 ∧ utf8From 0 0 0 v = true else v.length = 32) → s.onceSet k.1 k.2 = false →
        exec (.wonceWrite (.session id) k.1 k.2 v) s = .next ({ s with dict := { s.dict with
          waiting := s.dict.waiting ++ [⟨k.1, k.2, .session id, 2, 0, none, v, false⟩] } } : State).onward) ∧
      (v.length ≤ 32 → s.onceSet k.1 k.2 = true → s.ev.full = false →
        ∃ t : State, exec (.wonceWrite (.session id) k.1 k.2 v) s = .next t.onward ∧ lastOut s t (.answer (.session id) 0x22 ty []) ∧
          (∃ e ∈ t.ev.ring, e.code = 0x0122 ∧ e.aux = 0 ∧ e.detail = okey k.1 k.2) ∧ t.dict.wonce = s.dict.wonce ∧
          t.dict.waiting = s.dict.waiting ∧ t.map = s.map ∧ t.tier = s.tier) ∧
      (∀ w : Waiting, s.dict.waiting.find? (fun x => x.index == k.1 && x.sub == k.2) = some w → w.door = .session id →
        w.back = none → w.mute = false →
        exec (.wonceStoreDone k.1 k.2) s = .next (said { s with dict := { s.dict with
          waiting := s.dict.waiting.erase w, wonce := s.dict.wonce ++ [(okey k.1 k.2, w.value)] } }
          (.answer (.session id) 0 ty []))))
    ∧
  (∀ (s : State), s.dict.storeRunning = false → s.dict.storeQueued = false →
    let next := (max s.dict.flashA.seq s.dict.flashB.seq + 1) % 2 ^ 32
    let older := !s.dict.flashA.valid || (s.dict.flashB.valid && decide (s.dict.flashA.seq < s.dict.flashB.seq))
    let image : Flash := ⟨next, false, s.dict.nums.filter fun x => persists x.1, s.dict.blobs.filter fun x => persists x.1⟩
    let dict : DictSt := { s.dict with
      storeRunning := true, storePending := false
      flashA := if older then image else s.dict.flashA, flashB := if older then s.dict.flashB else image }
    let begun : State := { s with dict := dict }
    (s.run.dictServed = true → s.dict.storePending = true → exec .persistStoreStart s = .next begun) ∧
    exec .persistStoreDone begun = .next { s with dict := { dict with
      storeRunning := false, flashA := if older then { image with valid := true } else s.dict.flashA
      flashB := if older then s.dict.flashB else { image with valid := true } } } ∧
    (∀ id, authentic s id → exec (.persistSync (.session id) 1) s = .next (granted begun id 1).onward)) ∧
  (∀ (s : State) (id : Nat), authentic s id → s.dict.storeRunning = true →
    exec (.persistSync (.session id) 1) s =
      .next (granted { s with dict := { s.dict with storeQueued := true } } id 1).onward)

/-- Keys, trust and firmware objects (R217, R229, R230, R253, R254): a session key takes its slot and ends the sessions opened with it;
INFIELD_TRUST takes its value; a good Azmor image or policy module waits for its store and is answered when it is stored, a bad one is
refused with 0x61 (whether an Azmor image is good is log entry 13); a stored Azmor image lies in the bank not in use, to be tried first; a stored module replaces the old one and runs
when the policy is enabled. -/
def Obligations.KeysTrustAndImages : Prop :=
  (∀ (s : State) (id : Nat), Form s → authentic s id → (s.dict.sessions.map (·.id)).Nodup →
    (∀ slot < 4, ∀ key : List Byte, key.length = 32 →
      ∃ t : State, exec (.sessionKey (.session id) slot key) s = .next t.onward ∧
        t.blob 0x1800 (slot + 1) = (if allZero key then [] else key) ∧ (∀ x ∈ t.dict.sessions, x.slot ≠ slot) ∧
        (∀ x ∈ s.dict.sessions, x.slot ≠ slot → x ∈ t.dict.sessions) ∧ t.dict.storePending = true ∧ t.map = s.map ∧ t.tier = s.tier ∧
        t.out = (granted s id 10).out) ∧
    (∀ v ≤ 1, (v = 1 ∨ ∃ k < 4, s.keySlotSet k = true) →
      exec (.infieldTrust (.session id) v) s = .next (granted (s.setNum 0x1800 6 v).touchP id 1).onward)) ∧
  (∀ (s : State) (id : Nat) (image : List Byte), authentic s id →
    let waits := fun (t : State) (i j : Nat) => (∃ w : Waiting, t.dict.waiting = s.dict.waiting ++ [w] ∧ w.index = i ∧ w.sub = j ∧
      w.door = .session id ∧ w.back = none ∧ w.mute = false ∧ w.value = image) ∧ t.out = s.out ∧ t.map = s.map ∧ t.tier = s.tier
    (image.length ≤ 8388608 → Config.azmorOk s.part.azmorSigner image = true →
      ∃ t : State, exec (.azmorUpdate (.session id) image) s = .next t.onward ∧ waits t 0x8000 3) ∧
    (image.length ≤ 8388608 → Config.azmorOk s.part.azmorSigner image = false → Form s →
      ∃ t : State, exec (.azmorUpdate (.session id) image) s = .next t.onward ∧ t.num 0x8000 4 = 3 ∧
        lastOut s t (.answer (.session id) 0x61 12 []) ∧ t.dict.waiting = s.dict.waiting) ∧
    (∀ signer, image.length ≤ 262144 → s.onceValue 0x1801 2 = some signer → policyOk signer image = true →
      ∃ t : State, exec (.policyImage (.session id) image) s = .next t.onward ∧ waits t 0x8040 1)) ∧
  (∀ (s : State) (id : Nat) (w : Waiting), Form s → w.door = .session id → w.back = none → w.mute = false →
    (s.dict.waiting.find? (fun x => x.index == 0x8000 && x.sub == 3) = some w →
      ∃ t : State, exec .azmorImageStored s = .next t ∧ t.dict.azmorOther = w.value ∧ t.dict.azmorNew = true ∧
        t.dict.azmorRun = s.dict.azmorRun ∧ t.num 0x8000 4 = 2 ∧ t.out = s.out ++ [.answer (.session id) 0 12 []] ∧
        t.map = s.map ∧ t.tier = s.tier) ∧
    (s.dict.waiting.find? (fun x => x.index == 0x8040 && x.sub == 1) = some w → w.value ≠ [] →
      ∃ t : State, exec .policyImageStored s = .next t.onward ∧ t.dict.policy = w.value ∧
        t.dict.policyState = (if s.num 0x8040 3 = 1 then 2 else 1) ∧ Output.answer (.session id) 0 12 [] ∈ t.out)) ∧
  (∀ (s : State) (id v : Nat), Form s → authentic s id → v ≤ 1 → s.dict.hook = none →
    ∃ t : State, exec (.policyEnable (.session id) v) s = .next t.onward ∧ t.num 0x8040 3 = v ∧
      t.dict.policyState = (if s.dict.policy.isEmpty then 0 else if v = 1 then 2 else 1) ∧ t.map = s.map ∧
      t.tier = { s.tier with flows := t.tier.flows } ∧ t.out = (granted s id 1).out)

/-- R227: an event takes the ring's next sequence number; one that finds the ring full is lost, counted and sets EVT_OVERFLOW; EVT_ACK
frees the records below a value between EVT_OLDEST and EVT_NEXT and clears EVT_OVERFLOW, and any other value does nothing. -/
def Obligations.EventRing : Prop :=
  (∀ (s : State) (code unit aux detail : Nat), Form s → s.ev.full = false →
    ∃ (t : State) (e : Evt), s.raise code unit aux detail = t ∧ t.ev.ring = s.ev.ring ++ [e] ∧
      e.code = code ∧ e.unit = unit ∧ e.aux = aux ∧ e.detail = detail ∧ e.seq = s.ev.next ∧
      t.ev.next = (s.ev.next + 1) % 2 ^ 32 ∧ t.ev.oldest = s.ev.oldest ∧ t.map = s.map ∧ t.tier = s.tier) ∧
  (∀ (s : State) (code unit aux detail : Nat), Form s → s.ev.full = true →
    ∃ t : State, s.raise code unit aux detail = t ∧ t.ev.ring = s.ev.ring ∧ t.ev.overflow = true ∧ t.ev.next = s.ev.next ∧
      t.num 0x1300 8 = min (s.num 0x1300 8 + 1) 0xFFFFFFFFFFFFFFFF) ∧
  (∀ (s : State) (id v : Nat), Form s → authentic s id → v < 2 ^ 32 →
    let n := (v + 2 ^ 32 - s.ev.oldest) % 2 ^ 32
    ∃ t : State, exec (.evtAck (.session id) v) s = .next t.onward ∧ t.map = s.map ∧ t.tier = s.tier ∧
      t.out = (granted s id 4).out ∧
      (0 < n → n ≤ s.ev.ring.length → t.ev = { s.ev with ring := s.ev.ring.drop n, oldest := v, overflow := false }) ∧
      (n = 0 ∨ s.ev.ring.length < n → t.ev = s.ev))

/-- Telemetry, laps, the trackside mux and fault injection through their objects (R233-R236, R283, R284): TELEMETRY_CLEAR and
BIB_MON_CLEAR set their counters to 0 and nothing else; LAP_RUN starts a lap at once on an engine that is in service; TRACK_UNLOCK
with the value whose SHA-256 is the stored hash unlocks the mux with event 0x0A20 and TRACK_LOCK locks it; INJECT_ARM arms the one
fault that INJECT_UNIT and INJECT_KIND name. -/
def Obligations.TestObjectsTakeEffect : Prop :=
  ∀ (s : State) (id : Nat), Form s → authentic s id →
    (∃ t : State, exec (.telemetryClear (.session id) 1) s = .next t.onward ∧ (∀ i, 1 ≤ i → i ≤ 12 → t.num 0x1310 i = 0) ∧
      (∀ i j, i ≠ 0x1310 → j < 256 → t.num i j = s.num i j) ∧ t.map.discardReported = false ∧ t.map.pages = s.map.pages ∧ t.tier = s.tier ∧
      t.out = (granted s id 1).out) ∧
    (∀ b < 16, ∃ t : State, exec (.bibMonClear (.session id) b 1) s = .next t.onward ∧
      (∀ i, 4 ≤ i → i ≤ 8 → t.num (0x7040 + b) i = 0) ∧ (∀ i j, i ≠ 0x7040 + b → j < 256 → t.num i j = s.num i j) ∧ t.map = s.map ∧
      t.tier = s.tier ∧ t.bibs = s.bibs ∧ t.out = (granted s id 1).out) ∧
    (∀ e < 32, s.lapPresent e = true → s.inGo = true → s.run.trans = .none → s.test.lap = none → (s.lapEng e).fenced = false →
      exec (.lapRun (.session id) e) s = .next (granted (({ s with test := { s.test with lap := some ⟨e, true, false, false⟩ } } :
        State).modLapEng e fun g => { g with drained := true }) id 2).onward) ∧
    (∀ (v h : List Byte), v.length = 16 → s.onceValue 0xA100 5 = some h → s.part.debugEn = true → sha256 v = h → s.ev.full = false →
      ∃ t : State, exec (.trackUnlock (.session id) v) s = .next t.onward ∧ t.test.unlocked = true ∧ reported t 0x0A20 0xFF ∧
        t.map = s.map ∧ t.tier = s.tier) ∧
    (s.test.unlocked = true →
      exec (.trackLock (.session id) 1) s =
        .next (granted (said { s with test := { s.test with unlocked := false } } .dbgLow) id 1).onward ∧
      ∀ v ≤ 63, exec (.trackGroup (.session id) v) s = .next (granted (said (s.setNum 0xA100 3 v) .dbgLow) id 2).onward) ∧
    (s.injectFits (s.num 0xA200 1) (s.num 0xA200 2) = true → s.injectOut (s.num 0xA200 1) = false → s.test.inject = none →
      ∃ t : State, exec (.injectArm (.session id) 1) s = .next t.onward ∧
        t.test.inject = some ⟨s.num 0xA200 1, s.num 0xA200 2⟩ ∧ t.map = s.map ∧ t.tier = s.tier ∧ t.out = (granted s id 1).out)

/-! ### DRAM tiers -/

namespace Sys2Proof.Claims

/-- The record of an event that names a unit is in the ring. -/
def noted (t : State) (code unit : Nat) : Prop := ∃ e ∈ t.ev.ring, e.code = code ∧ e.unit = unit

/-- The ring has room for what one command can report before the event in question. -/
def ringRoom (s : State) : Prop := s.ev.ring.length < 1000

end Sys2Proof.Claims

/-- CHAN_MAP_OUT, CHANNEL_UNRESPONSIVE and EVACUATION_DRAINED (R153-R155): a readable channel that is mapped out evacuates with event
0x0401, and every page whose only copy lies on it has an EVACUATE item; once none is left and no move touches it, the channel is OUT
with event 0x0402 and pages with a second copy have lost the one there; an unresponsive channel is OUT at once with event 0x0401, and
a page that lay there alone becomes POISONED and keeps its owner. -/
def Obligations.ChannelsLeaveService : Prop :=
  ∀ (s : State) (c : Nat), Form s → c < 16 → ringRoom s →
    (∀ id, authentic s id → ((s.chan c).state = 2 ∨ (s.chan c).state = 3) →
      ∃ t : State, exec (.chanMapOut (.session id) c 1) s = .next t.onward ∧ (t.chan c).state = 4 ∧ (t.chan c).reason = 6 ∧
        noted t 0x0401 (unitChan c) ∧
        (∀ lpn, (s.page lpn).distOnly = true → (s.page lpn).channel = c → ∃ i ∈ t.relay.items, i.kind = .evacuate ∧ i.lpn = lpn) ∧
        (∀ k, k ≠ c → (t.chan k).state = (s.chan k).state) ∧ t.map.pages = s.map.pages ∧ t.tier.dist = s.tier.dist ∧
        t.tier.sprint = s.tier.sprint) ∧
    (∀ retrain : Bool, s.unitRuns (.dist c) = true →
      ∃ t : State, exec (.channelUnresponsive c retrain) s = .next t.onward ∧ (t.chan c).state = 5 ∧
        (t.chan c).reason = (if retrain then 2 else 5) ∧ (t.chan c).readable = false ∧ noted t 0x0401 (unitChan c) ∧
        (∀ lpn, (s.page lpn).distOnly = true → (s.page lpn).channel = c → s.moveOn lpn = none →
          (t.page lpn).st = 8 ∧ (t.page lpn).owner = (s.page lpn).owner) ∧
        (∀ lpn, ((s.page lpn).inDist = false ∨ (s.page lpn).channel ≠ c) → s.moveOn lpn = none → t.page lpn = s.page lpn)) ∧
    (s.inGo = true → (s.chan c).state = 4 → s.evacBusy c = false →
      ∃ t : State, exec (.evacuationDrained c) s = .next t.onward ∧ (t.chan c).state = 5 ∧ noted t 0x0402 (unitChan c) ∧
        (∀ lpn, (s.page lpn).st = 4 → (s.page lpn).channel = c →
          ((t.page lpn).st = 1 ∨ (t.page lpn).st = 2) ∧ (t.page lpn).slot = (s.page lpn).slot) ∧
        (∀ lpn, (t.page lpn).inDist = true → (t.page lpn).channel ≠ c ∨ (s.page lpn).st = 7) ∧ t.tier.sprint = s.tier.sprint) ∧
    (s.inGo = true → (s.chan c).state = 4 → s.evacBusy c = true →
      ∃ t : State, exec (.evacuationDrained c) s = .next t.onward ∧ t.tier.chans = s.tier.chans ∧ t.map.pages = s.map.pages)

/-- STACK_PC_MAP_OUT, PSEUDO_CHANNEL_FAILURE and PSEUDO_CHANNEL_DRAINED (R163): a readable pseudo-channel that is mapped out or fails
drains with event 0x0480, and every dirty page of it has a DEMOTE or WRITEBACK item; once no page there is dirty and no move touches
it, it is OUT with event 0x0481 and its clean pages have dropped their sprint copies; one that fails unreadable is OUT at once, and its
dirty pages are POISONED. -/
def Obligations.PseudoChannelsLeaveService : Prop :=
  ∀ (s : State) (st p : Nat), Form s → st ∈ s.stacks → p < 32 → ringRoom s →
    let drains := fun (t : State) => (t.pc st p).out = 1 ∧ noted t 0x0480 (unitPc st p) ∧
      (∀ x ∈ s.onPc st p, (s.view x.1).dirty = true → ∃ i ∈ t.relay.items, i.lpn = x.1 ∧ (i.kind = .demote ∨ i.kind = .writeback)) ∧
      t.map.pages = s.map.pages ∧ t.tier.sprint = s.tier.sprint ∧ t.tier.dist = s.tier.dist
    (∀ id, authentic s id → (s.pc st p).out = 0 →
      ∃ t : State, exec (.stackPcMapOut (.session id) st p) s = .next t.onward ∧ drains t) ∧
    (∀ reason, s.inGo = true → s.tier.slotsBuilt = true → (s.pc st p).out = 0 →
      (∃ t : State, exec (.pseudoChannelFailure st p reason true) s = .next t.onward ∧ drains t) ∧
      ∃ t : State, exec (.pseudoChannelFailure st p reason false) s = .next t.onward ∧ (t.pc st p).out = 2 ∧
        noted t 0x0481 (unitPc st p) ∧
        ∀ x ∈ s.onPc st p, (s.page x.1).dirty = true → s.moveOn x.1 = none → (t.page x.1).st = 8) ∧
    (s.inGo = true → (s.pc st p).out = 1 → (∀ x ∈ s.onPc st p, (s.view x.1).dirty = false) →
      (∀ m ∈ s.relay.moves, m.onPc st p = false) →
      ∃ t : State, exec (.pseudoChannelDrained st p) s = .next t.onward ∧ (t.pc st p).out = 2 ∧ noted t 0x0481 (unitPc st p) ∧
        (∀ x ∈ s.onPc st p, t.page x.1 = (s.page x.1).lostSprint) ∧
        (∀ lpn, (∀ x ∈ s.onPc st p, x.1 ≠ lpn) → t.page lpn = s.page lpn))

/-- Refresh, temperatures and self-refresh (R144-R146, R160): a refresh of a running channel or pseudo-channel is counted; a poll keeps
each reading, and the high-temperature flag is set above 85 and cleared at 83 or below, with event 0x0405 or 0x0483 when it changes;
an idle channel that may enters self-refresh, and in PAUSE one that the maintenance port has left, and leaves it by SR_EXIT_DONE;
CHAN_SR_POLICY 2 takes a channel out of it. Channels are polled in GO and PAUSE alone. -/
def Obligations.RefreshTemperatureAndSelfRefresh : Prop :=
  (∀ (s : State) (c : Nat), Form s → c < 16 →
    (s.inGo = true → ((s.chan c).state = 2 ∨ (s.chan c).state = 4) → s.armed (unitChan c) 0x23 = false →
      exec (.refresh c) s = .next (s.modChan c fun x => { x with refreshes := x.refreshes + 1 }).onward) ∧
    ((s.inGo = true ∧ s.srForbidden c = false ∨ s.run.state = 3) → (s.chan c).state = 2 → (s.chan c).q.reads = [] →
      (s.chan c).q.writes = [] → (∀ f ∈ s.tier.flows, f.unit ≠ .dist c) →
      exec (.srIdleEntry c) s = .next (s.modChan c fun x => { x with state := 3 })) ∧
    ((s.chan c).state = 3 → (s.chan c).exiting = true →
      exec (.srExitDone c) s = .next (s.modChan c fun x => { x with state := 2, exiting := false, busyAt := s.now }).onward) ∧
    (∀ id, ∀ v ≤ 2, authentic s id →
      ∃ t : State, exec (.chanSrPolicy (.session id) c v) s = .next t.onward ∧ t.num (0x4000 + 0x10 * c) 4 = v ∧
        (v = 2 → (s.chan c).state = 3 → s.inGo = true → (t.chan c).exiting = true) ∧ (∀ k, (t.chan k).state = (s.chan k).state) ∧
        t.map = s.map ∧ t.tier.dist = s.tier.dist ∧ t.out = (granted s id 2).out)) ∧
  (∀ (s : State) (temps : List (Option Int)), Form s → temps.length = 16 → ringRoom s →
    (s.run.state ≠ 2 ∧ s.run.state ≠ 3 → exec (.thermalPoll temps) s = .next s) ∧ ((s.run.state = 2 ∨ s.run.state = 3) →
    ∃ t : State, exec (.thermalPoll temps) s = .next t ∧ ∀ c < 16,
      (∀ v, temps[c]? = some (some v) → (t.chan c).temp = v ∧ (85 < v → (t.chan c).hot = true) ∧ (v ≤ 83 → (t.chan c).hot = false) ∧
        (83 < v → v ≤ 85 → (t.chan c).hot = (s.chan c).hot) ∧ ((t.chan c).hot ≠ (s.chan c).hot → noted t 0x0405 (unitChan c))) ∧
      (temps[c]? = some none → (t.chan c).temp = -32768 ∧ (t.chan c).hot = (s.chan c).hot))) ∧
  (∀ (s : State) (st p : Nat), Form s → st ∈ s.stacks →
    (s.tier.slotsBuilt = true → p < 32 →
      exec (.sprintRefresh st p) s = .next (s.modPc st p fun x => { x with refreshes := x.refreshes + 1 })) ∧
    (∀ v : Int, s.run.fieldPg = true → s.tier.stackTemp.length = 8 → s.tier.stackHot.length = 8 → ringRoom s →
      ∃ t : State, exec (.stackTempChange st v) s = .next t ∧ nth t.tier.stackTemp 0 st = v ∧
        (85 < v → nth t.tier.stackHot false st = true) ∧ (v ≤ 83 → nth t.tier.stackHot false st = false) ∧
        (83 < v → v ≤ 85 → nth t.tier.stackHot false st = nth s.tier.stackHot false st) ∧
        (nth t.tier.stackHot false st ≠ nth s.tier.stackHot false st → noted t 0x0483 (unitPc st 0)) ∧
        (∀ k, k ≠ st → nth t.tier.stackTemp 0 k = nth s.tier.stackTemp 0 k) ∧ t.map = s.map))

/-- Bursts, scrubbing, filling, training sweeps and march tests (R138a, R139, R143, R148, R162, R282): on a pseudo-channel the burst is
of a legal entry with no older entry of its granule, and of those one of the highest rank, an entry past the age limit before every
level, and a corrected read is counted; a scrub of a place that holds something waits at level 0 as reads of its granules, unless the
channel is in self-refresh and not overdue; the zeros of the next data plot of a channel wait at level 0, and once the last has been
written the plot is filled; a sweep runs once asked for and its results are kept; a march test withdraws free plots while it runs and gives
them back, and a failure maps the channel out with event 0x0A02. -/
def Obligations.BurstsScrubsFillsAndTests : Prop :=
  (∀ (s : State) (st p : Nat) (legal hits : List Nat), Form s → s.inGo = true → (s.pc st p).out ≠ 2 → s.test.inject = none →
    let u : DramUnit := .pc st p
    let q := (s.pc st p).q
    let can := fun (e : QEnt) => e ∈ q.reads ++ q.writes ∧ legal.contains e.id = true ∧
      ∀ x ∈ q.reads ++ q.writes, x.granule = e.granule → e.id ≤ x.id
    let rank := fun (e : QEnt) => if s.num 0x4880 1 ≤ s.now - e.arrival then 8 else s.entLevel q e
    (∃ e, can e) → ∃ (t : State) (e : QEnt), exec (.dramBurstDone u legal hits .clean) s = .next t.onward ∧ can e ∧
      (∀ x, can x → rank x ≤ rank e) ∧ (t.pc st p).q = q.remove e ∧ t.tier.sprint = s.tier.sprint ∧ t.tier.dist = s.tier.dist ∧
      t.map.pages = s.map.pages) ∧
  (∀ (s : State) (st p : Nat) (e : QEnt), Form s → s.inGo = true → (s.pc st p).out ≠ 2 → s.test.inject = none →
    (s.pc st p).q.reads = [e] → (s.pc st p).q.writes = [] → e.write = false → (∀ id, e.owner ≠ .req id) →
    ∃ t : State, exec (.dramBurstDone (.pc st p) [e.id] [] .corrected) s = .next t.onward ∧
      t.num (0x4800 + 0x10 * st) 5 = min (s.num (0x4800 + 0x10 * st) 5 + 1) 0xFFFFFFFFFFFFFFFF ∧
      t.map.pages = s.map.pages ∧ t.tier.sprint = s.tier.sprint ∧ t.tier.dist = s.tier.dist) ∧
  (∀ (s : State) (c place : Nat), Form s → c < 16 → s.inGo = true → s.test.inject = none →
    (s.unitRuns (.dist c) = true → s.scrubbed (.dist c) place = true →
      (s.scrubSkips (.dist c) = false →
        exec (.patrolScrub (.dist c) place) s = .next ((s.modChan c fun x => { x with
          scrubAt := s.now, busyAt := s.now, exiting := x.exiting || x.state == 3 }).addFlow .scrub (.dist c) false (64 * place) 64
            none none).onward) ∧
      (s.scrubSkips (.dist c) = true → exec (.patrolScrub (.dist c) place) s = .next s.onward)) ∧
    (s.pausing = false → s.fillDone c = false → (s.chan c).filling = false → s.unitRuns (.dist c) = true →
      ∃ t : State, exec (.backgroundFill c) s = .next t.onward ∧ (t.chan c).filling = true ∧ (t.chan c).fillPos = (s.chan c).fillPos ∧
        t.tier.flows = s.tier.flows ++
          [⟨s.nextId, .fill, .dist c, true, 64 * (s.chan c).fillPos, 64, none, none, false⟩] ∧
        t.tier.dist = s.tier.dist ∧ t.tier.sprint = s.tier.sprint ∧ t.map.pages = s.map.pages) ∧
    (∀ e : QEnt, ((s.chan c).state = 2 ∨ (s.chan c).state = 4) → (s.chan c).filling = true → (s.chan c).q.reads = [] →
      (s.chan c).q.writes = [e] → (s.chan c).q.needRead = false → e.write = true → e.owner = .fill →
      (∀ f ∈ s.tier.flows, f.owner ≠ .fill ∨ f.unit ≠ .dist c) →
      ∃ t : State, exec (.dramBurstDone (.dist c) [e.id] [] .clean) s = .next t.onward ∧
        (t.chan c).fillPos = (s.chan c).fillPos + 1 ∧ (t.chan c).filling = false ∧
        t.tier.dist.readN (plotAddr c (s.chan c).fillPos) 4096 = List.replicate 4096 0 ∧
        (∀ a, (a < plotAddr c (s.chan c).fillPos ∨ plotAddr c (s.chan c).fillPos + 4096 ≤ a) →
          t.tier.dist.read a = s.tier.dist.read a) ∧ t.tier.sprint = s.tier.sprint ∧ t.map.pages = s.map.pages)) ∧
  (∀ (s : State) (c : Nat), Form s → c < 16 →
    (∀ id, authentic s id → ((s.chan c).state = 1 ∨ (s.chan c).state = 5) → (s.chan c).trnStatus ≠ 1 →
      exec (.trnRun (.session id) c 1) s = .next (granted (s.modChan c fun x => { x with trnStatus := 1 }) id 1).onward) ∧
    (∀ errors passMap : List Byte, (s.chan c).trnStatus = 1 → errors.length = 160 → passMap.length = 2560 →
      ∃ t : State, exec (.trnSweepDone c errors passMap) s = .next t ∧ (t.chan c).trnStatus = 2 ∧
        t.blob (0x4003 + 0x10 * c) 0x0B = errors ∧ t.blob (0x4004 + 0x10 * c) 2 = passMap ∧ t.map = s.map)) ∧
  (∀ (s : State) (c : Nat), Form s → c < 16 → s.inGo = true → s.test.inject = none →
    (s.candidate (.dist c) = true → (∀ m ∈ s.tier.march, m.1 ≠ .dist c) →
      ∃ (t : State) (sp : List Space), exec (.marchTestStart (.dist c)) s = .next t.onward ∧
        t.tier.march = s.tier.march ++ [(.dist c, sp)] ∧ sp.length ≤ 64 ∧
        (∀ x ∈ sp, ∃ r, x = .run r false ∧ r.chan = c ∧ r.len = 1 ∧ r ∈ t.tier.runs ∧ ∀ k ∈ s.tier.runs, r.meets k = false) ∧
        t.map.pages = s.map.pages) ∧
    (∀ sp : List Space, s.tier.march.find? (fun m => m.1 == .dist c) = some (.dist c, sp) → ringRoom s →
      (∃ t : State, exec (.marchTestDone (.dist c) true) s = .next t.onward ∧ (∀ m ∈ t.tier.march, m.1 ≠ .dist c) ∧
        (∀ r pooled, Space.run r pooled ∈ sp → r ∉ t.tier.runs) ∧ t.map.pages = s.map.pages) ∧
      (((s.chan c).state = 2 ∨ (s.chan c).state = 3) →
        ∃ t : State, exec (.marchTestDone (.dist c) false) s = .next t.onward ∧ (t.chan c).state = 4 ∧ (t.chan c).reason = 7 ∧
          ∃ e ∈ t.ev.ring, e.code = 0x0A02)))

/-! ### Relay engines -/

namespace Sys2Proof.Claims

/-- A running item that serves a CXL read whose bytes have been read, on a port that answers. -/
def serving (s : State) (id : Nat) (k : ItemKind) (it : Item) (r : Req) (tag : Nat) : Prop :=
  s.item id = some it ∧ it.kind = k ∧ it.running = true ∧ it.req = some r.id ∧ s.req r.id = some r ∧ r.stage = .item ∧
  r.src = .cxl tag ∧ s.muted r.port = false ∧ s.onesOnly r.port = false

/-- The read of an item has completed with data: it and the item have left, and no memory or map has changed. -/
def readServed (s t : State) (id : Nat) (r : Req) (tag : Nat) (data : List Byte) : Prop :=
  lastOut s t (.cxlData r.port r.link tag data false) ∧ (∀ x ∈ t.reqs, x.id ≠ r.id) ∧ (∀ i ∈ t.relay.items, i.id ≠ id) ∧
  t.tier = s.tier ∧ t.map.pages = s.map.pages

/-- A move of a page under way in GO whose destination has been read back without a bad block, with no fault injected. -/
def sound (s : State) (id : Nat) (m : Move) : Prop :=
  s.inGo = true ∧ s.move id = some m ∧ s.moveOn m.item.lpn = some m ∧ m.inject = 0 ∧ m.step = 5 ∧ m.dstBad = []

/-- A move has ended, with its item. -/
def moveGone (t : State) (m : Move) : Prop := (∀ x ∈ t.relay.moves, x.id ≠ m.id) ∧ ∀ i ∈ t.relay.items, i.id ≠ m.item.id

end Sys2Proof.Claims

/-- ITEM_START, EXPAND_DONE, XTS_DONE, BYPASS_DONE and UNSEAL_DONE (R52, R71, R74, R79, R82, R86): the item of the highest rank that
has its credits starts, with the reads of its granules; a promotion takes a slot and writes its journal entry; a coded block whose checks pass is expanded and the read
completes with its bytes, a vault block with the decrypted ones, a bypass read with those of the packed copy, counted; an UNSEAL leaves
the block RAW in its place with the same contents. -/
def Obligations.RelayItemsRun : Prop :=
  (∀ (s : State) (e : Nat) (it : Item), s.inGo = true → e < 16 → s.relayOpen e = true →
    bestBy s.itemBefore (s.relay.items.filter fun i => i.engine == some e && !i.running && s.served i && decide (i.age ≤ s.now)) = some it →
    s.canStart e it = true →
    (isMove it.kind = false → it.kind ≠ .bypass →
      exec (.itemStart e) s = .next ((s.modItem it.id fun i => { i with running := true }).itemReads it).onward) ∧
    ((it.kind = .expand ∨ it.kind = .xts ∨ it.kind = .copyIn) →
      exec (.itemStart e) s = .next (s.modItem it.id fun i => { i with running := true }).onward) ∧
    (∀ sl, Form s → it.kind = .promote → s.moveOn it.lpn = none → (s.page it.lpn).st = 3 → s.pausing = false → s.test.inject = none →
      s.pickSlot (s.page it.lpn).home = some sl →
      ∃ (t : State) (m : Move), exec (.itemStart e) s = .next t.onward ∧ m ∈ t.relay.moves ∧ m.item.lpn = it.lpn ∧ m.slot = some sl ∧
        m.prior = s.page it.lpn ∧ m.step = 1 ∧ t.map.pages = s.map.pages ∧
        slotKey (s.page it.lpn).home sl ∈ t.tier.slotsUsed ∧ t.tier.sprint = s.tier.sprint ∧ t.tier.dist = s.tier.dist)) ∧
  (∀ (s : State) (id tag : Nat) (it : Item) (r : Req), serving s id .expand it r tag → r.entry.st ≠ 6 →
    s.blockFails r.lpn r.entry r.blk r.rdata = none →
    ∃ t : State, exec (.expandDone id) s = .next t.onward ∧
      readServed s t id r tag (slice (s.plain r.lpn r.entry r.blk r.rdata) r.off r.len)) ∧
  (∀ (s : State) (id tag : Nat) (it : Item) (r : Req) (key : List Byte), serving s id .xts it r tag → r.write = false →
    s.vaultKey r.lpn = some key →
    ∃ t : State, exec (.xtsDone id) s = .next t.onward ∧
      readServed s t id r tag (r.ofUnits (vaultCrypt false key r.lpn r.blk (r.off / 16 * 16) r.rdata))) ∧
  (∀ (s : State) (id tag : Nat) (it : Item) (r : Req), Form s → serving s id .bypass it r tag → r.entry.st ≠ 6 →
    (s.dramQ (.dist r.entry.channel)).holds r.id = false → s.blockFails r.lpn r.entry r.blk r.rdata = none →
    ∃ t : State, exec (.bypassDone id) s = .next t.onward ∧
      readServed s t id r tag (slice (s.plain r.lpn r.entry r.blk r.rdata) r.off r.len) ∧
      t.num 0x5010 6 = min (s.num 0x5010 6 + 1) 0xFFFFFFFFFFFFFFFF ∧ (t.use r.lpn).bypasses = (s.use r.lpn).bypasses + 1) ∧
  (∀ (s : State) (id : Nat) (it : Item), Form s → s.item id = some it → it.kind = .unseal → it.running = true → it.blk < 32 →
    ((s.page it.lpn).st = 2 ∨ (s.page it.lpn).st = 4 ∨ (s.page it.lpn).st = 5) → (s.page it.lpn).gran.length = 32 →
    isCoded ((s.page it.lpn).code it.blk) = true → s.busy id = false →
    let e := s.page it.lpn
    let bytes := s.plain it.lpn e it.blk (s.sprintBlock e it.blk)
    s.blockFails it.lpn e it.blk (s.sprintBlock e it.blk) = none → bytes.length = 2048 →
    ∃ t : State, exec (.unsealDone id) s = .next t.onward ∧ (t.page it.lpn).code it.blk = 15 ∧
      t.sprintBlock (t.page it.lpn) it.blk = bytes ∧ (∀ b, b ≠ it.blk → (t.page it.lpn).code b = e.code b) ∧
      ((t.page it.lpn).st = 5 ↔ e.st = 4 ∨ e.st = 5) ∧ (∀ lpn, lpn ≠ it.lpn → t.page lpn = s.page lpn) ∧
      t.num 0x5010 0x0A = min (s.num 0x5010 0x0A + 1) 0xFFFFFFFFFFFFFFFF ∧ t.tier.dist = s.tier.dist)

/-- MOVE_SWITCH, SEAL_CLOSE, SEAL_CLOSE_LIMIT, SEAL_IDLE_TIMER and SPACE_FREED (R30, R31, R75, R76, R78): a move whose journal entry
has drained has its page IN_TRANSIT while it reads its source, and goes on to its destination and the read-back as each step's granules
are through; a promotion read back whole ends in state BOTH with its blocks in the slot, and one whose page was TOUCHED returns the page to its prior state; a seal ends
in its new slot, every block never written still unwritten; one that misses its close limit is abandoned and raised again; a
SPRINT_RAW page that stays unwritten is sealed; freed space returns once no reader is left. -/
def Obligations.MovesAndSeals : Prop :=
  (∀ (s : State) (id : Nat) (m : Move), Form s → s.move id = some m → s.moveOn m.item.lpn = some m → s.busy id = false →
    let t := s.stepMove id
    (m.step = 1 → s.journalWaits m.item.lpn = false →
      (m.switches = true → (s.page m.item.lpn).st ≠ 6 → (t.page m.item.lpn).st = 7 ∧ (t.page m.item.lpn).touched = false) ∧
      (m.switches = false ∨ (s.page m.item.lpn).st = 6 → t.map.pages = s.map.pages) ∧ (t.move id).map (·.step) = some 2) ∧
    (m.step = 2 → s.copyFault m.item.lpn (s.view m.item.lpn) m.fromDist m.srcBad = none → (t.move id).map (·.step) = some 3) ∧
    (m.step = 3 ∨ m.step = 4 → (t.move id).map (·.step) = some (m.step + 1) ∧ t.map.pages = s.map.pages)) ∧
  (∀ (s : State) (id sl : Nat) (m : Move), Form s → sound s id m → m.item.kind = .promote → m.slot = some sl →
    m.prior.st = 3 → (s.page m.item.lpn).st = 7 → m.prior.home = (s.page m.item.lpn).home →
    (∀ b < 32, (s.page m.item.lpn).code b ≤ 15) →
    ((s.page m.item.lpn).touched = false →
      ∃ t : State, exec (.moveSwitch id) s = .next t.onward ∧
        t.page m.item.lpn = { s.page m.item.lpn with st := 4, slot := sl, touched := false } ∧
        (∀ b < 32, t.sprintBlock (t.page m.item.lpn) b = s.distBlock (s.page m.item.lpn) b) ∧ moveGone t m ∧
        t.num 0x1310 7 = min (s.num 0x1310 7 + 1) 0xFFFFFFFFFFFFFFFF ∧ t.tier.dist = s.tier.dist ∧
        (∀ lpn, lpn ≠ m.item.lpn → t.page lpn = s.page lpn)) ∧
    ((s.page m.item.lpn).touched = true →
      ∃ t : State, exec (.moveSwitch id) s = .next t.onward ∧
        t.page m.item.lpn = { s.page m.item.lpn with st := 3, touched := false } ∧ moveGone t m ∧
        t.num 0x5010 3 = min (s.num 0x5010 3 + 1) 0xFFFFFFFFFFFFFFFF ∧ t.tier.sprint = s.tier.sprint ∧ t.tier.dist = s.tier.dist)) ∧
  (∀ (s : State) (id sl : Nat) (m : Move), Form s → m.item.kind = .sealing → m.slot = some sl →
    (sound s id m → s.cbvOpen m = true → ((s.page m.item.lpn).st = 1 ∨ (s.page m.item.lpn).st = 2 ∨ (s.page m.item.lpn).st = 5) →
      ∃ t : State, exec (.sealClose id) s = .next t.onward ∧ (t.page m.item.lpn).slot = sl ∧ (t.page m.item.lpn).touched = false ∧
        (∀ b < 32, nth (t.page m.item.lpn).gran 0 b = 0 ↔ (s.page m.item.lpn).code b = 0) ∧
        ((t.page m.item.lpn).st = 5 ↔ (s.page m.item.lpn).st = 5) ∧
        ((t.page m.item.lpn).st = 2 → (t.page m.item.lpn).anyCoded = true) ∧ moveGone t m ∧
        t.num 0x5010 5 = min (s.num 0x5010 5 + 1) 0xFFFFFFFFFFFFFFFF ∧ (∀ lpn, lpn ≠ m.item.lpn → t.page lpn = s.page lpn)) ∧
    (s.inGo = true → s.move id = some m → (s.page m.item.lpn).st ≠ 7 → m.item.id < s.nextId →
      ∃ t : State, exec (.sealCloseLimit id) s = .next t.onward ∧ moveGone t m ∧
        t.page m.item.lpn = { s.page m.item.lpn with touched := false } ∧ (∃ i ∈ t.relay.items, i.kind = .sealing ∧ i.lpn = m.item.lpn) ∧
        t.tier.sprint = s.tier.sprint ∧ t.tier.dist = s.tier.dist)) ∧
  (∀ (s : State) (lpn : Nat), s.inGo = true → (s.page lpn).st = 1 → s.sealPending lpn = false → s.region lpn < 64 →
    ∃ t : State, exec (.sealIdleTimer lpn) s = .next t.onward ∧
      (∃ i ∈ t.relay.items, i.kind = .sealing ∧ i.lpn = lpn ∧ i.bib = (s.use lpn).lastBib) ∧ t.map = s.map ∧ t.tier = s.tier) ∧
  (∀ (s : State) (ticket st sl : Nat) (d : Deferred), s.tier.deferred.find? (fun x => x.ticket == ticket) = some d →
    d.space = .slot st sl → (∀ r ∈ s.reqs, r.stage = .dram ∨ r.stage = .item ∨ r.stage = .queue → r.id ∉ d.readers) →
    (∀ l ∈ s.stride.legs, l.done = false → l.id ∉ d.readers) →
    ∃ t : State, exec (.spaceFreed ticket) s = .next t.onward ∧ slotKey st sl ∉ t.tier.slotsUsed ∧
      (∀ x ∈ t.tier.deferred, x.ticket ≠ ticket) ∧ (∀ k ∈ s.tier.slotsUsed, k ≠ slotKey st sl → k ∈ t.tier.slotsUsed) ∧
      t.map = s.map ∧ t.tier.sprint = s.tier.sprint ∧ t.tier.dist = s.tier.dist)

/-- BUILD_DONE, REBUILD_REQUEST, RELAY_ENGINE_FAILURE, LAST_RELAY_ENGINE_FAILURE, PROMOTE_SLOT_WAIT, SLOT_CREDIT_GRANT and
BACKING_TIMEOUT (R12, R37, R65, R77, R81, R88, R278, R279): a build of blocks that pass their checks makes the next version live with event 0x0320 and ends its request;
a rebuild is requested while the mean of ESCAPEs stands above its mark; an engine that fails is fenced with event 0x0411 and keeps no
work, but the last one stays in service with event 0x0413 and its items wait to run again; a read whose promotion finds no slot becomes
a bypass read; a granted slot backs the write's page; a write held past its time below the low mark loses its page, which is POISONED
with event 0x0207. -/
def Obligations.BuildsFailuresAndCredits : Prop :=
  (∀ (s : State) (id : Nat) (it : Item), Form s → s.item id = some it → it.kind = .build → it.running = true → ringRoom s →
    s.busy id = false → (∀ l ∈ s.sealRecord it.blk, s.copyFault l (s.view l) (!(s.view l).inSprint) [] = none) →
    let n := it.blk
    let k := mget s.relay.cbNums 0 n + 1
    let set := buildSet (s.num (0x2100 + n) 3) (s.num (0x5100 + n) 1) (s.num (0x5100 + n) 2) (s.num (0x5100 + n) 3)
      ((s.sealRecord n).map s.buildPage)
    ∃ t : State, exec (.buildDone id) s = .next t.onward ∧ t.cb n (k % 16) = some ⟨k, set, false⟩ ∧ noted t 0x0320 (unitRegion n) ∧
      (∀ b ∈ t.relay.builds, b.region ≠ n) ∧ t.map = s.map ∧ t.tier.sprint = s.tier.sprint ∧ t.tier.dist = s.tier.dist) ∧
  (∀ (s : State) (n : Nat), s.core1Runs = true → n < 64 → s.buildable n = true → s.escapesHigh n = true →
    ∃ t : State, exec (.rebuildRequest n) s = .next t.onward ∧ (∃ b ∈ t.relay.builds, b.region = n) ∧ t.map = s.map ∧ t.tier = s.tier) ∧
  (∀ (s : State) (e : Nat), Form s → e < 16 → s.inGo = true → (s.relayEng e).fenced = false → ringRoom s →
    (2 ≤ s.unfenced →
      ∃ t : State, exec (.relayEngineFailure e) s = .next t.onward ∧ (t.relayEng e).fenced = true ∧ noted t 0x0411 (unitRelay e) ∧
        (∀ i ∈ t.relay.items, i.engine ≠ some e) ∧ (∀ m ∈ t.relay.moves, m.item.engine ≠ some e) ∧
        (∀ k, k ≠ e → t.relayEng k = s.relayEng k) ∧ t.tier.sprint = s.tier.sprint ∧ t.tier.dist = s.tier.dist) ∧
    (s.unfenced = 1 → (s.relay.items.map (·.id)).Nodup → (∀ i ∈ s.relay.items, i.engine = some e → i.running = true → i.fails < 2) →
      ∃ t : State, exec (.lastRelayEngineFailure e) s = .next t.onward ∧ t.relay.engines = s.relay.engines ∧
        noted t 0x0413 (unitRelay e) ∧ (∀ i ∈ s.relay.items, i.engine = some e → i.running = true →
          ∃ x ∈ t.relay.items, x.id = i.id ∧ x.running = false ∧ x.engine = some e ∧ x.fails = i.fails + 1) ∧
        t.tier.sprint = s.tier.sprint ∧ t.tier.dist = s.tier.dist)) ∧
  (∀ (s : State) (id : Nat) (r : Req), s.req id = some r → r.write = false → r.stage = .promotion → s.moveOn r.lpn = none →
    ∃ t : State, exec (.promoteSlotWait id) s = .next t.onward ∧ (∀ i ∈ t.relay.items, ¬ (i.kind = .promote ∧ i.lpn = r.lpn)) ∧
      (∃ i ∈ t.relay.items, i.kind = .bypass ∧ i.req = some id) ∧ (∃ x, t.req id = some x ∧ x.stage = .item) ∧
      t.map = s.map ∧ t.tier = s.tier) ∧
  (∀ (s : State) (id sl : Nat) (r : Req), Form s → s.inGo = true → s.req id = some r → r.write = true → r.stage = .slot →
    r.poison = false → r.lpn ≠ noPage → (s.page r.lpn).st = 0 → r.entry.owner = r.port → s.isVault r.lpn = false →
    s.pausing = false → s.withheld r.bib = false → s.slotOlder r (s.homeFor r.lpn) = false → s.pickSlot (s.homeFor r.lpn) = some sl →
    (∀ m ∈ s.relay.moves, m.hasSpace = true) →
    ∃ t : State, exec (.slotCreditGrant id) s = .next t.onward ∧ (t.page r.lpn).st = 1 ∧ (t.page r.lpn).slot = sl ∧
      (t.page r.lpn).home = s.homeFor r.lpn ∧ slotKey (s.homeFor r.lpn) sl ∈ t.tier.slotsUsed ∧
      (∀ lpn, lpn ≠ r.lpn → t.page lpn = s.page lpn) ∧ t.tier.dist = s.tier.dist) ∧
  (∀ (s : State) (id : Nat) (r : Req), Form s → s.req id = some r → s.waitsForSpace r = true → s.core1Runs = true →
    s.unregulated = false → s.below (2 * s.num 0x2000 4) = true → ringRoom s →
    ∃ t : State, exec (.backingTimeout id) s = .next t.onward ∧ (t.page r.lpn).st = 8 ∧ (∃ e ∈ t.ev.ring, e.code = 0x0207 ∧ e.page = r.lpn) ∧
      (∀ x ∈ t.reqs, x.id ≠ id) ∧ t.num 0x1310 0x0A = min (s.num 0x1310 0x0A + 1) 0xFFFFFFFFFFFFFFFF)

/-- Firmware choices and policy hooks (R30, R82, R83, R133, R253, R254, section 4.6): the idle quiet pages offered for demotion are
demoted while slots are short; a reclaimed slot leaves the page with its distance copy; an epoch promotes the pages read past the
mark, unless a policy module makes that choice, and clears the counters; a hook call puts core 3 into user mode at the module's entry
with g3 at the top of policy SRAM, or waits for a window; a reply in time ends it, and a missed deadline is a policy fault with event 0x0B10, the third within
60 s disabling the module. -/
def Obligations.FirmwareChoicesAndPolicyHooks : Prop :=
  (∀ (s : State) (lpns : List Nat), s.core1Runs = true → (s.slotsLow = true ∨ s.below (2 * s.num 0x2000 4) = true) →
    ∃ t : State, exec (.demotionChoice lpns) s = .next t.onward ∧ t.map = s.map ∧ t.tier = s.tier ∧
      ∀ lpn ∈ lpns, s.quiet lpn = true → s.demoteReady lpn = true → moveFits .demote (s.view lpn) = true →
        ∃ i ∈ t.relay.items, i.kind = .demote ∧ i.lpn = lpn) ∧
  (∀ (s : State) (lpn : Nat), Form s → s.core1Runs = true → s.quiet lpn = true → (s.page lpn).st = 4 →
    s.reclaimNext lpn = true → (s.chan (s.page lpn).channel).state ≠ 4 → s.readersOf lpn = [] →
    ∃ t : State, exec (.slotReclaim lpn) s = .next t.onward ∧ t.page lpn = { s.page lpn with st := 3, slot := 0 } ∧
      slotKey (s.page lpn).home (s.page lpn).slot ∉ t.tier.slotsUsed ∧ (∀ k, k ≠ lpn → t.page k = s.page k) ∧
      t.tier.dist = s.tier.dist) ∧
  (∀ s : State, Form s → s.inGo = true →
    ∃ t : State, exec .counterEpoch s = .next t.onward ∧ t.dict.epoch = s.dict.epoch + 1 ∧
      (∀ lpn, (t.use lpn).accesses = 0 ∧ (t.use lpn).bypasses = 0 ∧ (t.use lpn).lastAccess = (s.use lpn).lastAccess) ∧
      t.map.pages = s.map.pages ∧ t.tier = s.tier ∧
      (s.core1Runs = true → s.policyPromotes = false → ∀ lpn, s.use lpn ≠ PageUse.zero → s.num 0x5000 6 ≤ (s.use lpn).bypasses →
        s.quiet lpn = true → moveFits .promote (s.view lpn) = true → ∃ i ∈ t.relay.items, i.kind = .promote ∧ i.lpn = lpn)) ∧
  (∀ (s : State) (hook base : Nat) (lpns : List Nat), Form s → s.core1Runs = true → hookSize hook lpns.length = true →
    s.dict.policyState = 2 → s.dict.hook = none → hookEntry s.dict.policy hook ≠ 0 → (s.core 3).ready = true →
    ∃ t : State, exec (.policyHookCall hook lpns base) s = .next t ∧
      t.dict.hook = some ⟨hook, lpns, base, (s.core 3).wdepth, (s.core 3).pc⟩ ∧
      ((s.core 3).resident < 11 → (t.core 3).sup = false ∧ (t.core 3).ie = true ∧
        (t.core 3).pc = BitVec.ofNat 32 (0x00400000 + hookEntry s.dict.policy hook) ∧ nth (t.core 3).g 0 3 = 0x00480000 ∧
        (t.core 3).resident = (s.core 3).resident + 1) ∧
      (11 ≤ (s.core 3).resident → (s.core 3).spillFull s.ovfReach = false →
        ∃ args, (t.core 3).wait = .hook (hookEntry s.dict.policy hook) args ∧ (t.core 3).pc = (s.core 3).pc) ∧ (∀ n, n ≠ 3 → t.core n = s.core n) ∧ t.map = s.map ∧ t.tier = s.tier) ∧
  (∀ (s : State) (h : HookCall) (value : Nat), s.dict.hook = some h → h.hook = 4 →
    ∃ t : State, exec (.policyHookReply value) s = .next t.onward ∧ t.dict.hook = none ∧ t.dict.policyState = s.dict.policyState ∧
      t.relay = s.relay ∧ t.map = s.map ∧ t.tier = { s.tier with flows := t.tier.flows }) ∧
  (∀ (s : State) (h : HookCall), Form s → s.dict.hook = some h → ringRoom s →
    ∃ t : State, exec .policyHookDeadline s = .next t.onward ∧ t.dict.hook = none ∧ noted t 0x0B10 (unitCore 3) ∧
      t.num 0x8040 4 = min (s.num 0x8040 4 + 1) 0xFFFFFFFFFFFFFFFF ∧
      (2 ≤ (s.dict.policyFaults.filter fun x => decide (s.now < x + 60000000000)).length → t.dict.policyState = 4) ∧
      t.map = s.map ∧ t.tier = { s.tier with flows := t.tier.flows })

/-! ### Pacer, laps and the TAP -/

/-- A sample, a decay, an urgency change and a slice boundary (R128-R131). An average moves by its shifted difference to the sample; a
decay halves one of the two averages of its bib; after either the steps of a GUARANTEED bib rise while the bib's strain reaches the next
mark of 50, 75 and 90 and then fall while it is under the mark of 40, 65 and 80 below them; a stable pin value is the port's; at a slice
boundary the oldest of ten slices goes and a suspension lasts only while the count reaches the budget. -/
def Obligations.PacerRules : Prop :=
  (∀ (s : State) (b p : Nat) (leg : Bool) (v : Nat), Form s → b < 16 →
    let e := if leg then (s.bib b).legAvg else (s.bib b).readAvg
    let t := s.sample b p leg v
    ((if leg then (t.bib b).legAvg else (t.bib b).readAvg : Nat) : Int) =
        max 0 ((e : Int) + ((v : Int) - e) / 2 ^ s.num 0x7000 1) ∧
      (if leg then (t.bib b).readAvg else (t.bib b).legAvg) = (if leg then (s.bib b).readAvg else (s.bib b).legAvg)) ∧
  (∀ (s : State) (b : Nat) (leg : Bool), Form s → b < 16 → s.inGo = true →
    ∃ t : State, exec (.pacerIdleDecay b leg) s = .next t.onward ∧ { t with bibs := s.bibs } = s ∧
      (t.bib b).readAvg = (if leg then (s.bib b).readAvg else (s.bib b).readAvg / 2) ∧
      (t.bib b).legAvg = (if leg then (s.bib b).legAvg / 2 else (s.bib b).legAvg) ∧
      (∀ k, k ≠ b → t.bib k = s.bib k) ∧ (s.bibClass b ≠ 0 → (t.bib b).steps = (s.bib b).steps) ∧
      (s.bibClass b = 0 → (s.bib b).steps ≤ 3 →
        let share := fun (a m : Nat) => if m = 0 then 0 else 100 * a / m
        let r := max (share (t.bib b).readAvg (s.num (0x7010 + b) 3)) (share (t.bib b).legAvg (s.num (0x7010 + b) 4))
        let up := fun i => nth [50, 75, 90] 0 i
        let down := fun i => nth [40, 65, 80] 0 i
        let n := (t.bib b).steps
        ∃ u, (s.bib b).steps ≤ u ∧ u ≤ 3 ∧ (∀ i, (s.bib b).steps ≤ i → i < u → up i ≤ r) ∧ (u < 3 → r < up u) ∧
          n ≤ u ∧ (∀ i, n < i → i ≤ u → r < down (i - 1)) ∧ (0 < n → down (n - 1) ≤ r))) ∧
  (∀ (s : State) (p value : Nat), Form s → p < 4 →
    ∃ t : State, exec (.urgChange p value) s = .next t.onward ∧ { t with ports := s.ports } = s ∧
      t.port p = { s.port p with urgPin := value % 4 } ∧ ∀ k, k ≠ p → t.port k = s.port k) ∧
  (∀ s : State, Form s →
    ∃ t : State, exec .urgSlice s = .next t.onward ∧ { t with ports := s.ports } = s ∧
      ∀ p, p < 4 →
        let slices := 0 :: (s.port p).slices.take 9
        t.port p = { s.port p with
          slices := slices
          suspended := (s.port p).suspended && decide (s.num (0x7080 + p) 2 * s.stacks.length * 12000000 / 100 ≤ total slices) })

/-- Laps and the TAP (R278, R280, R281, R285): a due lap is skipped and counted while a GUARANTEED bib is strained, else it starts on
the next eligible engine; a forced lap starts at once and out of rotation; a lap whose engine does not drain in time is skipped and
counted unless forced; a passed lap is counted and the rotation moves on; a failed one fences its engine with event 0x0A01; a
re-admission lap returns its engine or fences it for good. The TAP resets on TRST_N and after five TCK cycles with TMS high, shifts its
register bit by bit, and takes a new instruction at Update-IR. -/
def Obligations.LapsAndTheTap : Prop :=
  (∀ s : State, Form s → s.lapsOpen = true →
    (s.strained = true → exec .lapDue s = .next (s.bump 0xA000 6).onward) ∧
    (∀ e, s.strained = false → s.lapFrom s.test.lapNext = some e →
      ∃ t : State, exec .lapDue s = .next t.onward ∧ t.test.lap = some ⟨e, false, false, false⟩ ∧ (t.lapEng e).drained = true ∧
        t.test.lapNext = s.test.lapNext ∧ t.dict = s.dict ∧ t.tier = s.tier ∧ t.map = s.map) ∧
    (∀ e, s.lapEligible e = true →
      ∃ t : State, exec (.lapAgeForced e) s = .next t.onward ∧ t.test.lap = some ⟨e, true, true, false⟩ ∧
        (t.lapEng e).drained = true ∧ t.test.lapNext = s.test.lapNext ∧ t.dict = s.dict) ∧
    (∀ e : Nat, s.lapPresent e = true → (s.lapEng e).fenced = true → (s.lapEng e).permanent = false → ringRoom s →
      (∃ t : State, exec (.readmissionLap e true) s = .next t.onward ∧ (t.lapEng e).fenced = false ∧
        noted t (if e < 16 then 0x0521 else 0x0412) (lapUnit e)) ∧
      ∃ t : State, exec (.readmissionLap e false) s = .next t.onward ∧ (t.lapEng e).fenced = true ∧
        (t.lapEng e).permanent = true ∧ noted t 0x0A01 (lapUnit e))) ∧
  (∀ (s : State) (l : Lap), Form s → s.test.lap = some l → l.engine < 32 →
    (l.drained = false → s.lapBusy l.engine = false →
      exec .lapDrained s = .next { s with test := { s.test with lap := some { l with drained := true } } }.onward) ∧
    (l.drained = false → l.forced = false →
      ∃ t : State, exec .lapDrainTimeout s = .next t.onward ∧ t.test.lap = none ∧ (t.lapEng l.engine).drained = false ∧
        t.num 0xA000 6 = min (s.num 0xA000 6 + 1) 0xFFFFFFFFFFFFFFFF ∧ t.test.lapNext = s.test.lapNext) ∧
    (l.drained = false → l.forced = true → exec .lapDrainTimeout s = .next s.onward) ∧
    (l.drained = true → s.test.inject = none →
      (∃ t : State, exec (.lapDone true) s = .next t.onward ∧ t.test.lap = none ∧ (t.lapEng l.engine).drained = false ∧
        (t.lapEng l.engine).fenced = (s.lapEng l.engine).fenced ∧
        t.num 0xA000 4 = min (s.num 0xA000 4 + 1) 0xFFFFFFFFFFFFFFFF ∧
        (∀ e, l.forced = false → s.lapFrom (l.engine + 1) = some e → t.test.lapNext = e) ∧
        (l.forced = true → t.test.lapNext = s.test.lapNext)) ∧
      (l.engine < 16 → (s.lapEng l.engine).fenced = false → ringRoom s →
        ∃ t : State, exec (.lapDone false) s = .next t.onward ∧ t.test.lap = none ∧ (t.lapEng l.engine).fenced = true ∧
          t.num 0xA000 5 = min (s.num 0xA000 5 + 1) 0xFFFFFFFFFFFFFFFF ∧
          ∃ x ∈ t.ev.ring, x.code = 0x0A01 ∧ x.unit = unitStride l.engine ∧ x.aux = b2n l.aged))) ∧
  (∀ s : State, s.run.state ≠ 5 →
    (∃ t : State, exec .tapReset s = .next t ∧ t.test.tap.st = .reset ∧ t.test.tap.ir = 1 ∧ t.out = s.out ∧ t.run = s.run ∧
      t.dict = s.dict) ∧
    (∀ tms tdi : Bool,
      ∃ t : State, exec (.tckCycle tms tdi) s = .next t ∧ t.test.tap.st = s.test.tap.st.next tms ∧ t.run = s.run ∧
        t.dict = s.dict ∧ t.map = s.map ∧ t.tier = s.tier ∧
        (s.test.tap.st.next tms = .reset → t.test.tap.ir = 1) ∧
        (s.test.tap.st = .shDr → s.test.tap.dr ≠ [] →
          t.test.tap.dr = s.test.tap.dr.drop 1 ++ [tdi] ∧ t.out = s.out ++ [.tdo s.test.tap.dr.head?]) ∧
        (s.test.tap.st = .shIr → s.test.tap.irShift < 32 →
          t.test.tap.irShift = s.test.tap.irShift / 2 + 16 * b2n tdi ∧
          t.out = s.out ++ [.tdo (some (decide (s.test.tap.irShift % 2 = 1)))]) ∧
        (s.test.tap.st.next tms = .upIr → t.test.tap.ir = t.test.tap.irShift) ∧
        (s.test.tap.st = .capDr → s.test.tap.ir = 1 → t.test.tap.dr = (upto 32).map (0x10900779 : Nat).testBit))) ∧
  (∀ st : TapState, ((((st.next true).next true).next true).next true).next true = .reset)

/-! ### Coach cores -/

namespace Sys2Proof.Claims

/-- The state with one core's record replaced. -/
def withCore (s : State) (n : Nat) (c : Core) : State := { s with cores := updAt s.cores n fun _ => c }

/-- Core n has become c: the granules of a window that moves to or from its overflow area wait for their queues (R239), and its trace
port shows the step (R284). -/
def stepped (s : State) (n : Nat) (c : Core) : State := (s.coreGoes n c).traceStep n (s.core n) c

/-- Core c has entered a trap or interrupt with a free window (Table 11.6): c' is what it became. -/
def entered (c c' : Core) (cause number : Nat) (epc : Word) : Prop :=
  let user := !c.sup
  let sp := (if user then c.ksp else nth c.g 0 3) - 144
  c'.pc = c.evec + BitVec.ofNat 32 (16 * cause) ∧ c'.epc = epc ∧ c'.estat = c.cstat ∧
    c'.ecause = BitVec.ofNat 32 (cause + 256 * number) ∧ c'.ie = false ∧ c'.sup = true ∧ c'.pend = true ∧ c'.saved = false ∧
    c'.tw = false ∧ nth c'.g 0 3 = sp ∧ c'.tallyFrame = sp ∧ c'.usp = (if user then nth c.g 0 3 else c.usp) ∧
    c'.top = (c.top + 1) % 11 ∧ c'.resident = c.resident + 1 ∧ c'.window c'.top = List.replicate 16 0 ∧
    (∀ w, w < 12 → w ≠ c'.top → c'.window w = c.window w) ∧ (∀ i, i ≠ 3 → nth c'.g 0 i = nth c.g 0 i) ∧
    c'.spilled = c.spilled ∧ c'.sram = c.sram ∧ c'.tally = c.tally ∧ c'.ctxhead = c.ctxhead ∧ c'.state = c.state

/-- Core n runs, waits for no window, has one free, and is not in the trap window or in a hook call. -/
def freeToRun (s : State) (n : Nat) : Prop :=
  s.coreRuns n = true ∧ (s.core n).ready = true ∧ (s.core n).tw = false ∧ (s.core n).resident < 11 ∧ (n = 3 → s.dict.hook = none)

end Sys2Proof.Claims

open Sys2Proof.Claims

/-- Windows, CSRs, loads and stores of a coach core (R238, R239, R241, R243, R250, R252): a call takes the next window of the ring with
the return address in r23 (its target is relative to pc, and the place of
the data SRAM is free: log entry 14) and a return gives it back; with no free window a call waits for a
spill, or raises OVERFLOW when the spill stack is full; a spill puts the oldest resident window on the spill stack and a fill brings the
newest one back, each once its granules in the overflow area have been written or read; a step changes nothing but the core, its trace
port and what waits of such granules; a wrong-path fetch counts when it fills, and is traced as squashed; a CSR access moves a register; a store changes the bytes it names and no others. -/
def Obligations.CoreWindows : Prop :=
  ∀ (s : State) (n : Nat), Form s → s.coreRuns n = true →
    let c := s.core n
    (∀ c' : Core, let t := stepped s n c'
      t.core n = c' ∧ (∀ k, k ≠ n → t.core k = s.core k) ∧ t.map = s.map ∧ t.dict = s.dict ∧ t.relay = s.relay ∧
        t.stride = s.stride ∧ t.reqs = s.reqs ∧ t.run = s.run ∧ t.tier = { s.tier with flows := t.tier.flows } ∧
        (c'.spillCount < c'.lockerHi → t.tier = s.tier)) ∧
    ((c.ready = true → c.tw = false → c.resident < 11 → ∀ off : BitVec 26,
      ∃ c' : Core, exec (.callw n off) s = .next (stepped s n c').onward ∧ c'.pc = c.pc + off.signExtend 32 * 4 ∧
        c'.top = (c.top + 1) % 11 ∧ c'.resident = c.resident + 1 ∧ c'.reg 23 = c.pc + 4 ∧
        (∀ w, w < 12 → w ≠ c'.top → c'.window w = c.window w) ∧
        { c' with pc := c.pc, top := c.top, resident := c.resident, win := c.win } = c) ∧
    (c.ready = true → c.tw = false → 11 ≤ c.resident → ∀ off : BitVec 26,
      (c.spillFull s.ovfReach = false → exec (.callw n off) s = .next (stepped s n { c with wait := .call off }).onward) ∧
      (c.spillFull s.ovfReach = true → (n = 3 → s.dict.hook = none) →
        ∃ c' : Core, exec (.callw n off) s = .next (stepped s n c').onward ∧ c'.tpc = c.pc ∧ c'.tstat = c.cstat ∧ c'.tw = true ∧
          c'.sup = true ∧ c'.cwp = 11 ∧ c'.pc = c.evec + 0x2F0 ∧ c'.ecause = c.ecause ∧
          (∀ w, w < 11 → c'.window w = c.window w) ∧ c'.g = c.g)) ∧
    (c.ready = true → c.tw = false → 1 < c.wdepth →
      ∃ c' : Core, exec (.retw n) s = .next (stepped s n c').onward ∧ c'.pc = c.reg 23 ∧ c'.top = (c.top + 10) % 11 ∧
        c'.resident = c.resident - 1 ∧ (c'.wait = .fill ↔ c.resident ≤ 1) ∧
        { c' with pc := c.pc, top := c.top, resident := c.resident, wait := c.wait } = c)) ∧
    (9 < c.resident → c.spilling = false → c.spillFull s.ovfReach = false →
      exec (.spill n) s = .next (stepped s n { c with spilling := true }).onward) ∧
    (c.spilling = true → 2 ≤ c.resident → c.wait = .none → s.windowBusy n = false →
      let c' := { c with
        spilled := c.window ((c.top + 12 - c.resident) % 11) :: c.spilled, resident := c.resident - 1, spilling := false }
      exec (.spillDone n) s = .next
        (if c.lockerHi ≤ c.spilled.length then (stepped s n c').bump (0x8010 + n) 5 else stepped s n c').onward) ∧
    (∀ (w : List Word) (r : List (List Word)), s.windowBusy n = false → c.wait = .fill → c.spilled = w :: r → w.length = 16 →
      (∃ c' : Core, exec (.fillDone n false) s = .next (stepped s n c').onward ∧ c'.wait = .none ∧ c'.spilled = r ∧
        c'.resident = 1 ∧ c'.window c.top = w ∧ (∀ k, k < 12 → k ≠ c.top → c'.window k = c.window k) ∧
        { c' with wait := c.wait, spilled := c.spilled, resident := c.resident, win := c.win } = c) ∧
      (n ≠ 0 → (n = 3 → s.dict.hook = none) → ringRoom s →
        ∃ t : State, exec (.fillDone n true) s = .next t.onward ∧ (t.core n).state = 1 ∧ noted t 0x0B01 (unitCore n) ∧
          t.num (0x8010 + n) 3 = min (s.num (0x8010 + n) 3 + 1) 0xFFFFFFFFFFFFFFFF)) ∧
    (∀ fills : Bool, exec (.wrongPathFetch n false fills) s = .next s) ∧
    exec (.wrongPathFetch n true true) s = .next (((withCore s.drawn n { c with perfWpfetch := c.perfWpfetch + 1 }).bump
      (0x8010 + n) 6).trace n 0 true (Config.wrongPathPc s.freeCtr)) ∧
    exec (.wrongPathFetch n true false) s = .next (s.drawn.trace n 0 true (Config.wrongPathPc s.freeCtr)) ∧
    (c.ready = true → ∀ (k r : Nat) (v : Word), r < 24 → c.csr k = some v →
      (c.sup = true ∨ k ∈ [0x010, 0x011, 0x012, 0x020] →
        ∃ c' : Core, exec (.csrAccess n k false r) s = .next (stepped s n c').onward ∧ c'.pc = c.pc + 4 ∧ c'.reg r = v ∧
          (∀ i, i < 24 → i ≠ r → c'.reg i = c.reg i) ∧ { c' with pc := c.pc, g := c.g, win := c.win } = c) ∧
      (c.sup = true →
        ∃ c' : Core, exec (.csrAccess n k true r) s = .next (stepped s n c').onward ∧ c'.pc = c.pc + 4 ∧
          (k ∈ [0x001, 0x002, 0x005, 0x006, 0x007, 0x008, 0x009, 0x00A, 0x00B, 0x00C] → c'.csr k = some (c.reg r)) ∧
          (k = 0x000 → c'.csr k = some (cstatOf (c.reg r) c.tw)) ∧
          (k = 0x004 → c'.csr k = some (c.reg r &&& 0xFFFFF000)) ∧
          (k = 0x013 → c'.csr k = some (if 16 ≤ (c.reg r).toNat ∧ (c.reg r).toNat ≤ 1024 then c.reg r else v)) ∧
          (k = 0x015 → c'.csr k = some (if (c.reg r).toNat ≤ 16384 then c.reg r else v)) ∧
          (k ∈ [0x003, 0x010, 0x011, 0x012, 0x014, 0x020] → c'.csr k = some v) ∧
          (∀ j, j ≠ k → c'.csr j = c.csr j) ∧ c'.g = c.g ∧ c'.win = c.win ∧ c'.sram = c.sram)) ∧
    (c.ready = true → ∀ addr width r : Nat, r < 24 → width ∈ [1, 2, 4] → addr % width = 0 →
      (c.place n s.codeEnd true addr = .sram →
        ∃ c' : Core, exec (.loadStore n true addr width r) s = .next ((stepped s n c').drawn).onward ∧
          c'.sram.readN addr width = natLe width (c.reg r).toNat ∧
          (∀ a, (a < addr ∨ addr + width ≤ a) → c'.sram.read a = c.sram.read a) ∧
          { c' with pc := c.pc, sram := c.sram } = c ∧ c'.pc = c.pc + 4) ∧
      (c.place n s.codeEnd false addr = .sram →
        ∃ c' : Core, exec (.loadStore n false addr width r) s = .next ((stepped s n c').drawn).onward ∧
          (c'.reg r).toNat % 256 ^ width = leNat (c.sram.readN addr width) ∧ (∀ i, i < 24 → i ≠ r → c'.reg i = c.reg i) ∧
          { c' with pc := c.pc, g := c.g, win := c.win } = c ∧ c'.pc = c.pc + 4) ∧
      (∀ store : Bool, c.place n s.codeEnd store addr = .denied → freeToRun s n →
        ∃ c' : Core, exec (.loadStore n store addr width r) s = .next ((stepped s n c').drawn).onward ∧
          entered c c' 0x23 0 c.pc))

/-- Traps, interrupts, contexts and halts of a coach core (R242-R251): a trap saves pc + 4 and its number, an illegal, privileged or
misaligned instruction saves its own pc, an interrupt needs ie and no trap window; RETI returns to epc, or from the trap window to tpc;
a context frame is pushed below ctxhead, popped with its MASK's parts, or dropped; CUTW leaves the depth it names; HALT and the watchdog
stop any core with event 0x0B01, core 0 stopping the T9; the first tally instruction after an entry saves the tally unit (where the
data SRAM lies and what a tally instruction computes are free: log entries 14 and 15). -/
def Obligations.CoreTrapsAndContexts : Prop :=
  ∀ (s : State) (n : Nat), Form s → s.coreRuns n = true →
    let c := s.core n
    (freeToRun s n →
      (∀ number : Nat, ∃ c' : Core, exec (.trap n number) s = .next (stepped s n c').onward ∧
        entered c c' 0x27 (number % 256) (c.pc + 4)) ∧
      (∃ c' : Core, exec (.illegalInstruction n) s = .next (stepped s n c').onward ∧ entered c c' 0x20 0 c.pc) ∧
      (∀ i ∈ [Instr.savectx n 1, .loadctx n 1, .dropctx n, .reti n, .cutw n 8, .halt n, .csrAccess n 0x001 false 8],
        c.sup = false → ∃ c' : Core, exec i s = .next (stepped s n c').onward ∧ entered c c' 0x21 0 c.pc)) ∧
    (n = 3 → c.ready = true → c.tw = false → c.resident < 11 → c.sup = false → ringRoom s → ∀ h, s.dict.hook = some h →
      ∃ t : State, exec (.illegalInstruction n) s = .next t.onward ∧ t.dict.hook = none ∧ noted t 0x0B10 (unitCore 3)) ∧
    (∀ line : Nat, line < 32 → c.tw = false →
      (c.ie = true → c.resident < 11 → (c.wait = .none ∨ ∃ off, c.wait = .call off) →
        ∃ c' : Core, exec (.interruptEntry n line) s = .next (stepped s n c').onward ∧ entered c c' line 0 c.pc) ∧
      (c.ie = false → ∃ t : State, exec (.interruptEntry n line) s = .next t.onward ∧ t = s)) ∧
    (c.ready = true → c.sup = true →
      (c.tw = true → ∃ c' : Core, exec (.reti n) s = .next (stepped s n c').onward ∧ c'.pc = c.tpc ∧ c'.tw = false ∧
        c'.ie = c.tstat.getLsbD 0 ∧ c'.sup = c.tstat.getLsbD 1 ∧ c'.pend = c.tstat.getLsbD 3 ∧ c'.saved = c.tstat.getLsbD 4 ∧
        { c' with pc := c.pc, cstat := c.cstat } = c) ∧
      (c.tw = false → 2 ≤ c.resident → (c.saved = true → inSram n c.tallyFrame.toNat 132 = true) →
        ∃ c' : Core, exec (.reti n) s = .next (stepped s n c').onward ∧ c'.pc = c.epc ∧ c'.top = (c.top + 10) % 11 ∧
          c'.resident = c.resident - 1 ∧ c'.ie = c.estat.getLsbD 0 ∧ c'.sup = c.estat.getLsbD 1 ∧
          nth c'.g 0 3 = (if c.estat.getLsbD 1 then nth c.g 0 3 + 144 else c.usp) ∧
          c'.tally = (if c.saved then c.sram.readN c.tallyFrame.toNat 132 else c.tally) ∧ c'.win = c.win ∧ c'.sram = c.sram ∧
          ∀ i, i ≠ 3 → nth c'.g 0 i = nth c.g 0 i) ∧
      (∀ mask : BitVec 4, mask ≠ 0 → c.ctxAligned = true →
        let size := frameSize mask
        let head := c.ctxhead.toNat
        (c.ctxlimit.toNat ≤ head - size → size ≤ head → inSram n (head - size) size = true →
          ∃ c' : Core, exec (.savectx n mask) s = .next (stepped s n c').onward ∧ c'.ctxhead.toNat = head - size ∧
            c'.sram.readN (head - size) size = wordsLe (c.frame mask) ∧
            (∀ a, (a < head - size ∨ head ≤ a) → c'.sram.read a = c.sram.read a) ∧ c'.pc = c.pc + 4 ∧
            { c' with pc := c.pc, ctxhead := c.ctxhead, sram := c.sram } = c) ∧
        (c.ctxhead ≠ c.ctxtop → inSram n head size = true → frameGood mask (c.frameAt size) = true →
          let ws := c.frameAt size
          let b0 := b2n (mask.getLsbD 0)
          let b1 := b2n (mask.getLsbD 1)
          let b2 := b2n (mask.getLsbD 2)
          ∃ c' : Core, exec (.loadctx n mask) s = .next (stepped s n c').onward ∧
            c'.ctxhead = c.ctxhead + BitVec.ofNat 32 size ∧ c'.pc = c.pc + 4 ∧ c'.ecause = c.ecause ∧ c'.sram = c.sram ∧ c'.g = c.g ∧
            (∀ i, i < 8 → c'.reg (8 + i) = (if mask.getLsbD 0 then nth ws 0 (4 + i) else c.reg (8 + i))) ∧
            (∀ i, i < 8 → c'.reg (16 + i) = (if mask.getLsbD 1 then nth ws 0 (4 + 8 * b0 + i) else c.reg (16 + i))) ∧
            c'.epc = (if mask.getLsbD 2 then nth ws 0 (4 + 8 * b0 + 8 * b1) else c.epc) ∧
            c'.estat = (if mask.getLsbD 2 then nth ws 0 (5 + 8 * b0 + 8 * b1) else c.estat) ∧
            c'.tallyFrame = (if mask.getLsbD 3 then nth ws 0 (4 + 8 * b0 + 8 * b1 + 4 * b2) else c.tallyFrame))) ∧
      (c.ctxAligned = true → c.ctxhead ≠ c.ctxtop → inSram n c.ctxhead.toNat 16 = true →
        inSram n c.ctxhead.toNat c.dropSize = true → exec (.dropctx n) s = .next (stepped s n { c with
          ctxhead := c.ctxhead + BitVec.ofNat 32 ((c.sramWord c.ctxhead.toNat).toNat / 65536), pc := c.pc + 4 }).onward) ∧
      (∀ r : Nat, r < 24 → 1 ≤ (c.reg r).toNat → (c.reg r).toNat ≤ c.wdepth → c.wdepth - (c.reg r).toNat < c.resident →
        c.resident ≤ 11 →
        ∃ c' : Core, exec (.cutw n r) s = .next (stepped s n c').onward ∧ c'.wdepth = (c.reg r).toNat ∧ c'.spilled = c.spilled ∧
          (c'.top + (c.wdepth - (c.reg r).toNat)) % 11 = c.top % 11 ∧ c'.pc = c.pc + 4 ∧ c'.win = c.win ∧ c'.g = c.g) ∧
      ((n = 3 → s.dict.hook = none) → ringRoom s →
        ∃ t : State, exec (.halt n) s = .next t.onward ∧ (t.core n).state = 1 ∧ noted t 0x0B01 (unitCore n) ∧
          (n = 0 → s.run.state ≤ 3 → t.run.state = 4 ∧ t.run.cause = 0x0B01))) ∧
    (c.ready = true → c.tw = false → ((c.pend = true ∧ c.saved = false) → inSram n c.tallyFrame.toNat 144 = true) →
      ∃ c' : Core, exec (.tallyInstruction n) s = .next ((stepped s n c').drawn).onward ∧ c'.pc = c.pc + 4 ∧
        c'.tally = slice (Config.tallyAfter s.freeCtr) 0 132 ∧
        (if c.pend ∧ !c.saved then c'.saved = true ∧ c'.pend = false ∧
            c'.sram.readN c.tallyFrame.toNat 144 = slice c.tally 0 132 ++ List.replicate 12 0
          else c'.sram = c.sram ∧ c'.cstat = c.cstat)) ∧
    ((n = 3 → s.dict.hook = none) → ringRoom s →
      ∃ t : State, exec (.coreWatchdog n) s = .next t.onward ∧ (t.core n).state = 1 ∧ (t.core n).heartbeat = false ∧
        noted t 0x0B01 (unitCore n) ∧ (n = 0 → s.run.state ≤ 3 → t.run.state = 4 ∧ t.run.cause = 0x0B01)) ∧
    (∀ m : Nat, 1 ≤ m → m ≤ 3 → (s.core m).state = 1 → (m = 3 → s.dict.policyState ≠ 2) →
      ∃ t : State, exec (.coreRestart m) s = .next t.onward ∧ (t.core m).state = 0 ∧ (t.core m).pc = Config.azmorEntry m ∧
        (t.core m).resident = 1 ∧ (t.core m).spilled = [] ∧ (t.core m).g = (s.core m).g ∧
        t.num (0x8010 + m) 2 = min (s.num (0x8010 + m) 2 + 1) 0xFFFFFFFFFFFFFFFF ∧ ∀ k, k ≠ m → t.core k = s.core k)

/-! ### Power, starts and heat -/

/-- Power, reset and start commands (R149, R155, R234, R255-R272): Track power brings the T9 to MARKS and its loss forgets all; SYS_RST_N
holds it in MARKS, the maps surviving under the retention latch; on release a good Azmor bank starts a cold start, or a warm one under the
latch, and two bad ones leave the boot ROM in FALSE_START; trained channels end the distance step, the Field rails and the sprint check
lead to GO with event 0x0903, a missing or falling rail or a lost PLL to FALSE_START; PAUSE is entered with event 0x0902 once nothing is
dirty; TRACK_DEBUG_EN locks the mux as it falls. -/
def Obligations.StartsAndPower : Prop :=
  ∀ s : State, Form s → ringRoom s →
    (s.run.state = 5 →
      ∃ t : State, exec .trackPowerOn s = .next t ∧ t.run = { s.run with state := 0, sysRstLow := true } ∧
        t.test.tap = Tap.init ∧ t.map = s.map ∧ t.tier = s.tier ∧ t.dict = s.dict) ∧
    (s.run.state ≠ 5 →
      (∃ t : State, exec .trackPowerLoss s = .next t ∧ t.run.state = 5 ∧ t.run.retention = false ∧ t.run.lost = [] ∧
        t.map.pages = [] ∧ t.map.windows = [] ∧ t.tier.dist = [] ∧ t.tier.sprint = [] ∧ t.dict.sessions = [] ∧
        t.dict.wonce = s.dict.wonce) ∧
      ∃ t : State, exec .sysRstAssert s = .next t ∧ t.run.state = 0 ∧ t.run.sysRstLow = true ∧ t.run.ready = false ∧
        t.run.fieldEn = false ∧ t.run.retention = s.run.retention ∧ t.dict.sessions = [] ∧ t.tier.sprint = [] ∧ t.reqs = [] ∧
        t.cores = List.replicate 4 coreReset ∧ t.ev = EvSt.reset ∧
        (s.run.retention = true → t.map.pages = s.map.pages ∧ t.tier.dist = s.tier.dist) ∧
        (s.run.retention = false → t.map.pages = [] ∧ t.tier.dist = [])) ∧
    (s.run.state = 0 → s.run.sysRstLow = true → ∀ (node : BitVec 4) (crcA crcB : Bool),
      (∃ t : State, exec (.sysRstRelease node true true true crcA crcB) s = .next t ∧ t.run.state = 1 ∧ t.run.sysRstLow = false ∧
        t.run.startKind = b2n s.run.retention ∧ t.run.dictServed = true ∧ t.part.nodeId = node.toNat ∧
        t.map.pages = s.map.pages) ∧
      ∃ t : State, exec (.sysRstRelease node false false true crcA crcB) s = .next t ∧ t.run.state = 4 ∧ t.run.cause = 0x0127 ∧
        noted t 0x0127 0) ∧
    (s.run.state = 1 → s.run.dictServed = true → s.run.distReady = false → s.run.startKind ≠ 2 → s.run.retention = false →
      ∀ x : ChanTrain,
        ((trainConfig x).isSome = true → (∀ d ∈ x.dimms, d.codeOk = true) → (∀ c, c < 16 → s.trainPasses c x = true) →
          ∃ t : State, exec (.trainingDone (List.replicate 16 x)) s = .next t ∧ (∀ c, c < 16 → (t.chan c).state = 2) ∧
            t.run.distReady = true ∧ t.run.fieldEn = true ∧ t.map.pages = [] ∧ t.run.state = 1) ∧
        (x.dimms = [] →
          ∃ t : State, exec (.trainingDone (List.replicate 16 x)) s = .next t ∧ t.run.state = 4 ∧ t.run.cause = 0x0404)) ∧
    (s.run.fieldEn = true → s.run.fieldPg = false →
      (∃ t : State, exec .fieldPgRise s = .next t ∧ t.run.fieldPg = true ∧ t.run.fieldPower = 2 ∧ t.run.fieldReady = true ∧
        t.run.plls % 2 = 1 ∧ { t with run := s.run } = s) ∧
      (1 ≤ s.run.state → s.run.state ≤ 3 →
        ∃ t : State, exec .fieldPgTimeout s = .next t ∧ t.run.state = 4 ∧ t.run.cause = 0x0901 ∧ t.run.fieldEn = false ∧
          noted t 0x0901 0)) ∧
    (s.run.fieldEn = true → s.run.fieldPg = true → 1 ≤ s.run.state → s.run.state ≤ 3 →
      ∃ t : State, exec .fieldPgFall s = .next t ∧ t.run.state = 4 ∧ t.run.cause = 0x0901 ∧ t.run.fieldEn = false ∧
        t.run.ready = false ∧ noted t 0x0901 0) ∧
    (s.run.state = 1 → s.run.distReady = true → s.run.fieldReady = true → ∀ perst : BitVec 4,
      ∃ t : State, exec (.sprintInitDone [] perst) s = .next t.onward ∧ t.run.state = 2 ∧ t.run.ready = true ∧
        t.run.throttle = 0 ∧ t.tier.slotsUsed = [] ∧ t.tier.slotsBuilt = true ∧ noted t 0x0903 0) ∧
    (s.run.trans = .entering false → s.unsettled = false → (∀ c ∈ s.cores, c.spillCount ≤ c.lockerHi) →
      ∃ t : State, exec .pauseDemotionsDone s = .next t.onward ∧ t.run.state = 3 ∧ t.run.trans = .none ∧ t.run.retention = true ∧
        t.run.fieldEn = false ∧ t.run.ready = false ∧ t.tier.dist = s.tier.dist ∧ noted t 0x0902 0) ∧
    (∀ hub : Bool, 1 ≤ s.run.state → s.run.state ≤ 3 → s.run.plls &&& (if hub then 1 else 2) ≠ 0 →
      ∃ t : State, exec (.pllLockLoss hub) s = .next t ∧ t.run.state = 4 ∧ t.run.cause = 0x0905 ∧ noted t 0x0905 0) ∧
    (∀ q : Nat, q < 4 → s.run.plls &&& 2 ^ (q + 2) ≠ 0 →
      ∃ t : State, exec (.ddrPllLockLoss q) s = .next t.onward ∧
        ∀ i, i < 4 → s.unitRuns (.dist (4 * q + i)) = true → (t.chan (4 * q + i)).state = 5) ∧
    (∃ t : State, exec .debugEnFall s = .next t ∧ t.part.debugEn = false ∧ t.test.unlocked = false ∧
      t.out = s.out ++ (if s.test.unlocked then [.dbgLow] else []) ∧ t.run = s.run ∧ t.dict = s.dict) ∧
    exec .debugEnRise s = .next { s with part := { s.part with debugEn := true } }

/-- The throttle level and the thermal trips (R293, R295, R296): at the end of an interval T rises by 1, to at most 6, when the peak
reached the limit or the average power stood above a non-zero cap, falls by 1 when the peak stayed 3 degrees below and the power at most
at 95 percent of a non-zero cap, and else holds; it is 0 at every entry to GO; THROTTLE_ACTIVE reads 1 while it is above 0 and THROTTLES
counts each rise from 0 (without a cap the model's fall is log entry 32, and nothing is claimed of it). A reading at THERMAL_TRIP stops the T9 with cause 0x0906 and drives FIELD_EN low; THERMTRIP_N latches low;
SYS_RST_N leaves it so and a loss of Track power clears it. -/
def Obligations.ThermalRules : Prop :=
  (∀ s : State, s.enterGo.run.throttle = 0 ∧ s.numOf 0x9000 4 = (if 0 < s.run.throttle then 1 else 0)) ∧
  (∀ (s : State) (peak : Int) (avg trk : Nat), Form s → s.inGo = true →
    let limit : Int := s.num 0x9000 2
    let cap := 1000 * s.num 0x9000 8
    let rises := limit ≤ peak ∨ (cap ≠ 0 ∧ cap < avg)
    let falls := peak ≤ limit - 3 ∧ cap ≠ 0 ∧ 100 * avg ≤ 95 * cap
    ∃ t : State, exec (.throttleInterval peak avg trk) s = .next t ∧
      (rises → t.run.throttle = min 6 (s.run.throttle + 1) ∧
        t.num 0x9000 5 = (if s.run.throttle = 0 then min (s.num 0x9000 5 + 1) 0xFFFFFFFFFFFFFFFF else s.num 0x9000 5)) ∧
      (¬ rises → falls → t.run.throttle = s.run.throttle - 1 ∧ t.num 0x9000 5 = s.num 0x9000 5) ∧
      (¬ rises → ¬ falls → cap ≠ 0 → t.run.throttle = s.run.throttle ∧ t.num 0x9000 5 = s.num 0x9000 5) ∧
      t.run.state = s.run.state ∧ t.map = s.map ∧ t.tier = s.tier) ∧
  (∀ (s : State) (hub io : List Int), Form s → ringRoom s → 1 ≤ s.run.state → s.run.state ≤ 3 →
    ((∃ x ∈ hub ++ io, (s.num 0x9000 3 : Int) ≤ x) →
      ∃ t : State, exec (.dieSensorPoll hub io) s = .next t ∧ t.run.state = 4 ∧ t.run.cause = 0x0906 ∧ t.run.fieldEn = false ∧
        t.run.hubTemp = hub ∧ t.run.ioTemp = io ∧ noted t 0x0906 0) ∧
    ((∀ x ∈ hub ++ io, x < (s.num 0x9000 3 : Int)) → hub ≠ [] →
      ∃ t : State, exec (.dieSensorPoll hub io) s = .next t ∧ t.run.tj ∈ hub ++ io ∧ (∀ x ∈ hub ++ io, x ≤ t.run.tj) ∧
        { t with run := { t.run with hubTemp := s.run.hubTemp, ioTemp := s.run.ioTemp, tj := s.run.tj } } = s)) ∧
  (∀ s : State, s.run.state ≠ 5 → s.run.thermtrip = false →
    exec .thermtrip s = .next ({ s with run := { s.run with thermtrip := true } }.emit .thermtripLow)) ∧
  (∀ s : State, s.run.state ≠ 5 →
    (∃ t : State, exec .sysRstAssert s = .next t ∧ t.run.thermtrip = s.run.thermtrip) ∧
    ∃ t : State, exec .trackPowerLoss s = .next t ∧ t.run.thermtrip = false)
end

