-- ==== Sys2Proof/Laws/Sparse.lean ====
section
/-! SUPPORT. Sparse maps, memories and lists of units: reads after writes, and the canonical form. -/

set_option Elab.async false

namespace Sys2Proof.Machine

variable {α : Type} [DecidableEq α]

/-! ### Sparse maps -/

/-- The bound below a map's first key. -/
def clears (lo : Option Nat) (k : Nat) : Bool :=
  match lo with
  | none => true
  | some l => decide (l < k)

theorem mwfFrom_cons (d : α) (lo : Option Nat) (a : Nat) (x : α) (r : List (Nat × α)) :
    mwfFrom d lo ((a, x) :: r) = (clears lo a && decide (x ≠ d) && mwfFrom d (some a) r) := by
  cases lo <;> rfl

theorem mwfFrom_lower (d : α) (lo : Option Nat) (a : Nat) (m : List (Nat × α)) (h : mwfFrom d (some a) m = true)
    (hl : clears lo a = true) : mwfFrom d lo m = true := by
  cases m with
  | nil => rfl
  | cons y r =>
    obtain ⟨b, x⟩ := y
    rw [mwfFrom_cons] at h ⊢
    cases lo <;> simp [clears] at h hl ⊢
    · exact ⟨h.1.2, h.2⟩
    · exact ⟨⟨by omega, h.1.2⟩, h.2⟩

theorem mput_mwfFrom (d : α) (lo : Option Nat) (m : List (Nat × α)) (k : Nat) (v : α) (h : mwfFrom d lo m = true)
    (hk : clears lo k = true) : mwfFrom d lo (mput m d k v) = true := by
  induction m generalizing lo with
  | nil =>
    unfold mput
    split
    · rfl
    · rw [mwfFrom_cons]; simp_all [mwfFrom]
  | cons y r ih =>
    obtain ⟨a, x⟩ := y
    rw [mwfFrom_cons] at h
    simp only [Bool.and_eq_true, decide_eq_true_eq] at h
    unfold mput
    split
    · rename_i hka
      split
      · rw [mwfFrom_cons]; simp_all
      · rw [mwfFrom_cons, mwfFrom_cons]; simp_all [clears]
    · split
      · split
        · exact mwfFrom_lower d lo a r h.2 h.1.1
        · rw [mwfFrom_cons]; simp_all
      · rw [mwfFrom_cons]
        have := ih (some a) h.2 (by simp [clears]; omega)
        simp_all

/-- Writing a sparse map keeps its canonical form. -/
theorem mput_mwf (d : α) (m : List (Nat × α)) (k : Nat) (v : α) (h : mwf d m = true) : mwf d (mput m d k v) = true :=
  mput_mwfFrom d none m k v h rfl

theorem mget_below (d : α) (a k : Nat) (m : List (Nat × α)) (h : mwfFrom d (some a) m = true) (hk : k ≤ a) : mget m d k = d := by
  induction m generalizing a with
  | nil => rfl
  | cons y r ih =>
    obtain ⟨b, x⟩ := y
    rw [mwfFrom_cons] at h
    simp [clears] at h
    unfold mget
    rw [if_neg (by omega)]
    exact ih b h.2 (by omega)

theorem mget_mput_from (d : α) (lo : Option Nat) (m : List (Nat × α)) (k : Nat) (v : α) (h : mwfFrom d lo m = true) :
    mget (mput m d k v) d k = v := by
  induction m generalizing lo with
  | nil => unfold mput; split <;> simp_all [mget]
  | cons y r ih =>
    obtain ⟨a, x⟩ := y
    rw [mwfFrom_cons] at h
    simp only [Bool.and_eq_true, decide_eq_true_eq] at h
    unfold mput
    split
    · split
      · rename_i hka hv
        unfold mget
        rw [if_neg (by omega), mget_below d a k r h.2 (by omega), hv]
      · simp [mget]
    · split
      · rename_i _ hka
        split
        · rename_i hv
          rw [mget_below d a k r h.2 (by omega), hv]
        · simp [mget]
      · unfold mget
        rw [if_neg (by omega)]
        exact ih (some a) h.2

/-- A read after a write of the same key. -/
theorem mget_mput_same (d : α) (m : List (Nat × α)) (k : Nat) (v : α) (h : mwf d m = true) : mget (mput m d k v) d k = v :=
  mget_mput_from d none m k v h

/-- A read of another key. -/
theorem mget_mput_other (d : α) (m : List (Nat × α)) (k j : Nat) (v : α) (h : j ≠ k) :
    mget (mput m d k v) d j = mget m d j := by
  induction m with
  | nil => unfold mput; split <;> simp [mget, Ne.symm h]
  | cons y r ih =>
    obtain ⟨a, x⟩ := y
    unfold mput
    split
    · split
      · rfl
      · simp [mget, Ne.symm h]
    · split
      · rename_i hka
        split
        · simp [mget, ← hka, Ne.symm h]
        · simp [mget, ← hka, Ne.symm h]
      · simp only [mget]; split
        · rfl
        · exact ih

/-! ### Memories -/

theorem Memory.write_wf (m : Memory) (a : Nat) (v : Byte) (h : m.wf = true) : (m.write a v).wf = true :=
  mput_mwf _ m a v h

theorem Memory.writeN_wf (m : Memory) (a : Nat) (bs : List Byte) (h : m.wf = true) : (m.writeN a bs).wf = true := by
  induction bs generalizing m a with
  | nil => exact h
  | cons b r ih => exact ih _ _ (m.write_wf a b h)

theorem Memory.writeMasked_wf (m : Memory) (a : Nat) (bs : List (Option Byte)) (h : m.wf = true) :
    (m.writeMasked a bs).wf = true := by
  induction bs generalizing m a with
  | nil => exact h
  | cons b r ih =>
    cases b with
    | none => exact ih _ _ h
    | some b => exact ih _ _ (m.write_wf a b h)

theorem Memory.read_write_same (m : Memory) (a : Nat) (v : Byte) (h : m.wf = true) : (m.write a v).read a = v :=
  mget_mput_same _ m a v h

theorem Memory.read_write_other (m : Memory) (a b : Nat) (v : Byte) (h : b ≠ a) : (m.write a v).read b = m.read b :=
  mget_mput_other _ m a b v h

/-- Bytes below or above the written ones read as before. -/
theorem Memory.read_writeN_other (m : Memory) (a b : Nat) (bs : List Byte) (h : b < a ∨ a + bs.length ≤ b) :
    (m.writeN a bs).read b = m.read b := by
  induction bs generalizing m a with
  | nil => rfl
  | cons x r ih =>
    simp only [List.length_cons] at h
    unfold Memory.writeN
    rw [ih _ _ (by omega), m.read_write_other a b x (by omega)]

theorem Memory.read_writeMasked_other (m : Memory) (a b : Nat) (bs : List (Option Byte)) (h : b < a ∨ a + bs.length ≤ b) :
    (m.writeMasked a bs).read b = m.read b := by
  induction bs generalizing m a with
  | nil => rfl
  | cons x r ih =>
    simp only [List.length_cons] at h
    cases x with
    | none => exact ih _ _ (by omega)
    | some v =>
      unfold Memory.writeMasked
      rw [ih _ _ (by omega), m.read_write_other a b v (by omega)]

/-- A written byte reads as it was written. -/
theorem Memory.read_writeN (m : Memory) (a i : Nat) (bs : List Byte) (h : m.wf = true) (hi : i < bs.length) :
    (m.writeN a bs).read (a + i) = bs[i] := by
  induction bs generalizing m a i with
  | nil => simp at hi
  | cons x r ih =>
    unfold Memory.writeN
    cases i with
    | zero => simp [m.read_write_same a x h, Memory.read_writeN_other (m.write a x) (a + 1) a r (by omega)]
    | succ i =>
      have := ih (m.write a x) (a + 1) i (m.write_wf a x h) (by simpa using hi)
      simpa [show a + (i + 1) = a + 1 + i by omega] using this

theorem Memory.readN_length (m : Memory) (a n : Nat) : (m.readN a n).length = n := by
  induction n generalizing a with
  | zero => rfl
  | succ n ih => simp [Memory.readN, ih]

/-! ### Units of a list -/

omit [DecidableEq α] in
@[simp] theorem updAt_length (l : List α) (i : Nat) (f : α → α) : (updAt l i f).length = l.length := by
  induction l generalizing i with
  | nil => rfl
  | cons x r ih => cases i <;> simp [updAt, ih]

omit [DecidableEq α] in
theorem nth_updAt_same (l : List α) (d : α) (i : Nat) (f : α → α) (h : i < l.length) : nth (updAt l i f) d i = f (nth l d i) := by
  induction l generalizing i with
  | nil => simp at h
  | cons x r ih =>
    cases i with
    | zero => rfl
    | succ i => exact ih i (by simpa using h)

omit [DecidableEq α] in
theorem nth_updAt_other (l : List α) (d : α) (i j : Nat) (f : α → α) (h : j ≠ i) : nth (updAt l i f) d j = nth l d j := by
  induction l generalizing i j with
  | nil => rfl
  | cons x r ih =>
    cases i with
    | zero => cases j with
      | zero => simp at h
      | succ j => rfl
    | succ i => cases j with
      | zero => rfl
      | succ j => exact ih i j (by omega)

omit [DecidableEq α] in
theorem updAt_all (l : List α) (i : Nat) (f : α → α) (P : α → Prop) (h : ∀ x ∈ l, P x) (hf : ∀ x, P x → P (f x)) :
    ∀ x ∈ updAt l i f, P x := by
  induction l generalizing i with
  | nil => simp [updAt]
  | cons y r ih =>
    cases i with
    | zero =>
      intro x hx
      rcases List.mem_cons.1 hx with rfl | hx
      · exact hf _ (h _ (by simp))
      · exact h _ (by simp [hx])
    | succ i =>
      intro x hx
      rcases List.mem_cons.1 hx with rfl | hx
      · exact h _ (by simp)
      · exact ih i (fun x hx => h x (by simp [hx])) x hx

theorem mput_keys (m : List (Nat × α)) (d : α) (k : Nat) (v : α) : ∀ y ∈ mput m d k v, y.1 = k ∨ y ∈ m := by
  induction m with
  | nil =>
    intro y hy
    unfold mput at hy
    split at hy
    · exact .inr hy
    · exact .inl (by rw [List.mem_singleton.1 hy])
  | cons x r ih =>
    intro y hy
    unfold mput at hy
    split at hy
    · split at hy
      · exact .inr hy
      · exact (List.mem_cons.1 hy).imp (fun e => by rw [e]) id
    · split at hy
      · split at hy
        · exact .inr (List.mem_cons_of_mem _ hy)
        · exact (List.mem_cons.1 hy).imp (fun e => by rw [e]) (List.mem_cons_of_mem _)
      · rcases List.mem_cons.1 hy with e | e
        · exact .inr (by rw [e]; exact List.mem_cons_self ..)
        · exact (ih y e).imp id (List.mem_cons_of_mem _)

/-- A table stays one of rising keys. -/
theorem mput_rises (m : List (Nat × α)) (d : α) (k : Nat) (v : α) (h : Rises m) : Rises (mput m d k v) := by
  induction m with
  | nil =>
    unfold mput
    split
    · exact List.Pairwise.nil
    · exact List.pairwise_singleton _ _
  | cons x r ih =>
    obtain ⟨hx, hr⟩ := List.pairwise_cons.1 h
    unfold mput
    split
    · rename_i hk
      split
      · exact h
      · refine List.pairwise_cons.2 ⟨fun y hy => ?_, h⟩
        rcases List.mem_cons.1 hy with e | e
        · rw [e]; exact hk
        · exact Nat.lt_trans hk (hx y e)
    · rename_i hk
      split
      · rename_i he
        split
        · exact hr
        · exact List.pairwise_cons.2 ⟨fun y hy => by have := hx y hy; simp only [he]; exact this, hr⟩
      · rename_i he
        refine List.pairwise_cons.2 ⟨fun y hy => ?_, ih hr⟩
        rcases mput_keys r d k v y hy with e | e
        · rw [e]; simp only; omega
        · exact hx y e

omit [DecidableEq α] in
theorem mget_absent (m : List (Nat × α)) (d : α) (k : Nat) (h : ∀ y ∈ m, k < y.1) : mget m d k = d := by
  induction m with
  | nil => rfl
  | cons x r ih =>
    have hx := h x (List.mem_cons_self ..)
    unfold mget
    rw [if_neg (by omega)]
    exact ih fun y hy => h y (List.mem_cons_of_mem _ hy)

/-- A key keeps its value when another is written, whatever the defaults are. -/
theorem mget_mput_any (m : List (Nat × α)) (d e : α) (k j : Nat) (v : α) (h : j ≠ k) : mget (mput m d k v) e j = mget m e j := by
  induction m with
  | nil =>
    unfold mput
    split
    · rfl
    · simp [mget, Ne.symm h]
  | cons x r ih =>
    unfold mput
    split
    · split
      · rfl
      · simp [mget, Ne.symm h]
    · split
      · rename_i hk
        split
        · simp [mget, ← hk, Ne.symm h]
        · simp [mget, ← hk, Ne.symm h]
      · simp [mget, ih]

/-- A table of rising keys reads as it was written. -/
theorem mget_mput_rises (m : List (Nat × α)) (d : α) (k : Nat) (v : α) (h : Rises m) : mget (mput m d k v) d k = v := by
  induction m with
  | nil =>
    unfold mput
    split
    · simp_all [mget]
    · simp [mget]
  | cons x r ih =>
    obtain ⟨hx, hr⟩ := List.pairwise_cons.1 h
    unfold mput
    split
    · rename_i hk
      split
      · rename_i hv
        rw [hv]
        refine mget_absent _ _ _ fun y hy => ?_
        rcases List.mem_cons.1 hy with e | e
        · rw [e]; exact hk
        · exact Nat.lt_trans hk (hx y e)
      · simp [mget]
    · split
      · rename_i he
        split
        · rename_i hv
          rw [hv]
          rw [he]; exact mget_absent _ _ _ hx
        · simp [mget]
      · rename_i he
        unfold mget
        rw [if_neg (fun e => he e.symm)]
        exact ih hr

end Sys2Proof.Machine
end

