-- ==== Sys2Proof/Laws/State.lean ====
section
/-! SUPPORT. What each update of State leaves and writes: one lemma per field and update, true by definition. -/

set_option Elab.async false

namespace Sys2Proof.Machine

/-! ### setNum -/

@[simp] theorem State.setNum_pending (s : State) (i j v : Nat) : (s.setNum i j v).pending = s.pending := rfl
@[simp] theorem State.setNum_out (s : State) (i j v : Nat) : (s.setNum i j v).out = s.out := rfl
@[simp] theorem State.setNum_now (s : State) (i j v : Nat) : (s.setNum i j v).now = s.now := rfl
@[simp] theorem State.setNum_freeCtr (s : State) (i j v : Nat) : (s.setNum i j v).freeCtr = s.freeCtr := rfl
@[simp] theorem State.setNum_nextId (s : State) (i j v : Nat) : (s.setNum i j v).nextId = s.nextId := rfl
@[simp] theorem State.setNum_part (s : State) (i j v : Nat) : (s.setNum i j v).part = s.part := rfl
@[simp] theorem State.setNum_run (s : State) (i j v : Nat) : (s.setNum i j v).run = s.run := rfl
@[simp] theorem State.setNum_ev (s : State) (i j v : Nat) : (s.setNum i j v).ev = s.ev := rfl
@[simp] theorem State.setNum_map (s : State) (i j v : Nat) : (s.setNum i j v).map = s.map := rfl
@[simp] theorem State.setNum_tier (s : State) (i j v : Nat) : (s.setNum i j v).tier = s.tier := rfl
@[simp] theorem State.setNum_relay (s : State) (i j v : Nat) : (s.setNum i j v).relay = s.relay := rfl
@[simp] theorem State.setNum_stride (s : State) (i j v : Nat) : (s.setNum i j v).stride = s.stride := rfl
@[simp] theorem State.setNum_ports (s : State) (i j v : Nat) : (s.setNum i j v).ports = s.ports := rfl
@[simp] theorem State.setNum_reqs (s : State) (i j v : Nat) : (s.setNum i j v).reqs = s.reqs := rfl
@[simp] theorem State.setNum_xfers (s : State) (i j v : Nat) : (s.setNum i j v).xfers = s.xfers := rfl
@[simp] theorem State.setNum_bibs (s : State) (i j v : Nat) : (s.setNum i j v).bibs = s.bibs := rfl
@[simp] theorem State.setNum_cores (s : State) (i j v : Nat) : (s.setNum i j v).cores = s.cores := rfl
@[simp] theorem State.setNum_test (s : State) (i j v : Nat) : (s.setNum i j v).test = s.test := rfl

/-! ### add -/

@[simp] theorem State.add_pending (s : State) (i j n : Nat) : (s.add i j n).pending = s.pending := rfl
@[simp] theorem State.add_out (s : State) (i j n : Nat) : (s.add i j n).out = s.out := rfl
@[simp] theorem State.add_now (s : State) (i j n : Nat) : (s.add i j n).now = s.now := rfl
@[simp] theorem State.add_freeCtr (s : State) (i j n : Nat) : (s.add i j n).freeCtr = s.freeCtr := rfl
@[simp] theorem State.add_nextId (s : State) (i j n : Nat) : (s.add i j n).nextId = s.nextId := rfl
@[simp] theorem State.add_part (s : State) (i j n : Nat) : (s.add i j n).part = s.part := rfl
@[simp] theorem State.add_run (s : State) (i j n : Nat) : (s.add i j n).run = s.run := rfl
@[simp] theorem State.add_ev (s : State) (i j n : Nat) : (s.add i j n).ev = s.ev := rfl
@[simp] theorem State.add_map (s : State) (i j n : Nat) : (s.add i j n).map = s.map := rfl
@[simp] theorem State.add_tier (s : State) (i j n : Nat) : (s.add i j n).tier = s.tier := rfl
@[simp] theorem State.add_relay (s : State) (i j n : Nat) : (s.add i j n).relay = s.relay := rfl
@[simp] theorem State.add_stride (s : State) (i j n : Nat) : (s.add i j n).stride = s.stride := rfl
@[simp] theorem State.add_ports (s : State) (i j n : Nat) : (s.add i j n).ports = s.ports := rfl
@[simp] theorem State.add_reqs (s : State) (i j n : Nat) : (s.add i j n).reqs = s.reqs := rfl
@[simp] theorem State.add_xfers (s : State) (i j n : Nat) : (s.add i j n).xfers = s.xfers := rfl
@[simp] theorem State.add_bibs (s : State) (i j n : Nat) : (s.add i j n).bibs = s.bibs := rfl
@[simp] theorem State.add_cores (s : State) (i j n : Nat) : (s.add i j n).cores = s.cores := rfl
@[simp] theorem State.add_test (s : State) (i j n : Nat) : (s.add i j n).test = s.test := rfl

/-! ### bump -/

@[simp] theorem State.bump_pending (s : State) (i j : Nat) : (s.bump i j).pending = s.pending := rfl
@[simp] theorem State.bump_out (s : State) (i j : Nat) : (s.bump i j).out = s.out := rfl
@[simp] theorem State.bump_now (s : State) (i j : Nat) : (s.bump i j).now = s.now := rfl
@[simp] theorem State.bump_freeCtr (s : State) (i j : Nat) : (s.bump i j).freeCtr = s.freeCtr := rfl
@[simp] theorem State.bump_nextId (s : State) (i j : Nat) : (s.bump i j).nextId = s.nextId := rfl
@[simp] theorem State.bump_part (s : State) (i j : Nat) : (s.bump i j).part = s.part := rfl
@[simp] theorem State.bump_run (s : State) (i j : Nat) : (s.bump i j).run = s.run := rfl
@[simp] theorem State.bump_ev (s : State) (i j : Nat) : (s.bump i j).ev = s.ev := rfl
@[simp] theorem State.bump_map (s : State) (i j : Nat) : (s.bump i j).map = s.map := rfl
@[simp] theorem State.bump_tier (s : State) (i j : Nat) : (s.bump i j).tier = s.tier := rfl
@[simp] theorem State.bump_relay (s : State) (i j : Nat) : (s.bump i j).relay = s.relay := rfl
@[simp] theorem State.bump_stride (s : State) (i j : Nat) : (s.bump i j).stride = s.stride := rfl
@[simp] theorem State.bump_ports (s : State) (i j : Nat) : (s.bump i j).ports = s.ports := rfl
@[simp] theorem State.bump_reqs (s : State) (i j : Nat) : (s.bump i j).reqs = s.reqs := rfl
@[simp] theorem State.bump_xfers (s : State) (i j : Nat) : (s.bump i j).xfers = s.xfers := rfl
@[simp] theorem State.bump_bibs (s : State) (i j : Nat) : (s.bump i j).bibs = s.bibs := rfl
@[simp] theorem State.bump_cores (s : State) (i j : Nat) : (s.bump i j).cores = s.cores := rfl
@[simp] theorem State.bump_test (s : State) (i j : Nat) : (s.bump i j).test = s.test := rfl

/-! ### setBlob -/

@[simp] theorem State.setBlob_pending (s : State) (i j : Nat) (v : List Byte) : (s.setBlob i j v).pending = s.pending := rfl
@[simp] theorem State.setBlob_out (s : State) (i j : Nat) (v : List Byte) : (s.setBlob i j v).out = s.out := rfl
@[simp] theorem State.setBlob_now (s : State) (i j : Nat) (v : List Byte) : (s.setBlob i j v).now = s.now := rfl
@[simp] theorem State.setBlob_freeCtr (s : State) (i j : Nat) (v : List Byte) : (s.setBlob i j v).freeCtr = s.freeCtr := rfl
@[simp] theorem State.setBlob_nextId (s : State) (i j : Nat) (v : List Byte) : (s.setBlob i j v).nextId = s.nextId := rfl
@[simp] theorem State.setBlob_part (s : State) (i j : Nat) (v : List Byte) : (s.setBlob i j v).part = s.part := rfl
@[simp] theorem State.setBlob_run (s : State) (i j : Nat) (v : List Byte) : (s.setBlob i j v).run = s.run := rfl
@[simp] theorem State.setBlob_ev (s : State) (i j : Nat) (v : List Byte) : (s.setBlob i j v).ev = s.ev := rfl
@[simp] theorem State.setBlob_map (s : State) (i j : Nat) (v : List Byte) : (s.setBlob i j v).map = s.map := rfl
@[simp] theorem State.setBlob_tier (s : State) (i j : Nat) (v : List Byte) : (s.setBlob i j v).tier = s.tier := rfl
@[simp] theorem State.setBlob_relay (s : State) (i j : Nat) (v : List Byte) : (s.setBlob i j v).relay = s.relay := rfl
@[simp] theorem State.setBlob_stride (s : State) (i j : Nat) (v : List Byte) : (s.setBlob i j v).stride = s.stride := rfl
@[simp] theorem State.setBlob_ports (s : State) (i j : Nat) (v : List Byte) : (s.setBlob i j v).ports = s.ports := rfl
@[simp] theorem State.setBlob_reqs (s : State) (i j : Nat) (v : List Byte) : (s.setBlob i j v).reqs = s.reqs := rfl
@[simp] theorem State.setBlob_xfers (s : State) (i j : Nat) (v : List Byte) : (s.setBlob i j v).xfers = s.xfers := rfl
@[simp] theorem State.setBlob_bibs (s : State) (i j : Nat) (v : List Byte) : (s.setBlob i j v).bibs = s.bibs := rfl
@[simp] theorem State.setBlob_cores (s : State) (i j : Nat) (v : List Byte) : (s.setBlob i j v).cores = s.cores := rfl
@[simp] theorem State.setBlob_test (s : State) (i j : Nat) (v : List Byte) : (s.setBlob i j v).test = s.test := rfl

/-! ### setCtx -/

@[simp] theorem State.setCtx_pending (s : State) (c : Ctx) : (s.setCtx c).pending = s.pending := rfl
@[simp] theorem State.setCtx_out (s : State) (c : Ctx) : (s.setCtx c).out = s.out := rfl
@[simp] theorem State.setCtx_now (s : State) (c : Ctx) : (s.setCtx c).now = s.now := rfl
@[simp] theorem State.setCtx_freeCtr (s : State) (c : Ctx) : (s.setCtx c).freeCtr = s.freeCtr := rfl
@[simp] theorem State.setCtx_nextId (s : State) (c : Ctx) : (s.setCtx c).nextId = s.nextId := rfl
@[simp] theorem State.setCtx_part (s : State) (c : Ctx) : (s.setCtx c).part = s.part := rfl
@[simp] theorem State.setCtx_run (s : State) (c : Ctx) : (s.setCtx c).run = s.run := rfl
@[simp] theorem State.setCtx_ev (s : State) (c : Ctx) : (s.setCtx c).ev = s.ev := rfl
@[simp] theorem State.setCtx_map (s : State) (c : Ctx) : (s.setCtx c).map = s.map := rfl
@[simp] theorem State.setCtx_tier (s : State) (c : Ctx) : (s.setCtx c).tier = s.tier := rfl
@[simp] theorem State.setCtx_relay (s : State) (c : Ctx) : (s.setCtx c).relay = s.relay := rfl
@[simp] theorem State.setCtx_stride (s : State) (c : Ctx) : (s.setCtx c).stride = s.stride := rfl
@[simp] theorem State.setCtx_ports (s : State) (c : Ctx) : (s.setCtx c).ports = s.ports := rfl
@[simp] theorem State.setCtx_reqs (s : State) (c : Ctx) : (s.setCtx c).reqs = s.reqs := rfl
@[simp] theorem State.setCtx_xfers (s : State) (c : Ctx) : (s.setCtx c).xfers = s.xfers := rfl
@[simp] theorem State.setCtx_bibs (s : State) (c : Ctx) : (s.setCtx c).bibs = s.bibs := rfl
@[simp] theorem State.setCtx_cores (s : State) (c : Ctx) : (s.setCtx c).cores = s.cores := rfl
@[simp] theorem State.setCtx_test (s : State) (c : Ctx) : (s.setCtx c).test = s.test := rfl

/-! ### touchP -/

@[simp] theorem State.touchP_pending (s : State) : (s.touchP).pending = s.pending := rfl
@[simp] theorem State.touchP_out (s : State) : (s.touchP).out = s.out := rfl
@[simp] theorem State.touchP_now (s : State) : (s.touchP).now = s.now := rfl
@[simp] theorem State.touchP_freeCtr (s : State) : (s.touchP).freeCtr = s.freeCtr := rfl
@[simp] theorem State.touchP_nextId (s : State) : (s.touchP).nextId = s.nextId := rfl
@[simp] theorem State.touchP_part (s : State) : (s.touchP).part = s.part := rfl
@[simp] theorem State.touchP_run (s : State) : (s.touchP).run = s.run := rfl
@[simp] theorem State.touchP_ev (s : State) : (s.touchP).ev = s.ev := rfl
@[simp] theorem State.touchP_map (s : State) : (s.touchP).map = s.map := rfl
@[simp] theorem State.touchP_tier (s : State) : (s.touchP).tier = s.tier := rfl
@[simp] theorem State.touchP_relay (s : State) : (s.touchP).relay = s.relay := rfl
@[simp] theorem State.touchP_stride (s : State) : (s.touchP).stride = s.stride := rfl
@[simp] theorem State.touchP_ports (s : State) : (s.touchP).ports = s.ports := rfl
@[simp] theorem State.touchP_reqs (s : State) : (s.touchP).reqs = s.reqs := rfl
@[simp] theorem State.touchP_xfers (s : State) : (s.touchP).xfers = s.xfers := rfl
@[simp] theorem State.touchP_bibs (s : State) : (s.touchP).bibs = s.bibs := rfl
@[simp] theorem State.touchP_cores (s : State) : (s.touchP).cores = s.cores := rfl
@[simp] theorem State.touchP_test (s : State) : (s.touchP).test = s.test := rfl

/-! ### modSession -/

@[simp] theorem State.modSession_pending (s : State) (id : Nat) (f : Session → Session) : (s.modSession id f).pending = s.pending := rfl
@[simp] theorem State.modSession_out (s : State) (id : Nat) (f : Session → Session) : (s.modSession id f).out = s.out := rfl
@[simp] theorem State.modSession_now (s : State) (id : Nat) (f : Session → Session) : (s.modSession id f).now = s.now := rfl
@[simp] theorem State.modSession_freeCtr (s : State) (id : Nat) (f : Session → Session) : (s.modSession id f).freeCtr = s.freeCtr := rfl
@[simp] theorem State.modSession_nextId (s : State) (id : Nat) (f : Session → Session) : (s.modSession id f).nextId = s.nextId := rfl
@[simp] theorem State.modSession_part (s : State) (id : Nat) (f : Session → Session) : (s.modSession id f).part = s.part := rfl
@[simp] theorem State.modSession_run (s : State) (id : Nat) (f : Session → Session) : (s.modSession id f).run = s.run := rfl
@[simp] theorem State.modSession_ev (s : State) (id : Nat) (f : Session → Session) : (s.modSession id f).ev = s.ev := rfl
@[simp] theorem State.modSession_map (s : State) (id : Nat) (f : Session → Session) : (s.modSession id f).map = s.map := rfl
@[simp] theorem State.modSession_tier (s : State) (id : Nat) (f : Session → Session) : (s.modSession id f).tier = s.tier := rfl
@[simp] theorem State.modSession_relay (s : State) (id : Nat) (f : Session → Session) : (s.modSession id f).relay = s.relay := rfl
@[simp] theorem State.modSession_stride (s : State) (id : Nat) (f : Session → Session) : (s.modSession id f).stride = s.stride := rfl
@[simp] theorem State.modSession_ports (s : State) (id : Nat) (f : Session → Session) : (s.modSession id f).ports = s.ports := rfl
@[simp] theorem State.modSession_reqs (s : State) (id : Nat) (f : Session → Session) : (s.modSession id f).reqs = s.reqs := rfl
@[simp] theorem State.modSession_xfers (s : State) (id : Nat) (f : Session → Session) : (s.modSession id f).xfers = s.xfers := rfl
@[simp] theorem State.modSession_bibs (s : State) (id : Nat) (f : Session → Session) : (s.modSession id f).bibs = s.bibs := rfl
@[simp] theorem State.modSession_cores (s : State) (id : Nat) (f : Session → Session) : (s.modSession id f).cores = s.cores := rfl
@[simp] theorem State.modSession_test (s : State) (id : Nat) (f : Session → Session) : (s.modSession id f).test = s.test := rfl

/-! ### drawn -/

@[simp] theorem State.drawn_pending (s : State) : (s.drawn).pending = s.pending := rfl
@[simp] theorem State.drawn_out (s : State) : (s.drawn).out = s.out := rfl
@[simp] theorem State.drawn_now (s : State) : (s.drawn).now = s.now := rfl
@[simp] theorem State.drawn_nextId (s : State) : (s.drawn).nextId = s.nextId := rfl
@[simp] theorem State.drawn_part (s : State) : (s.drawn).part = s.part := rfl
@[simp] theorem State.drawn_run (s : State) : (s.drawn).run = s.run := rfl
@[simp] theorem State.drawn_ev (s : State) : (s.drawn).ev = s.ev := rfl
@[simp] theorem State.drawn_dict (s : State) : (s.drawn).dict = s.dict := rfl
@[simp] theorem State.drawn_map (s : State) : (s.drawn).map = s.map := rfl
@[simp] theorem State.drawn_tier (s : State) : (s.drawn).tier = s.tier := rfl
@[simp] theorem State.drawn_relay (s : State) : (s.drawn).relay = s.relay := rfl
@[simp] theorem State.drawn_stride (s : State) : (s.drawn).stride = s.stride := rfl
@[simp] theorem State.drawn_ports (s : State) : (s.drawn).ports = s.ports := rfl
@[simp] theorem State.drawn_reqs (s : State) : (s.drawn).reqs = s.reqs := rfl
@[simp] theorem State.drawn_xfers (s : State) : (s.drawn).xfers = s.xfers := rfl
@[simp] theorem State.drawn_bibs (s : State) : (s.drawn).bibs = s.bibs := rfl
@[simp] theorem State.drawn_cores (s : State) : (s.drawn).cores = s.cores := rfl
@[simp] theorem State.drawn_test (s : State) : (s.drawn).test = s.test := rfl

/-! ### newId -/

@[simp] theorem State.newId_pending (s : State) : (s.newId).pending = s.pending := rfl
@[simp] theorem State.newId_out (s : State) : (s.newId).out = s.out := rfl
@[simp] theorem State.newId_now (s : State) : (s.newId).now = s.now := rfl
@[simp] theorem State.newId_freeCtr (s : State) : (s.newId).freeCtr = s.freeCtr := rfl
@[simp] theorem State.newId_part (s : State) : (s.newId).part = s.part := rfl
@[simp] theorem State.newId_run (s : State) : (s.newId).run = s.run := rfl
@[simp] theorem State.newId_ev (s : State) : (s.newId).ev = s.ev := rfl
@[simp] theorem State.newId_dict (s : State) : (s.newId).dict = s.dict := rfl
@[simp] theorem State.newId_map (s : State) : (s.newId).map = s.map := rfl
@[simp] theorem State.newId_tier (s : State) : (s.newId).tier = s.tier := rfl
@[simp] theorem State.newId_relay (s : State) : (s.newId).relay = s.relay := rfl
@[simp] theorem State.newId_stride (s : State) : (s.newId).stride = s.stride := rfl
@[simp] theorem State.newId_ports (s : State) : (s.newId).ports = s.ports := rfl
@[simp] theorem State.newId_reqs (s : State) : (s.newId).reqs = s.reqs := rfl
@[simp] theorem State.newId_xfers (s : State) : (s.newId).xfers = s.xfers := rfl
@[simp] theorem State.newId_bibs (s : State) : (s.newId).bibs = s.bibs := rfl
@[simp] theorem State.newId_cores (s : State) : (s.newId).cores = s.cores := rfl
@[simp] theorem State.newId_test (s : State) : (s.newId).test = s.test := rfl

/-! ### emit -/

@[simp] theorem State.emit_pending (s : State) (o : Output) : (s.emit o).pending = s.pending := rfl
@[simp] theorem State.emit_now (s : State) (o : Output) : (s.emit o).now = s.now := rfl
@[simp] theorem State.emit_freeCtr (s : State) (o : Output) : (s.emit o).freeCtr = s.freeCtr := rfl
@[simp] theorem State.emit_nextId (s : State) (o : Output) : (s.emit o).nextId = s.nextId := rfl
@[simp] theorem State.emit_part (s : State) (o : Output) : (s.emit o).part = s.part := rfl
@[simp] theorem State.emit_run (s : State) (o : Output) : (s.emit o).run = s.run := rfl
@[simp] theorem State.emit_ev (s : State) (o : Output) : (s.emit o).ev = s.ev := rfl
@[simp] theorem State.emit_dict (s : State) (o : Output) : (s.emit o).dict = s.dict := rfl
@[simp] theorem State.emit_map (s : State) (o : Output) : (s.emit o).map = s.map := rfl
@[simp] theorem State.emit_tier (s : State) (o : Output) : (s.emit o).tier = s.tier := rfl
@[simp] theorem State.emit_relay (s : State) (o : Output) : (s.emit o).relay = s.relay := rfl
@[simp] theorem State.emit_stride (s : State) (o : Output) : (s.emit o).stride = s.stride := rfl
@[simp] theorem State.emit_ports (s : State) (o : Output) : (s.emit o).ports = s.ports := rfl
@[simp] theorem State.emit_reqs (s : State) (o : Output) : (s.emit o).reqs = s.reqs := rfl
@[simp] theorem State.emit_xfers (s : State) (o : Output) : (s.emit o).xfers = s.xfers := rfl
@[simp] theorem State.emit_bibs (s : State) (o : Output) : (s.emit o).bibs = s.bibs := rfl
@[simp] theorem State.emit_cores (s : State) (o : Output) : (s.emit o).cores = s.cores := rfl
@[simp] theorem State.emit_test (s : State) (o : Output) : (s.emit o).test = s.test := rfl

/-! ### modPort -/

@[simp] theorem State.modPort_pending (s : State) (p : Nat) (f : Port → Port) : (s.modPort p f).pending = s.pending := rfl
@[simp] theorem State.modPort_out (s : State) (p : Nat) (f : Port → Port) : (s.modPort p f).out = s.out := rfl
@[simp] theorem State.modPort_now (s : State) (p : Nat) (f : Port → Port) : (s.modPort p f).now = s.now := rfl
@[simp] theorem State.modPort_freeCtr (s : State) (p : Nat) (f : Port → Port) : (s.modPort p f).freeCtr = s.freeCtr := rfl
@[simp] theorem State.modPort_nextId (s : State) (p : Nat) (f : Port → Port) : (s.modPort p f).nextId = s.nextId := rfl
@[simp] theorem State.modPort_part (s : State) (p : Nat) (f : Port → Port) : (s.modPort p f).part = s.part := rfl
@[simp] theorem State.modPort_run (s : State) (p : Nat) (f : Port → Port) : (s.modPort p f).run = s.run := rfl
@[simp] theorem State.modPort_ev (s : State) (p : Nat) (f : Port → Port) : (s.modPort p f).ev = s.ev := rfl
@[simp] theorem State.modPort_dict (s : State) (p : Nat) (f : Port → Port) : (s.modPort p f).dict = s.dict := rfl
@[simp] theorem State.modPort_map (s : State) (p : Nat) (f : Port → Port) : (s.modPort p f).map = s.map := rfl
@[simp] theorem State.modPort_tier (s : State) (p : Nat) (f : Port → Port) : (s.modPort p f).tier = s.tier := rfl
@[simp] theorem State.modPort_relay (s : State) (p : Nat) (f : Port → Port) : (s.modPort p f).relay = s.relay := rfl
@[simp] theorem State.modPort_stride (s : State) (p : Nat) (f : Port → Port) : (s.modPort p f).stride = s.stride := rfl
@[simp] theorem State.modPort_reqs (s : State) (p : Nat) (f : Port → Port) : (s.modPort p f).reqs = s.reqs := rfl
@[simp] theorem State.modPort_xfers (s : State) (p : Nat) (f : Port → Port) : (s.modPort p f).xfers = s.xfers := rfl
@[simp] theorem State.modPort_bibs (s : State) (p : Nat) (f : Port → Port) : (s.modPort p f).bibs = s.bibs := rfl
@[simp] theorem State.modPort_cores (s : State) (p : Nat) (f : Port → Port) : (s.modPort p f).cores = s.cores := rfl
@[simp] theorem State.modPort_test (s : State) (p : Nat) (f : Port → Port) : (s.modPort p f).test = s.test := rfl

/-! ### modLink -/

@[simp] theorem State.modLink_pending (s : State) (p : Nat) (l : LinkId) (f : Link → Link) : (s.modLink p l f).pending = s.pending := rfl
@[simp] theorem State.modLink_out (s : State) (p : Nat) (l : LinkId) (f : Link → Link) : (s.modLink p l f).out = s.out := rfl
@[simp] theorem State.modLink_now (s : State) (p : Nat) (l : LinkId) (f : Link → Link) : (s.modLink p l f).now = s.now := rfl
@[simp] theorem State.modLink_freeCtr (s : State) (p : Nat) (l : LinkId) (f : Link → Link) : (s.modLink p l f).freeCtr = s.freeCtr := rfl
@[simp] theorem State.modLink_nextId (s : State) (p : Nat) (l : LinkId) (f : Link → Link) : (s.modLink p l f).nextId = s.nextId := rfl
@[simp] theorem State.modLink_part (s : State) (p : Nat) (l : LinkId) (f : Link → Link) : (s.modLink p l f).part = s.part := rfl
@[simp] theorem State.modLink_run (s : State) (p : Nat) (l : LinkId) (f : Link → Link) : (s.modLink p l f).run = s.run := rfl
@[simp] theorem State.modLink_ev (s : State) (p : Nat) (l : LinkId) (f : Link → Link) : (s.modLink p l f).ev = s.ev := rfl
@[simp] theorem State.modLink_dict (s : State) (p : Nat) (l : LinkId) (f : Link → Link) : (s.modLink p l f).dict = s.dict := rfl
@[simp] theorem State.modLink_map (s : State) (p : Nat) (l : LinkId) (f : Link → Link) : (s.modLink p l f).map = s.map := rfl
@[simp] theorem State.modLink_tier (s : State) (p : Nat) (l : LinkId) (f : Link → Link) : (s.modLink p l f).tier = s.tier := rfl
@[simp] theorem State.modLink_relay (s : State) (p : Nat) (l : LinkId) (f : Link → Link) : (s.modLink p l f).relay = s.relay := rfl
@[simp] theorem State.modLink_stride (s : State) (p : Nat) (l : LinkId) (f : Link → Link) : (s.modLink p l f).stride = s.stride := rfl
@[simp] theorem State.modLink_reqs (s : State) (p : Nat) (l : LinkId) (f : Link → Link) : (s.modLink p l f).reqs = s.reqs := rfl
@[simp] theorem State.modLink_xfers (s : State) (p : Nat) (l : LinkId) (f : Link → Link) : (s.modLink p l f).xfers = s.xfers := rfl
@[simp] theorem State.modLink_bibs (s : State) (p : Nat) (l : LinkId) (f : Link → Link) : (s.modLink p l f).bibs = s.bibs := rfl
@[simp] theorem State.modLink_cores (s : State) (p : Nat) (l : LinkId) (f : Link → Link) : (s.modLink p l f).cores = s.cores := rfl
@[simp] theorem State.modLink_test (s : State) (p : Nat) (l : LinkId) (f : Link → Link) : (s.modLink p l f).test = s.test := rfl

/-! ### modQueue -/

@[simp] theorem State.modQueue_pending (s : State) (p q : Nat) (f : Queue → Queue) : (s.modQueue p q f).pending = s.pending := rfl
@[simp] theorem State.modQueue_out (s : State) (p q : Nat) (f : Queue → Queue) : (s.modQueue p q f).out = s.out := rfl
@[simp] theorem State.modQueue_now (s : State) (p q : Nat) (f : Queue → Queue) : (s.modQueue p q f).now = s.now := rfl
@[simp] theorem State.modQueue_freeCtr (s : State) (p q : Nat) (f : Queue → Queue) : (s.modQueue p q f).freeCtr = s.freeCtr := rfl
@[simp] theorem State.modQueue_nextId (s : State) (p q : Nat) (f : Queue → Queue) : (s.modQueue p q f).nextId = s.nextId := rfl
@[simp] theorem State.modQueue_part (s : State) (p q : Nat) (f : Queue → Queue) : (s.modQueue p q f).part = s.part := rfl
@[simp] theorem State.modQueue_run (s : State) (p q : Nat) (f : Queue → Queue) : (s.modQueue p q f).run = s.run := rfl
@[simp] theorem State.modQueue_ev (s : State) (p q : Nat) (f : Queue → Queue) : (s.modQueue p q f).ev = s.ev := rfl
@[simp] theorem State.modQueue_dict (s : State) (p q : Nat) (f : Queue → Queue) : (s.modQueue p q f).dict = s.dict := rfl
@[simp] theorem State.modQueue_map (s : State) (p q : Nat) (f : Queue → Queue) : (s.modQueue p q f).map = s.map := rfl
@[simp] theorem State.modQueue_tier (s : State) (p q : Nat) (f : Queue → Queue) : (s.modQueue p q f).tier = s.tier := rfl
@[simp] theorem State.modQueue_relay (s : State) (p q : Nat) (f : Queue → Queue) : (s.modQueue p q f).relay = s.relay := rfl
@[simp] theorem State.modQueue_stride (s : State) (p q : Nat) (f : Queue → Queue) : (s.modQueue p q f).stride = s.stride := rfl
@[simp] theorem State.modQueue_reqs (s : State) (p q : Nat) (f : Queue → Queue) : (s.modQueue p q f).reqs = s.reqs := rfl
@[simp] theorem State.modQueue_xfers (s : State) (p q : Nat) (f : Queue → Queue) : (s.modQueue p q f).xfers = s.xfers := rfl
@[simp] theorem State.modQueue_bibs (s : State) (p q : Nat) (f : Queue → Queue) : (s.modQueue p q f).bibs = s.bibs := rfl
@[simp] theorem State.modQueue_cores (s : State) (p q : Nat) (f : Queue → Queue) : (s.modQueue p q f).cores = s.cores := rfl
@[simp] theorem State.modQueue_test (s : State) (p q : Nat) (f : Queue → Queue) : (s.modQueue p q f).test = s.test := rfl

/-! ### modDma -/

@[simp] theorem State.modDma_pending (s : State) (p : Nat) (l : LinkId) (id : Nat) (f : DmaRead → DmaRead) : (s.modDma p l id f).pending = s.pending := rfl
@[simp] theorem State.modDma_out (s : State) (p : Nat) (l : LinkId) (id : Nat) (f : DmaRead → DmaRead) : (s.modDma p l id f).out = s.out := rfl
@[simp] theorem State.modDma_now (s : State) (p : Nat) (l : LinkId) (id : Nat) (f : DmaRead → DmaRead) : (s.modDma p l id f).now = s.now := rfl
@[simp] theorem State.modDma_freeCtr (s : State) (p : Nat) (l : LinkId) (id : Nat) (f : DmaRead → DmaRead) : (s.modDma p l id f).freeCtr = s.freeCtr := rfl
@[simp] theorem State.modDma_nextId (s : State) (p : Nat) (l : LinkId) (id : Nat) (f : DmaRead → DmaRead) : (s.modDma p l id f).nextId = s.nextId := rfl
@[simp] theorem State.modDma_part (s : State) (p : Nat) (l : LinkId) (id : Nat) (f : DmaRead → DmaRead) : (s.modDma p l id f).part = s.part := rfl
@[simp] theorem State.modDma_run (s : State) (p : Nat) (l : LinkId) (id : Nat) (f : DmaRead → DmaRead) : (s.modDma p l id f).run = s.run := rfl
@[simp] theorem State.modDma_ev (s : State) (p : Nat) (l : LinkId) (id : Nat) (f : DmaRead → DmaRead) : (s.modDma p l id f).ev = s.ev := rfl
@[simp] theorem State.modDma_dict (s : State) (p : Nat) (l : LinkId) (id : Nat) (f : DmaRead → DmaRead) : (s.modDma p l id f).dict = s.dict := rfl
@[simp] theorem State.modDma_map (s : State) (p : Nat) (l : LinkId) (id : Nat) (f : DmaRead → DmaRead) : (s.modDma p l id f).map = s.map := rfl
@[simp] theorem State.modDma_tier (s : State) (p : Nat) (l : LinkId) (id : Nat) (f : DmaRead → DmaRead) : (s.modDma p l id f).tier = s.tier := rfl
@[simp] theorem State.modDma_relay (s : State) (p : Nat) (l : LinkId) (id : Nat) (f : DmaRead → DmaRead) : (s.modDma p l id f).relay = s.relay := rfl
@[simp] theorem State.modDma_stride (s : State) (p : Nat) (l : LinkId) (id : Nat) (f : DmaRead → DmaRead) : (s.modDma p l id f).stride = s.stride := rfl
@[simp] theorem State.modDma_reqs (s : State) (p : Nat) (l : LinkId) (id : Nat) (f : DmaRead → DmaRead) : (s.modDma p l id f).reqs = s.reqs := rfl
@[simp] theorem State.modDma_xfers (s : State) (p : Nat) (l : LinkId) (id : Nat) (f : DmaRead → DmaRead) : (s.modDma p l id f).xfers = s.xfers := rfl
@[simp] theorem State.modDma_bibs (s : State) (p : Nat) (l : LinkId) (id : Nat) (f : DmaRead → DmaRead) : (s.modDma p l id f).bibs = s.bibs := rfl
@[simp] theorem State.modDma_cores (s : State) (p : Nat) (l : LinkId) (id : Nat) (f : DmaRead → DmaRead) : (s.modDma p l id f).cores = s.cores := rfl
@[simp] theorem State.modDma_test (s : State) (p : Nat) (l : LinkId) (id : Nat) (f : DmaRead → DmaRead) : (s.modDma p l id f).test = s.test := rfl

/-! ### setWin -/

@[simp] theorem State.setWin_pending (s : State) (p extent : Nat) (e : WinEntry) : (s.setWin p extent e).pending = s.pending := rfl
@[simp] theorem State.setWin_out (s : State) (p extent : Nat) (e : WinEntry) : (s.setWin p extent e).out = s.out := rfl
@[simp] theorem State.setWin_now (s : State) (p extent : Nat) (e : WinEntry) : (s.setWin p extent e).now = s.now := rfl
@[simp] theorem State.setWin_freeCtr (s : State) (p extent : Nat) (e : WinEntry) : (s.setWin p extent e).freeCtr = s.freeCtr := rfl
@[simp] theorem State.setWin_nextId (s : State) (p extent : Nat) (e : WinEntry) : (s.setWin p extent e).nextId = s.nextId := rfl
@[simp] theorem State.setWin_part (s : State) (p extent : Nat) (e : WinEntry) : (s.setWin p extent e).part = s.part := rfl
@[simp] theorem State.setWin_run (s : State) (p extent : Nat) (e : WinEntry) : (s.setWin p extent e).run = s.run := rfl
@[simp] theorem State.setWin_ev (s : State) (p extent : Nat) (e : WinEntry) : (s.setWin p extent e).ev = s.ev := rfl
@[simp] theorem State.setWin_dict (s : State) (p extent : Nat) (e : WinEntry) : (s.setWin p extent e).dict = s.dict := rfl
@[simp] theorem State.setWin_tier (s : State) (p extent : Nat) (e : WinEntry) : (s.setWin p extent e).tier = s.tier := rfl
@[simp] theorem State.setWin_relay (s : State) (p extent : Nat) (e : WinEntry) : (s.setWin p extent e).relay = s.relay := rfl
@[simp] theorem State.setWin_stride (s : State) (p extent : Nat) (e : WinEntry) : (s.setWin p extent e).stride = s.stride := rfl
@[simp] theorem State.setWin_ports (s : State) (p extent : Nat) (e : WinEntry) : (s.setWin p extent e).ports = s.ports := rfl
@[simp] theorem State.setWin_reqs (s : State) (p extent : Nat) (e : WinEntry) : (s.setWin p extent e).reqs = s.reqs := rfl
@[simp] theorem State.setWin_xfers (s : State) (p extent : Nat) (e : WinEntry) : (s.setWin p extent e).xfers = s.xfers := rfl
@[simp] theorem State.setWin_bibs (s : State) (p extent : Nat) (e : WinEntry) : (s.setWin p extent e).bibs = s.bibs := rfl
@[simp] theorem State.setWin_cores (s : State) (p extent : Nat) (e : WinEntry) : (s.setWin p extent e).cores = s.cores := rfl
@[simp] theorem State.setWin_test (s : State) (p extent : Nat) (e : WinEntry) : (s.setWin p extent e).test = s.test := rfl

/-! ### setPage -/

@[simp] theorem State.setPage_pending (s : State) (lpn : Nat) (e : Page) : (s.setPage lpn e).pending = s.pending := rfl
@[simp] theorem State.setPage_out (s : State) (lpn : Nat) (e : Page) : (s.setPage lpn e).out = s.out := rfl
@[simp] theorem State.setPage_now (s : State) (lpn : Nat) (e : Page) : (s.setPage lpn e).now = s.now := rfl
@[simp] theorem State.setPage_freeCtr (s : State) (lpn : Nat) (e : Page) : (s.setPage lpn e).freeCtr = s.freeCtr := rfl
@[simp] theorem State.setPage_nextId (s : State) (lpn : Nat) (e : Page) : (s.setPage lpn e).nextId = s.nextId := rfl
@[simp] theorem State.setPage_part (s : State) (lpn : Nat) (e : Page) : (s.setPage lpn e).part = s.part := rfl
@[simp] theorem State.setPage_run (s : State) (lpn : Nat) (e : Page) : (s.setPage lpn e).run = s.run := rfl
@[simp] theorem State.setPage_ev (s : State) (lpn : Nat) (e : Page) : (s.setPage lpn e).ev = s.ev := rfl
@[simp] theorem State.setPage_dict (s : State) (lpn : Nat) (e : Page) : (s.setPage lpn e).dict = s.dict := rfl
@[simp] theorem State.setPage_tier (s : State) (lpn : Nat) (e : Page) : (s.setPage lpn e).tier = s.tier := rfl
@[simp] theorem State.setPage_relay (s : State) (lpn : Nat) (e : Page) : (s.setPage lpn e).relay = s.relay := rfl
@[simp] theorem State.setPage_stride (s : State) (lpn : Nat) (e : Page) : (s.setPage lpn e).stride = s.stride := rfl
@[simp] theorem State.setPage_ports (s : State) (lpn : Nat) (e : Page) : (s.setPage lpn e).ports = s.ports := rfl
@[simp] theorem State.setPage_reqs (s : State) (lpn : Nat) (e : Page) : (s.setPage lpn e).reqs = s.reqs := rfl
@[simp] theorem State.setPage_xfers (s : State) (lpn : Nat) (e : Page) : (s.setPage lpn e).xfers = s.xfers := rfl
@[simp] theorem State.setPage_bibs (s : State) (lpn : Nat) (e : Page) : (s.setPage lpn e).bibs = s.bibs := rfl
@[simp] theorem State.setPage_cores (s : State) (lpn : Nat) (e : Page) : (s.setPage lpn e).cores = s.cores := rfl
@[simp] theorem State.setPage_test (s : State) (lpn : Nat) (e : Page) : (s.setPage lpn e).test = s.test := rfl

/-! ### setUse -/

@[simp] theorem State.setUse_pending (s : State) (lpn : Nat) (u : PageUse) : (s.setUse lpn u).pending = s.pending := rfl
@[simp] theorem State.setUse_out (s : State) (lpn : Nat) (u : PageUse) : (s.setUse lpn u).out = s.out := rfl
@[simp] theorem State.setUse_now (s : State) (lpn : Nat) (u : PageUse) : (s.setUse lpn u).now = s.now := rfl
@[simp] theorem State.setUse_freeCtr (s : State) (lpn : Nat) (u : PageUse) : (s.setUse lpn u).freeCtr = s.freeCtr := rfl
@[simp] theorem State.setUse_nextId (s : State) (lpn : Nat) (u : PageUse) : (s.setUse lpn u).nextId = s.nextId := rfl
@[simp] theorem State.setUse_part (s : State) (lpn : Nat) (u : PageUse) : (s.setUse lpn u).part = s.part := rfl
@[simp] theorem State.setUse_run (s : State) (lpn : Nat) (u : PageUse) : (s.setUse lpn u).run = s.run := rfl
@[simp] theorem State.setUse_ev (s : State) (lpn : Nat) (u : PageUse) : (s.setUse lpn u).ev = s.ev := rfl
@[simp] theorem State.setUse_dict (s : State) (lpn : Nat) (u : PageUse) : (s.setUse lpn u).dict = s.dict := rfl
@[simp] theorem State.setUse_tier (s : State) (lpn : Nat) (u : PageUse) : (s.setUse lpn u).tier = s.tier := rfl
@[simp] theorem State.setUse_relay (s : State) (lpn : Nat) (u : PageUse) : (s.setUse lpn u).relay = s.relay := rfl
@[simp] theorem State.setUse_stride (s : State) (lpn : Nat) (u : PageUse) : (s.setUse lpn u).stride = s.stride := rfl
@[simp] theorem State.setUse_ports (s : State) (lpn : Nat) (u : PageUse) : (s.setUse lpn u).ports = s.ports := rfl
@[simp] theorem State.setUse_reqs (s : State) (lpn : Nat) (u : PageUse) : (s.setUse lpn u).reqs = s.reqs := rfl
@[simp] theorem State.setUse_xfers (s : State) (lpn : Nat) (u : PageUse) : (s.setUse lpn u).xfers = s.xfers := rfl
@[simp] theorem State.setUse_bibs (s : State) (lpn : Nat) (u : PageUse) : (s.setUse lpn u).bibs = s.bibs := rfl
@[simp] theorem State.setUse_cores (s : State) (lpn : Nat) (u : PageUse) : (s.setUse lpn u).cores = s.cores := rfl
@[simp] theorem State.setUse_test (s : State) (lpn : Nat) (u : PageUse) : (s.setUse lpn u).test = s.test := rfl

/-! ### modReq -/

@[simp] theorem State.modReq_pending (s : State) (id : Nat) (f : Req → Req) : (s.modReq id f).pending = s.pending := rfl
@[simp] theorem State.modReq_out (s : State) (id : Nat) (f : Req → Req) : (s.modReq id f).out = s.out := rfl
@[simp] theorem State.modReq_now (s : State) (id : Nat) (f : Req → Req) : (s.modReq id f).now = s.now := rfl
@[simp] theorem State.modReq_freeCtr (s : State) (id : Nat) (f : Req → Req) : (s.modReq id f).freeCtr = s.freeCtr := rfl
@[simp] theorem State.modReq_nextId (s : State) (id : Nat) (f : Req → Req) : (s.modReq id f).nextId = s.nextId := rfl
@[simp] theorem State.modReq_part (s : State) (id : Nat) (f : Req → Req) : (s.modReq id f).part = s.part := rfl
@[simp] theorem State.modReq_run (s : State) (id : Nat) (f : Req → Req) : (s.modReq id f).run = s.run := rfl
@[simp] theorem State.modReq_ev (s : State) (id : Nat) (f : Req → Req) : (s.modReq id f).ev = s.ev := rfl
@[simp] theorem State.modReq_dict (s : State) (id : Nat) (f : Req → Req) : (s.modReq id f).dict = s.dict := rfl
@[simp] theorem State.modReq_map (s : State) (id : Nat) (f : Req → Req) : (s.modReq id f).map = s.map := rfl
@[simp] theorem State.modReq_tier (s : State) (id : Nat) (f : Req → Req) : (s.modReq id f).tier = s.tier := rfl
@[simp] theorem State.modReq_relay (s : State) (id : Nat) (f : Req → Req) : (s.modReq id f).relay = s.relay := rfl
@[simp] theorem State.modReq_stride (s : State) (id : Nat) (f : Req → Req) : (s.modReq id f).stride = s.stride := rfl
@[simp] theorem State.modReq_ports (s : State) (id : Nat) (f : Req → Req) : (s.modReq id f).ports = s.ports := rfl
@[simp] theorem State.modReq_xfers (s : State) (id : Nat) (f : Req → Req) : (s.modReq id f).xfers = s.xfers := rfl
@[simp] theorem State.modReq_bibs (s : State) (id : Nat) (f : Req → Req) : (s.modReq id f).bibs = s.bibs := rfl
@[simp] theorem State.modReq_cores (s : State) (id : Nat) (f : Req → Req) : (s.modReq id f).cores = s.cores := rfl
@[simp] theorem State.modReq_test (s : State) (id : Nat) (f : Req → Req) : (s.modReq id f).test = s.test := rfl

/-! ### setStage -/

@[simp] theorem State.setStage_pending (s : State) (r : Req) (st : Stage) : (s.setStage r st).pending = s.pending := rfl
@[simp] theorem State.setStage_out (s : State) (r : Req) (st : Stage) : (s.setStage r st).out = s.out := rfl
@[simp] theorem State.setStage_now (s : State) (r : Req) (st : Stage) : (s.setStage r st).now = s.now := rfl
@[simp] theorem State.setStage_freeCtr (s : State) (r : Req) (st : Stage) : (s.setStage r st).freeCtr = s.freeCtr := rfl
@[simp] theorem State.setStage_nextId (s : State) (r : Req) (st : Stage) : (s.setStage r st).nextId = s.nextId := rfl
@[simp] theorem State.setStage_part (s : State) (r : Req) (st : Stage) : (s.setStage r st).part = s.part := rfl
@[simp] theorem State.setStage_run (s : State) (r : Req) (st : Stage) : (s.setStage r st).run = s.run := rfl
@[simp] theorem State.setStage_ev (s : State) (r : Req) (st : Stage) : (s.setStage r st).ev = s.ev := rfl
@[simp] theorem State.setStage_dict (s : State) (r : Req) (st : Stage) : (s.setStage r st).dict = s.dict := rfl
@[simp] theorem State.setStage_map (s : State) (r : Req) (st : Stage) : (s.setStage r st).map = s.map := rfl
@[simp] theorem State.setStage_tier (s : State) (r : Req) (st : Stage) : (s.setStage r st).tier = s.tier := rfl
@[simp] theorem State.setStage_relay (s : State) (r : Req) (st : Stage) : (s.setStage r st).relay = s.relay := rfl
@[simp] theorem State.setStage_stride (s : State) (r : Req) (st : Stage) : (s.setStage r st).stride = s.stride := rfl
@[simp] theorem State.setStage_ports (s : State) (r : Req) (st : Stage) : (s.setStage r st).ports = s.ports := rfl
@[simp] theorem State.setStage_xfers (s : State) (r : Req) (st : Stage) : (s.setStage r st).xfers = s.xfers := rfl
@[simp] theorem State.setStage_bibs (s : State) (r : Req) (st : Stage) : (s.setStage r st).bibs = s.bibs := rfl
@[simp] theorem State.setStage_cores (s : State) (r : Req) (st : Stage) : (s.setStage r st).cores = s.cores := rfl
@[simp] theorem State.setStage_test (s : State) (r : Req) (st : Stage) : (s.setStage r st).test = s.test := rfl

/-! ### dropReq -/

@[simp] theorem State.dropReq_pending (s : State) (id : Nat) : (s.dropReq id).pending = s.pending := rfl
@[simp] theorem State.dropReq_out (s : State) (id : Nat) : (s.dropReq id).out = s.out := rfl
@[simp] theorem State.dropReq_now (s : State) (id : Nat) : (s.dropReq id).now = s.now := rfl
@[simp] theorem State.dropReq_freeCtr (s : State) (id : Nat) : (s.dropReq id).freeCtr = s.freeCtr := rfl
@[simp] theorem State.dropReq_nextId (s : State) (id : Nat) : (s.dropReq id).nextId = s.nextId := rfl
@[simp] theorem State.dropReq_part (s : State) (id : Nat) : (s.dropReq id).part = s.part := rfl
@[simp] theorem State.dropReq_run (s : State) (id : Nat) : (s.dropReq id).run = s.run := rfl
@[simp] theorem State.dropReq_ev (s : State) (id : Nat) : (s.dropReq id).ev = s.ev := rfl
@[simp] theorem State.dropReq_dict (s : State) (id : Nat) : (s.dropReq id).dict = s.dict := rfl
@[simp] theorem State.dropReq_map (s : State) (id : Nat) : (s.dropReq id).map = s.map := rfl
@[simp] theorem State.dropReq_tier (s : State) (id : Nat) : (s.dropReq id).tier = s.tier := rfl
@[simp] theorem State.dropReq_relay (s : State) (id : Nat) : (s.dropReq id).relay = s.relay := rfl
@[simp] theorem State.dropReq_stride (s : State) (id : Nat) : (s.dropReq id).stride = s.stride := rfl
@[simp] theorem State.dropReq_ports (s : State) (id : Nat) : (s.dropReq id).ports = s.ports := rfl
@[simp] theorem State.dropReq_xfers (s : State) (id : Nat) : (s.dropReq id).xfers = s.xfers := rfl
@[simp] theorem State.dropReq_bibs (s : State) (id : Nat) : (s.dropReq id).bibs = s.bibs := rfl
@[simp] theorem State.dropReq_cores (s : State) (id : Nat) : (s.dropReq id).cores = s.cores := rfl
@[simp] theorem State.dropReq_test (s : State) (id : Nat) : (s.dropReq id).test = s.test := rfl

/-! ### addReq -/

@[simp] theorem State.addReq_pending (s : State) (f : Nat → Req) : (s.addReq f).pending = s.pending := rfl
@[simp] theorem State.addReq_out (s : State) (f : Nat → Req) : (s.addReq f).out = s.out := rfl
@[simp] theorem State.addReq_now (s : State) (f : Nat → Req) : (s.addReq f).now = s.now := rfl
@[simp] theorem State.addReq_freeCtr (s : State) (f : Nat → Req) : (s.addReq f).freeCtr = s.freeCtr := rfl
@[simp] theorem State.addReq_part (s : State) (f : Nat → Req) : (s.addReq f).part = s.part := rfl
@[simp] theorem State.addReq_run (s : State) (f : Nat → Req) : (s.addReq f).run = s.run := rfl
@[simp] theorem State.addReq_ev (s : State) (f : Nat → Req) : (s.addReq f).ev = s.ev := rfl
@[simp] theorem State.addReq_dict (s : State) (f : Nat → Req) : (s.addReq f).dict = s.dict := rfl
@[simp] theorem State.addReq_map (s : State) (f : Nat → Req) : (s.addReq f).map = s.map := rfl
@[simp] theorem State.addReq_tier (s : State) (f : Nat → Req) : (s.addReq f).tier = s.tier := rfl
@[simp] theorem State.addReq_relay (s : State) (f : Nat → Req) : (s.addReq f).relay = s.relay := rfl
@[simp] theorem State.addReq_stride (s : State) (f : Nat → Req) : (s.addReq f).stride = s.stride := rfl
@[simp] theorem State.addReq_ports (s : State) (f : Nat → Req) : (s.addReq f).ports = s.ports := rfl
@[simp] theorem State.addReq_xfers (s : State) (f : Nat → Req) : (s.addReq f).xfers = s.xfers := rfl
@[simp] theorem State.addReq_bibs (s : State) (f : Nat → Req) : (s.addReq f).bibs = s.bibs := rfl
@[simp] theorem State.addReq_cores (s : State) (f : Nat → Req) : (s.addReq f).cores = s.cores := rfl
@[simp] theorem State.addReq_test (s : State) (f : Nat → Req) : (s.addReq f).test = s.test := rfl

/-! ### modItem -/

@[simp] theorem State.modItem_pending (s : State) (id : Nat) (f : Item → Item) : (s.modItem id f).pending = s.pending := rfl
@[simp] theorem State.modItem_out (s : State) (id : Nat) (f : Item → Item) : (s.modItem id f).out = s.out := rfl
@[simp] theorem State.modItem_now (s : State) (id : Nat) (f : Item → Item) : (s.modItem id f).now = s.now := rfl
@[simp] theorem State.modItem_freeCtr (s : State) (id : Nat) (f : Item → Item) : (s.modItem id f).freeCtr = s.freeCtr := rfl
@[simp] theorem State.modItem_nextId (s : State) (id : Nat) (f : Item → Item) : (s.modItem id f).nextId = s.nextId := rfl
@[simp] theorem State.modItem_part (s : State) (id : Nat) (f : Item → Item) : (s.modItem id f).part = s.part := rfl
@[simp] theorem State.modItem_run (s : State) (id : Nat) (f : Item → Item) : (s.modItem id f).run = s.run := rfl
@[simp] theorem State.modItem_ev (s : State) (id : Nat) (f : Item → Item) : (s.modItem id f).ev = s.ev := rfl
@[simp] theorem State.modItem_dict (s : State) (id : Nat) (f : Item → Item) : (s.modItem id f).dict = s.dict := rfl
@[simp] theorem State.modItem_map (s : State) (id : Nat) (f : Item → Item) : (s.modItem id f).map = s.map := rfl
@[simp] theorem State.modItem_tier (s : State) (id : Nat) (f : Item → Item) : (s.modItem id f).tier = s.tier := rfl
@[simp] theorem State.modItem_stride (s : State) (id : Nat) (f : Item → Item) : (s.modItem id f).stride = s.stride := rfl
@[simp] theorem State.modItem_ports (s : State) (id : Nat) (f : Item → Item) : (s.modItem id f).ports = s.ports := rfl
@[simp] theorem State.modItem_reqs (s : State) (id : Nat) (f : Item → Item) : (s.modItem id f).reqs = s.reqs := rfl
@[simp] theorem State.modItem_xfers (s : State) (id : Nat) (f : Item → Item) : (s.modItem id f).xfers = s.xfers := rfl
@[simp] theorem State.modItem_bibs (s : State) (id : Nat) (f : Item → Item) : (s.modItem id f).bibs = s.bibs := rfl
@[simp] theorem State.modItem_cores (s : State) (id : Nat) (f : Item → Item) : (s.modItem id f).cores = s.cores := rfl
@[simp] theorem State.modItem_test (s : State) (id : Nat) (f : Item → Item) : (s.modItem id f).test = s.test := rfl

/-! ### dropItem -/

@[simp] theorem State.dropItem_pending (s : State) (id : Nat) : (s.dropItem id).pending = s.pending := rfl
@[simp] theorem State.dropItem_out (s : State) (id : Nat) : (s.dropItem id).out = s.out := rfl
@[simp] theorem State.dropItem_now (s : State) (id : Nat) : (s.dropItem id).now = s.now := rfl
@[simp] theorem State.dropItem_freeCtr (s : State) (id : Nat) : (s.dropItem id).freeCtr = s.freeCtr := rfl
@[simp] theorem State.dropItem_nextId (s : State) (id : Nat) : (s.dropItem id).nextId = s.nextId := rfl
@[simp] theorem State.dropItem_part (s : State) (id : Nat) : (s.dropItem id).part = s.part := rfl
@[simp] theorem State.dropItem_run (s : State) (id : Nat) : (s.dropItem id).run = s.run := rfl
@[simp] theorem State.dropItem_ev (s : State) (id : Nat) : (s.dropItem id).ev = s.ev := rfl
@[simp] theorem State.dropItem_dict (s : State) (id : Nat) : (s.dropItem id).dict = s.dict := rfl
@[simp] theorem State.dropItem_map (s : State) (id : Nat) : (s.dropItem id).map = s.map := rfl
@[simp] theorem State.dropItem_tier (s : State) (id : Nat) : (s.dropItem id).tier = s.tier := rfl
@[simp] theorem State.dropItem_stride (s : State) (id : Nat) : (s.dropItem id).stride = s.stride := rfl
@[simp] theorem State.dropItem_ports (s : State) (id : Nat) : (s.dropItem id).ports = s.ports := rfl
@[simp] theorem State.dropItem_reqs (s : State) (id : Nat) : (s.dropItem id).reqs = s.reqs := rfl
@[simp] theorem State.dropItem_xfers (s : State) (id : Nat) : (s.dropItem id).xfers = s.xfers := rfl
@[simp] theorem State.dropItem_bibs (s : State) (id : Nat) : (s.dropItem id).bibs = s.bibs := rfl
@[simp] theorem State.dropItem_cores (s : State) (id : Nat) : (s.dropItem id).cores = s.cores := rfl
@[simp] theorem State.dropItem_test (s : State) (id : Nat) : (s.dropItem id).test = s.test := rfl

/-! ### modMove -/

@[simp] theorem State.modMove_pending (s : State) (id : Nat) (f : Move → Move) : (s.modMove id f).pending = s.pending := rfl
@[simp] theorem State.modMove_out (s : State) (id : Nat) (f : Move → Move) : (s.modMove id f).out = s.out := rfl
@[simp] theorem State.modMove_now (s : State) (id : Nat) (f : Move → Move) : (s.modMove id f).now = s.now := rfl
@[simp] theorem State.modMove_freeCtr (s : State) (id : Nat) (f : Move → Move) : (s.modMove id f).freeCtr = s.freeCtr := rfl
@[simp] theorem State.modMove_nextId (s : State) (id : Nat) (f : Move → Move) : (s.modMove id f).nextId = s.nextId := rfl
@[simp] theorem State.modMove_part (s : State) (id : Nat) (f : Move → Move) : (s.modMove id f).part = s.part := rfl
@[simp] theorem State.modMove_run (s : State) (id : Nat) (f : Move → Move) : (s.modMove id f).run = s.run := rfl
@[simp] theorem State.modMove_ev (s : State) (id : Nat) (f : Move → Move) : (s.modMove id f).ev = s.ev := rfl
@[simp] theorem State.modMove_dict (s : State) (id : Nat) (f : Move → Move) : (s.modMove id f).dict = s.dict := rfl
@[simp] theorem State.modMove_map (s : State) (id : Nat) (f : Move → Move) : (s.modMove id f).map = s.map := rfl
@[simp] theorem State.modMove_tier (s : State) (id : Nat) (f : Move → Move) : (s.modMove id f).tier = s.tier := rfl
@[simp] theorem State.modMove_stride (s : State) (id : Nat) (f : Move → Move) : (s.modMove id f).stride = s.stride := rfl
@[simp] theorem State.modMove_ports (s : State) (id : Nat) (f : Move → Move) : (s.modMove id f).ports = s.ports := rfl
@[simp] theorem State.modMove_reqs (s : State) (id : Nat) (f : Move → Move) : (s.modMove id f).reqs = s.reqs := rfl
@[simp] theorem State.modMove_xfers (s : State) (id : Nat) (f : Move → Move) : (s.modMove id f).xfers = s.xfers := rfl
@[simp] theorem State.modMove_bibs (s : State) (id : Nat) (f : Move → Move) : (s.modMove id f).bibs = s.bibs := rfl
@[simp] theorem State.modMove_cores (s : State) (id : Nat) (f : Move → Move) : (s.modMove id f).cores = s.cores := rfl
@[simp] theorem State.modMove_test (s : State) (id : Nat) (f : Move → Move) : (s.modMove id f).test = s.test := rfl

/-! ### modRelay -/

@[simp] theorem State.modRelay_pending (s : State) (e : Nat) (f : Engine → Engine) : (s.modRelay e f).pending = s.pending := rfl
@[simp] theorem State.modRelay_out (s : State) (e : Nat) (f : Engine → Engine) : (s.modRelay e f).out = s.out := rfl
@[simp] theorem State.modRelay_now (s : State) (e : Nat) (f : Engine → Engine) : (s.modRelay e f).now = s.now := rfl
@[simp] theorem State.modRelay_freeCtr (s : State) (e : Nat) (f : Engine → Engine) : (s.modRelay e f).freeCtr = s.freeCtr := rfl
@[simp] theorem State.modRelay_nextId (s : State) (e : Nat) (f : Engine → Engine) : (s.modRelay e f).nextId = s.nextId := rfl
@[simp] theorem State.modRelay_part (s : State) (e : Nat) (f : Engine → Engine) : (s.modRelay e f).part = s.part := rfl
@[simp] theorem State.modRelay_run (s : State) (e : Nat) (f : Engine → Engine) : (s.modRelay e f).run = s.run := rfl
@[simp] theorem State.modRelay_ev (s : State) (e : Nat) (f : Engine → Engine) : (s.modRelay e f).ev = s.ev := rfl
@[simp] theorem State.modRelay_dict (s : State) (e : Nat) (f : Engine → Engine) : (s.modRelay e f).dict = s.dict := rfl
@[simp] theorem State.modRelay_map (s : State) (e : Nat) (f : Engine → Engine) : (s.modRelay e f).map = s.map := rfl
@[simp] theorem State.modRelay_tier (s : State) (e : Nat) (f : Engine → Engine) : (s.modRelay e f).tier = s.tier := rfl
@[simp] theorem State.modRelay_stride (s : State) (e : Nat) (f : Engine → Engine) : (s.modRelay e f).stride = s.stride := rfl
@[simp] theorem State.modRelay_ports (s : State) (e : Nat) (f : Engine → Engine) : (s.modRelay e f).ports = s.ports := rfl
@[simp] theorem State.modRelay_reqs (s : State) (e : Nat) (f : Engine → Engine) : (s.modRelay e f).reqs = s.reqs := rfl
@[simp] theorem State.modRelay_xfers (s : State) (e : Nat) (f : Engine → Engine) : (s.modRelay e f).xfers = s.xfers := rfl
@[simp] theorem State.modRelay_bibs (s : State) (e : Nat) (f : Engine → Engine) : (s.modRelay e f).bibs = s.bibs := rfl
@[simp] theorem State.modRelay_cores (s : State) (e : Nat) (f : Engine → Engine) : (s.modRelay e f).cores = s.cores := rfl
@[simp] theorem State.modRelay_test (s : State) (e : Nat) (f : Engine → Engine) : (s.modRelay e f).test = s.test := rfl

/-! ### modStride -/

@[simp] theorem State.modStride_pending (s : State) (e : Nat) (f : Engine → Engine) : (s.modStride e f).pending = s.pending := rfl
@[simp] theorem State.modStride_out (s : State) (e : Nat) (f : Engine → Engine) : (s.modStride e f).out = s.out := rfl
@[simp] theorem State.modStride_now (s : State) (e : Nat) (f : Engine → Engine) : (s.modStride e f).now = s.now := rfl
@[simp] theorem State.modStride_freeCtr (s : State) (e : Nat) (f : Engine → Engine) : (s.modStride e f).freeCtr = s.freeCtr := rfl
@[simp] theorem State.modStride_nextId (s : State) (e : Nat) (f : Engine → Engine) : (s.modStride e f).nextId = s.nextId := rfl
@[simp] theorem State.modStride_part (s : State) (e : Nat) (f : Engine → Engine) : (s.modStride e f).part = s.part := rfl
@[simp] theorem State.modStride_run (s : State) (e : Nat) (f : Engine → Engine) : (s.modStride e f).run = s.run := rfl
@[simp] theorem State.modStride_ev (s : State) (e : Nat) (f : Engine → Engine) : (s.modStride e f).ev = s.ev := rfl
@[simp] theorem State.modStride_dict (s : State) (e : Nat) (f : Engine → Engine) : (s.modStride e f).dict = s.dict := rfl
@[simp] theorem State.modStride_map (s : State) (e : Nat) (f : Engine → Engine) : (s.modStride e f).map = s.map := rfl
@[simp] theorem State.modStride_tier (s : State) (e : Nat) (f : Engine → Engine) : (s.modStride e f).tier = s.tier := rfl
@[simp] theorem State.modStride_relay (s : State) (e : Nat) (f : Engine → Engine) : (s.modStride e f).relay = s.relay := rfl
@[simp] theorem State.modStride_ports (s : State) (e : Nat) (f : Engine → Engine) : (s.modStride e f).ports = s.ports := rfl
@[simp] theorem State.modStride_reqs (s : State) (e : Nat) (f : Engine → Engine) : (s.modStride e f).reqs = s.reqs := rfl
@[simp] theorem State.modStride_xfers (s : State) (e : Nat) (f : Engine → Engine) : (s.modStride e f).xfers = s.xfers := rfl
@[simp] theorem State.modStride_bibs (s : State) (e : Nat) (f : Engine → Engine) : (s.modStride e f).bibs = s.bibs := rfl
@[simp] theorem State.modStride_cores (s : State) (e : Nat) (f : Engine → Engine) : (s.modStride e f).cores = s.cores := rfl
@[simp] theorem State.modStride_test (s : State) (e : Nat) (f : Engine → Engine) : (s.modStride e f).test = s.test := rfl

/-! ### modJob -/

@[simp] theorem State.modJob_pending (s : State) (id : Nat) (f : Job → Job) : (s.modJob id f).pending = s.pending := rfl
@[simp] theorem State.modJob_out (s : State) (id : Nat) (f : Job → Job) : (s.modJob id f).out = s.out := rfl
@[simp] theorem State.modJob_now (s : State) (id : Nat) (f : Job → Job) : (s.modJob id f).now = s.now := rfl
@[simp] theorem State.modJob_freeCtr (s : State) (id : Nat) (f : Job → Job) : (s.modJob id f).freeCtr = s.freeCtr := rfl
@[simp] theorem State.modJob_nextId (s : State) (id : Nat) (f : Job → Job) : (s.modJob id f).nextId = s.nextId := rfl
@[simp] theorem State.modJob_part (s : State) (id : Nat) (f : Job → Job) : (s.modJob id f).part = s.part := rfl
@[simp] theorem State.modJob_run (s : State) (id : Nat) (f : Job → Job) : (s.modJob id f).run = s.run := rfl
@[simp] theorem State.modJob_ev (s : State) (id : Nat) (f : Job → Job) : (s.modJob id f).ev = s.ev := rfl
@[simp] theorem State.modJob_dict (s : State) (id : Nat) (f : Job → Job) : (s.modJob id f).dict = s.dict := rfl
@[simp] theorem State.modJob_map (s : State) (id : Nat) (f : Job → Job) : (s.modJob id f).map = s.map := rfl
@[simp] theorem State.modJob_tier (s : State) (id : Nat) (f : Job → Job) : (s.modJob id f).tier = s.tier := rfl
@[simp] theorem State.modJob_relay (s : State) (id : Nat) (f : Job → Job) : (s.modJob id f).relay = s.relay := rfl
@[simp] theorem State.modJob_ports (s : State) (id : Nat) (f : Job → Job) : (s.modJob id f).ports = s.ports := rfl
@[simp] theorem State.modJob_reqs (s : State) (id : Nat) (f : Job → Job) : (s.modJob id f).reqs = s.reqs := rfl
@[simp] theorem State.modJob_xfers (s : State) (id : Nat) (f : Job → Job) : (s.modJob id f).xfers = s.xfers := rfl
@[simp] theorem State.modJob_bibs (s : State) (id : Nat) (f : Job → Job) : (s.modJob id f).bibs = s.bibs := rfl
@[simp] theorem State.modJob_cores (s : State) (id : Nat) (f : Job → Job) : (s.modJob id f).cores = s.cores := rfl
@[simp] theorem State.modJob_test (s : State) (id : Nat) (f : Job → Job) : (s.modJob id f).test = s.test := rfl

/-! ### modLeg -/

@[simp] theorem State.modLeg_pending (s : State) (id : Nat) (f : Leg → Leg) : (s.modLeg id f).pending = s.pending := rfl
@[simp] theorem State.modLeg_out (s : State) (id : Nat) (f : Leg → Leg) : (s.modLeg id f).out = s.out := rfl
@[simp] theorem State.modLeg_now (s : State) (id : Nat) (f : Leg → Leg) : (s.modLeg id f).now = s.now := rfl
@[simp] theorem State.modLeg_freeCtr (s : State) (id : Nat) (f : Leg → Leg) : (s.modLeg id f).freeCtr = s.freeCtr := rfl
@[simp] theorem State.modLeg_nextId (s : State) (id : Nat) (f : Leg → Leg) : (s.modLeg id f).nextId = s.nextId := rfl
@[simp] theorem State.modLeg_part (s : State) (id : Nat) (f : Leg → Leg) : (s.modLeg id f).part = s.part := rfl
@[simp] theorem State.modLeg_run (s : State) (id : Nat) (f : Leg → Leg) : (s.modLeg id f).run = s.run := rfl
@[simp] theorem State.modLeg_ev (s : State) (id : Nat) (f : Leg → Leg) : (s.modLeg id f).ev = s.ev := rfl
@[simp] theorem State.modLeg_dict (s : State) (id : Nat) (f : Leg → Leg) : (s.modLeg id f).dict = s.dict := rfl
@[simp] theorem State.modLeg_map (s : State) (id : Nat) (f : Leg → Leg) : (s.modLeg id f).map = s.map := rfl
@[simp] theorem State.modLeg_tier (s : State) (id : Nat) (f : Leg → Leg) : (s.modLeg id f).tier = s.tier := rfl
@[simp] theorem State.modLeg_relay (s : State) (id : Nat) (f : Leg → Leg) : (s.modLeg id f).relay = s.relay := rfl
@[simp] theorem State.modLeg_ports (s : State) (id : Nat) (f : Leg → Leg) : (s.modLeg id f).ports = s.ports := rfl
@[simp] theorem State.modLeg_reqs (s : State) (id : Nat) (f : Leg → Leg) : (s.modLeg id f).reqs = s.reqs := rfl
@[simp] theorem State.modLeg_xfers (s : State) (id : Nat) (f : Leg → Leg) : (s.modLeg id f).xfers = s.xfers := rfl
@[simp] theorem State.modLeg_bibs (s : State) (id : Nat) (f : Leg → Leg) : (s.modLeg id f).bibs = s.bibs := rfl
@[simp] theorem State.modLeg_cores (s : State) (id : Nat) (f : Leg → Leg) : (s.modLeg id f).cores = s.cores := rfl
@[simp] theorem State.modLeg_test (s : State) (id : Nat) (f : Leg → Leg) : (s.modLeg id f).test = s.test := rfl

/-! ### modBib -/

@[simp] theorem State.modBib_pending (s : State) (b : Nat) (f : Bib → Bib) : (s.modBib b f).pending = s.pending := rfl
@[simp] theorem State.modBib_out (s : State) (b : Nat) (f : Bib → Bib) : (s.modBib b f).out = s.out := rfl
@[simp] theorem State.modBib_now (s : State) (b : Nat) (f : Bib → Bib) : (s.modBib b f).now = s.now := rfl
@[simp] theorem State.modBib_freeCtr (s : State) (b : Nat) (f : Bib → Bib) : (s.modBib b f).freeCtr = s.freeCtr := rfl
@[simp] theorem State.modBib_nextId (s : State) (b : Nat) (f : Bib → Bib) : (s.modBib b f).nextId = s.nextId := rfl
@[simp] theorem State.modBib_part (s : State) (b : Nat) (f : Bib → Bib) : (s.modBib b f).part = s.part := rfl
@[simp] theorem State.modBib_run (s : State) (b : Nat) (f : Bib → Bib) : (s.modBib b f).run = s.run := rfl
@[simp] theorem State.modBib_ev (s : State) (b : Nat) (f : Bib → Bib) : (s.modBib b f).ev = s.ev := rfl
@[simp] theorem State.modBib_dict (s : State) (b : Nat) (f : Bib → Bib) : (s.modBib b f).dict = s.dict := rfl
@[simp] theorem State.modBib_map (s : State) (b : Nat) (f : Bib → Bib) : (s.modBib b f).map = s.map := rfl
@[simp] theorem State.modBib_tier (s : State) (b : Nat) (f : Bib → Bib) : (s.modBib b f).tier = s.tier := rfl
@[simp] theorem State.modBib_relay (s : State) (b : Nat) (f : Bib → Bib) : (s.modBib b f).relay = s.relay := rfl
@[simp] theorem State.modBib_stride (s : State) (b : Nat) (f : Bib → Bib) : (s.modBib b f).stride = s.stride := rfl
@[simp] theorem State.modBib_ports (s : State) (b : Nat) (f : Bib → Bib) : (s.modBib b f).ports = s.ports := rfl
@[simp] theorem State.modBib_reqs (s : State) (b : Nat) (f : Bib → Bib) : (s.modBib b f).reqs = s.reqs := rfl
@[simp] theorem State.modBib_xfers (s : State) (b : Nat) (f : Bib → Bib) : (s.modBib b f).xfers = s.xfers := rfl
@[simp] theorem State.modBib_cores (s : State) (b : Nat) (f : Bib → Bib) : (s.modBib b f).cores = s.cores := rfl
@[simp] theorem State.modBib_test (s : State) (b : Nat) (f : Bib → Bib) : (s.modBib b f).test = s.test := rfl

/-! ### modChan -/

@[simp] theorem State.modChan_pending (s : State) (c : Nat) (f : Chan → Chan) : (s.modChan c f).pending = s.pending := rfl
@[simp] theorem State.modChan_out (s : State) (c : Nat) (f : Chan → Chan) : (s.modChan c f).out = s.out := rfl
@[simp] theorem State.modChan_now (s : State) (c : Nat) (f : Chan → Chan) : (s.modChan c f).now = s.now := rfl
@[simp] theorem State.modChan_freeCtr (s : State) (c : Nat) (f : Chan → Chan) : (s.modChan c f).freeCtr = s.freeCtr := rfl
@[simp] theorem State.modChan_nextId (s : State) (c : Nat) (f : Chan → Chan) : (s.modChan c f).nextId = s.nextId := rfl
@[simp] theorem State.modChan_part (s : State) (c : Nat) (f : Chan → Chan) : (s.modChan c f).part = s.part := rfl
@[simp] theorem State.modChan_run (s : State) (c : Nat) (f : Chan → Chan) : (s.modChan c f).run = s.run := rfl
@[simp] theorem State.modChan_ev (s : State) (c : Nat) (f : Chan → Chan) : (s.modChan c f).ev = s.ev := rfl
@[simp] theorem State.modChan_dict (s : State) (c : Nat) (f : Chan → Chan) : (s.modChan c f).dict = s.dict := rfl
@[simp] theorem State.modChan_map (s : State) (c : Nat) (f : Chan → Chan) : (s.modChan c f).map = s.map := rfl
@[simp] theorem State.modChan_relay (s : State) (c : Nat) (f : Chan → Chan) : (s.modChan c f).relay = s.relay := rfl
@[simp] theorem State.modChan_stride (s : State) (c : Nat) (f : Chan → Chan) : (s.modChan c f).stride = s.stride := rfl
@[simp] theorem State.modChan_ports (s : State) (c : Nat) (f : Chan → Chan) : (s.modChan c f).ports = s.ports := rfl
@[simp] theorem State.modChan_reqs (s : State) (c : Nat) (f : Chan → Chan) : (s.modChan c f).reqs = s.reqs := rfl
@[simp] theorem State.modChan_xfers (s : State) (c : Nat) (f : Chan → Chan) : (s.modChan c f).xfers = s.xfers := rfl
@[simp] theorem State.modChan_bibs (s : State) (c : Nat) (f : Chan → Chan) : (s.modChan c f).bibs = s.bibs := rfl
@[simp] theorem State.modChan_cores (s : State) (c : Nat) (f : Chan → Chan) : (s.modChan c f).cores = s.cores := rfl
@[simp] theorem State.modChan_test (s : State) (c : Nat) (f : Chan → Chan) : (s.modChan c f).test = s.test := rfl

/-! ### modPc -/

@[simp] theorem State.modPc_pending (s : State) (st pc : Nat) (f : Pc → Pc) : (s.modPc st pc f).pending = s.pending := rfl
@[simp] theorem State.modPc_out (s : State) (st pc : Nat) (f : Pc → Pc) : (s.modPc st pc f).out = s.out := rfl
@[simp] theorem State.modPc_now (s : State) (st pc : Nat) (f : Pc → Pc) : (s.modPc st pc f).now = s.now := rfl
@[simp] theorem State.modPc_freeCtr (s : State) (st pc : Nat) (f : Pc → Pc) : (s.modPc st pc f).freeCtr = s.freeCtr := rfl
@[simp] theorem State.modPc_nextId (s : State) (st pc : Nat) (f : Pc → Pc) : (s.modPc st pc f).nextId = s.nextId := rfl
@[simp] theorem State.modPc_part (s : State) (st pc : Nat) (f : Pc → Pc) : (s.modPc st pc f).part = s.part := rfl
@[simp] theorem State.modPc_run (s : State) (st pc : Nat) (f : Pc → Pc) : (s.modPc st pc f).run = s.run := rfl
@[simp] theorem State.modPc_ev (s : State) (st pc : Nat) (f : Pc → Pc) : (s.modPc st pc f).ev = s.ev := rfl
@[simp] theorem State.modPc_dict (s : State) (st pc : Nat) (f : Pc → Pc) : (s.modPc st pc f).dict = s.dict := rfl
@[simp] theorem State.modPc_map (s : State) (st pc : Nat) (f : Pc → Pc) : (s.modPc st pc f).map = s.map := rfl
@[simp] theorem State.modPc_relay (s : State) (st pc : Nat) (f : Pc → Pc) : (s.modPc st pc f).relay = s.relay := rfl
@[simp] theorem State.modPc_stride (s : State) (st pc : Nat) (f : Pc → Pc) : (s.modPc st pc f).stride = s.stride := rfl
@[simp] theorem State.modPc_ports (s : State) (st pc : Nat) (f : Pc → Pc) : (s.modPc st pc f).ports = s.ports := rfl
@[simp] theorem State.modPc_reqs (s : State) (st pc : Nat) (f : Pc → Pc) : (s.modPc st pc f).reqs = s.reqs := rfl
@[simp] theorem State.modPc_xfers (s : State) (st pc : Nat) (f : Pc → Pc) : (s.modPc st pc f).xfers = s.xfers := rfl
@[simp] theorem State.modPc_bibs (s : State) (st pc : Nat) (f : Pc → Pc) : (s.modPc st pc f).bibs = s.bibs := rfl
@[simp] theorem State.modPc_cores (s : State) (st pc : Nat) (f : Pc → Pc) : (s.modPc st pc f).cores = s.cores := rfl
@[simp] theorem State.modPc_test (s : State) (st pc : Nat) (f : Pc → Pc) : (s.modPc st pc f).test = s.test := rfl

/-! ### tick -/

@[simp] theorem tick_pending (s : State) : (tick s).pending = s.pending := rfl
@[simp] theorem tick_out (s : State) : (tick s).out = s.out := rfl
@[simp] theorem tick_freeCtr (s : State) : (tick s).freeCtr = s.freeCtr := rfl
@[simp] theorem tick_nextId (s : State) : (tick s).nextId = s.nextId := rfl
@[simp] theorem tick_part (s : State) : (tick s).part = s.part := rfl
@[simp] theorem tick_run (s : State) : (tick s).run = s.run := rfl
@[simp] theorem tick_ev (s : State) : (tick s).ev = s.ev := rfl
@[simp] theorem tick_dict (s : State) : (tick s).dict = s.dict := rfl
@[simp] theorem tick_map (s : State) : (tick s).map = s.map := rfl
@[simp] theorem tick_tier (s : State) : (tick s).tier = s.tier := rfl
@[simp] theorem tick_relay (s : State) : (tick s).relay = s.relay := rfl
@[simp] theorem tick_stride (s : State) : (tick s).stride = s.stride := rfl
@[simp] theorem tick_ports (s : State) : (tick s).ports = s.ports := rfl
@[simp] theorem tick_reqs (s : State) : (tick s).reqs = s.reqs := rfl
@[simp] theorem tick_xfers (s : State) : (tick s).xfers = s.xfers := rfl
@[simp] theorem tick_bibs (s : State) : (tick s).bibs = s.bibs := rfl
@[simp] theorem tick_cores (s : State) : (tick s).cores = s.cores := rfl
@[simp] theorem tick_test (s : State) : (tick s).test = s.test := rfl

/-! ### dropFlows -/

@[simp] theorem State.dropFlows_pending (s : State) (id : Nat) : (s.dropFlows id).pending = s.pending := rfl
@[simp] theorem State.dropFlows_out (s : State) (id : Nat) : (s.dropFlows id).out = s.out := rfl
@[simp] theorem State.dropFlows_now (s : State) (id : Nat) : (s.dropFlows id).now = s.now := rfl
@[simp] theorem State.dropFlows_freeCtr (s : State) (id : Nat) : (s.dropFlows id).freeCtr = s.freeCtr := rfl
@[simp] theorem State.dropFlows_nextId (s : State) (id : Nat) : (s.dropFlows id).nextId = s.nextId := rfl
@[simp] theorem State.dropFlows_part (s : State) (id : Nat) : (s.dropFlows id).part = s.part := rfl
@[simp] theorem State.dropFlows_run (s : State) (id : Nat) : (s.dropFlows id).run = s.run := rfl
@[simp] theorem State.dropFlows_ev (s : State) (id : Nat) : (s.dropFlows id).ev = s.ev := rfl
@[simp] theorem State.dropFlows_dict (s : State) (id : Nat) : (s.dropFlows id).dict = s.dict := rfl
@[simp] theorem State.dropFlows_map (s : State) (id : Nat) : (s.dropFlows id).map = s.map := rfl
@[simp] theorem State.dropFlows_relay (s : State) (id : Nat) : (s.dropFlows id).relay = s.relay := rfl
@[simp] theorem State.dropFlows_stride (s : State) (id : Nat) : (s.dropFlows id).stride = s.stride := rfl
@[simp] theorem State.dropFlows_ports (s : State) (id : Nat) : (s.dropFlows id).ports = s.ports := rfl
@[simp] theorem State.dropFlows_reqs (s : State) (id : Nat) : (s.dropFlows id).reqs = s.reqs := rfl
@[simp] theorem State.dropFlows_xfers (s : State) (id : Nat) : (s.dropFlows id).xfers = s.xfers := rfl
@[simp] theorem State.dropFlows_bibs (s : State) (id : Nat) : (s.dropFlows id).bibs = s.bibs := rfl
@[simp] theorem State.dropFlows_cores (s : State) (id : Nat) : (s.dropFlows id).cores = s.cores := rfl
@[simp] theorem State.dropFlows_test (s : State) (id : Nat) : (s.dropFlows id).test = s.test := rfl

/-! ### dropReads -/

@[simp] theorem State.dropReads_pending (s : State) (p : Nat) (l : LinkId) (o : DmaOwner) : (s.dropReads p l o).pending = s.pending := rfl
@[simp] theorem State.dropReads_out (s : State) (p : Nat) (l : LinkId) (o : DmaOwner) : (s.dropReads p l o).out = s.out := rfl
@[simp] theorem State.dropReads_now (s : State) (p : Nat) (l : LinkId) (o : DmaOwner) : (s.dropReads p l o).now = s.now := rfl
@[simp] theorem State.dropReads_freeCtr (s : State) (p : Nat) (l : LinkId) (o : DmaOwner) : (s.dropReads p l o).freeCtr = s.freeCtr := rfl
@[simp] theorem State.dropReads_nextId (s : State) (p : Nat) (l : LinkId) (o : DmaOwner) : (s.dropReads p l o).nextId = s.nextId := rfl
@[simp] theorem State.dropReads_part (s : State) (p : Nat) (l : LinkId) (o : DmaOwner) : (s.dropReads p l o).part = s.part := rfl
@[simp] theorem State.dropReads_run (s : State) (p : Nat) (l : LinkId) (o : DmaOwner) : (s.dropReads p l o).run = s.run := rfl
@[simp] theorem State.dropReads_ev (s : State) (p : Nat) (l : LinkId) (o : DmaOwner) : (s.dropReads p l o).ev = s.ev := rfl
@[simp] theorem State.dropReads_dict (s : State) (p : Nat) (l : LinkId) (o : DmaOwner) : (s.dropReads p l o).dict = s.dict := rfl
@[simp] theorem State.dropReads_map (s : State) (p : Nat) (l : LinkId) (o : DmaOwner) : (s.dropReads p l o).map = s.map := rfl
@[simp] theorem State.dropReads_tier (s : State) (p : Nat) (l : LinkId) (o : DmaOwner) : (s.dropReads p l o).tier = s.tier := rfl
@[simp] theorem State.dropReads_relay (s : State) (p : Nat) (l : LinkId) (o : DmaOwner) : (s.dropReads p l o).relay = s.relay := rfl
@[simp] theorem State.dropReads_stride (s : State) (p : Nat) (l : LinkId) (o : DmaOwner) : (s.dropReads p l o).stride = s.stride := rfl
@[simp] theorem State.dropReads_reqs (s : State) (p : Nat) (l : LinkId) (o : DmaOwner) : (s.dropReads p l o).reqs = s.reqs := rfl
@[simp] theorem State.dropReads_xfers (s : State) (p : Nat) (l : LinkId) (o : DmaOwner) : (s.dropReads p l o).xfers = s.xfers := rfl
@[simp] theorem State.dropReads_bibs (s : State) (p : Nat) (l : LinkId) (o : DmaOwner) : (s.dropReads p l o).bibs = s.bibs := rfl
@[simp] theorem State.dropReads_cores (s : State) (p : Nat) (l : LinkId) (o : DmaOwner) : (s.dropReads p l o).cores = s.cores := rfl
@[simp] theorem State.dropReads_test (s : State) (p : Nat) (l : LinkId) (o : DmaOwner) : (s.dropReads p l o).test = s.test := rfl

/-! ### unready -/

@[simp] theorem State.unready_pending (s : State) (p : Nat) (l : LinkId) (a n : Nat) : (s.unready p l a n).pending = s.pending := rfl
@[simp] theorem State.unready_out (s : State) (p : Nat) (l : LinkId) (a n : Nat) : (s.unready p l a n).out = s.out := rfl
@[simp] theorem State.unready_now (s : State) (p : Nat) (l : LinkId) (a n : Nat) : (s.unready p l a n).now = s.now := rfl
@[simp] theorem State.unready_freeCtr (s : State) (p : Nat) (l : LinkId) (a n : Nat) : (s.unready p l a n).freeCtr = s.freeCtr := rfl
@[simp] theorem State.unready_nextId (s : State) (p : Nat) (l : LinkId) (a n : Nat) : (s.unready p l a n).nextId = s.nextId := rfl
@[simp] theorem State.unready_part (s : State) (p : Nat) (l : LinkId) (a n : Nat) : (s.unready p l a n).part = s.part := rfl
@[simp] theorem State.unready_run (s : State) (p : Nat) (l : LinkId) (a n : Nat) : (s.unready p l a n).run = s.run := rfl
@[simp] theorem State.unready_ev (s : State) (p : Nat) (l : LinkId) (a n : Nat) : (s.unready p l a n).ev = s.ev := rfl
@[simp] theorem State.unready_dict (s : State) (p : Nat) (l : LinkId) (a n : Nat) : (s.unready p l a n).dict = s.dict := rfl
@[simp] theorem State.unready_map (s : State) (p : Nat) (l : LinkId) (a n : Nat) : (s.unready p l a n).map = s.map := rfl
@[simp] theorem State.unready_tier (s : State) (p : Nat) (l : LinkId) (a n : Nat) : (s.unready p l a n).tier = s.tier := rfl
@[simp] theorem State.unready_relay (s : State) (p : Nat) (l : LinkId) (a n : Nat) : (s.unready p l a n).relay = s.relay := rfl
@[simp] theorem State.unready_ports (s : State) (p : Nat) (l : LinkId) (a n : Nat) : (s.unready p l a n).ports = s.ports := rfl
@[simp] theorem State.unready_reqs (s : State) (p : Nat) (l : LinkId) (a n : Nat) : (s.unready p l a n).reqs = s.reqs := rfl
@[simp] theorem State.unready_xfers (s : State) (p : Nat) (l : LinkId) (a n : Nat) : (s.unready p l a n).xfers = s.xfers := rfl
@[simp] theorem State.unready_bibs (s : State) (p : Nat) (l : LinkId) (a n : Nat) : (s.unready p l a n).bibs = s.bibs := rfl
@[simp] theorem State.unready_cores (s : State) (p : Nat) (l : LinkId) (a n : Nat) : (s.unready p l a n).cores = s.cores := rfl
@[simp] theorem State.unready_test (s : State) (p : Nat) (l : LinkId) (a n : Nat) : (s.unready p l a n).test = s.test := rfl

/-! ### addFlow -/

@[simp] theorem State.addFlow_pending (s : State) (o : QOwner) (u : DramUnit) (w : Bool) (first n : Nat) (bib port : Option Nat) : (s.addFlow o u w first n bib port).pending = s.pending :=
    by unfold State.addFlow; split <;> rfl
@[simp] theorem State.addFlow_out (s : State) (o : QOwner) (u : DramUnit) (w : Bool) (first n : Nat) (bib port : Option Nat) : (s.addFlow o u w first n bib port).out = s.out :=
    by unfold State.addFlow; split <;> rfl
@[simp] theorem State.addFlow_now (s : State) (o : QOwner) (u : DramUnit) (w : Bool) (first n : Nat) (bib port : Option Nat) : (s.addFlow o u w first n bib port).now = s.now :=
    by unfold State.addFlow; split <;> rfl
@[simp] theorem State.addFlow_freeCtr (s : State) (o : QOwner) (u : DramUnit) (w : Bool) (first n : Nat) (bib port : Option Nat) : (s.addFlow o u w first n bib port).freeCtr = s.freeCtr :=
    by unfold State.addFlow; split <;> rfl
@[simp] theorem State.addFlow_part (s : State) (o : QOwner) (u : DramUnit) (w : Bool) (first n : Nat) (bib port : Option Nat) : (s.addFlow o u w first n bib port).part = s.part :=
    by unfold State.addFlow; split <;> rfl
@[simp] theorem State.addFlow_run (s : State) (o : QOwner) (u : DramUnit) (w : Bool) (first n : Nat) (bib port : Option Nat) : (s.addFlow o u w first n bib port).run = s.run :=
    by unfold State.addFlow; split <;> rfl
@[simp] theorem State.addFlow_ev (s : State) (o : QOwner) (u : DramUnit) (w : Bool) (first n : Nat) (bib port : Option Nat) : (s.addFlow o u w first n bib port).ev = s.ev :=
    by unfold State.addFlow; split <;> rfl
@[simp] theorem State.addFlow_dict (s : State) (o : QOwner) (u : DramUnit) (w : Bool) (first n : Nat) (bib port : Option Nat) : (s.addFlow o u w first n bib port).dict = s.dict :=
    by unfold State.addFlow; split <;> rfl
@[simp] theorem State.addFlow_map (s : State) (o : QOwner) (u : DramUnit) (w : Bool) (first n : Nat) (bib port : Option Nat) : (s.addFlow o u w first n bib port).map = s.map :=
    by unfold State.addFlow; split <;> rfl
@[simp] theorem State.addFlow_relay (s : State) (o : QOwner) (u : DramUnit) (w : Bool) (first n : Nat) (bib port : Option Nat) : (s.addFlow o u w first n bib port).relay = s.relay :=
    by unfold State.addFlow; split <;> rfl
@[simp] theorem State.addFlow_stride (s : State) (o : QOwner) (u : DramUnit) (w : Bool) (first n : Nat) (bib port : Option Nat) : (s.addFlow o u w first n bib port).stride = s.stride :=
    by unfold State.addFlow; split <;> rfl
@[simp] theorem State.addFlow_ports (s : State) (o : QOwner) (u : DramUnit) (w : Bool) (first n : Nat) (bib port : Option Nat) : (s.addFlow o u w first n bib port).ports = s.ports :=
    by unfold State.addFlow; split <;> rfl
@[simp] theorem State.addFlow_reqs (s : State) (o : QOwner) (u : DramUnit) (w : Bool) (first n : Nat) (bib port : Option Nat) : (s.addFlow o u w first n bib port).reqs = s.reqs :=
    by unfold State.addFlow; split <;> rfl
@[simp] theorem State.addFlow_xfers (s : State) (o : QOwner) (u : DramUnit) (w : Bool) (first n : Nat) (bib port : Option Nat) : (s.addFlow o u w first n bib port).xfers = s.xfers :=
    by unfold State.addFlow; split <;> rfl
@[simp] theorem State.addFlow_bibs (s : State) (o : QOwner) (u : DramUnit) (w : Bool) (first n : Nat) (bib port : Option Nat) : (s.addFlow o u w first n bib port).bibs = s.bibs :=
    by unfold State.addFlow; split <;> rfl
@[simp] theorem State.addFlow_cores (s : State) (o : QOwner) (u : DramUnit) (w : Bool) (first n : Nat) (bib port : Option Nat) : (s.addFlow o u w first n bib port).cores = s.cores :=
    by unfold State.addFlow; split <;> rfl
@[simp] theorem State.addFlow_test (s : State) (o : QOwner) (u : DramUnit) (w : Bool) (first n : Nat) (bib port : Option Nat) : (s.addFlow o u w first n bib port).test = s.test :=
    by unfold State.addFlow; split <;> rfl

/-! ### trace -/

@[simp] theorem State.trace_pending (s : State) (n k : Nat) (sq : Bool) (v : Nat) : (s.trace n k sq v).pending = s.pending :=
    by unfold State.trace; split <;> rfl
@[simp] theorem State.trace_now (s : State) (n k : Nat) (sq : Bool) (v : Nat) : (s.trace n k sq v).now = s.now :=
    by unfold State.trace; split <;> rfl
@[simp] theorem State.trace_freeCtr (s : State) (n k : Nat) (sq : Bool) (v : Nat) : (s.trace n k sq v).freeCtr = s.freeCtr :=
    by unfold State.trace; split <;> rfl
@[simp] theorem State.trace_nextId (s : State) (n k : Nat) (sq : Bool) (v : Nat) : (s.trace n k sq v).nextId = s.nextId :=
    by unfold State.trace; split <;> rfl
@[simp] theorem State.trace_part (s : State) (n k : Nat) (sq : Bool) (v : Nat) : (s.trace n k sq v).part = s.part :=
    by unfold State.trace; split <;> rfl
@[simp] theorem State.trace_run (s : State) (n k : Nat) (sq : Bool) (v : Nat) : (s.trace n k sq v).run = s.run :=
    by unfold State.trace; split <;> rfl
@[simp] theorem State.trace_ev (s : State) (n k : Nat) (sq : Bool) (v : Nat) : (s.trace n k sq v).ev = s.ev :=
    by unfold State.trace; split <;> rfl
@[simp] theorem State.trace_dict (s : State) (n k : Nat) (sq : Bool) (v : Nat) : (s.trace n k sq v).dict = s.dict :=
    by unfold State.trace; split <;> rfl
@[simp] theorem State.trace_map (s : State) (n k : Nat) (sq : Bool) (v : Nat) : (s.trace n k sq v).map = s.map :=
    by unfold State.trace; split <;> rfl
@[simp] theorem State.trace_tier (s : State) (n k : Nat) (sq : Bool) (v : Nat) : (s.trace n k sq v).tier = s.tier :=
    by unfold State.trace; split <;> rfl
@[simp] theorem State.trace_relay (s : State) (n k : Nat) (sq : Bool) (v : Nat) : (s.trace n k sq v).relay = s.relay :=
    by unfold State.trace; split <;> rfl
@[simp] theorem State.trace_stride (s : State) (n k : Nat) (sq : Bool) (v : Nat) : (s.trace n k sq v).stride = s.stride :=
    by unfold State.trace; split <;> rfl
@[simp] theorem State.trace_ports (s : State) (n k : Nat) (sq : Bool) (v : Nat) : (s.trace n k sq v).ports = s.ports :=
    by unfold State.trace; split <;> rfl
@[simp] theorem State.trace_reqs (s : State) (n k : Nat) (sq : Bool) (v : Nat) : (s.trace n k sq v).reqs = s.reqs :=
    by unfold State.trace; split <;> rfl
@[simp] theorem State.trace_xfers (s : State) (n k : Nat) (sq : Bool) (v : Nat) : (s.trace n k sq v).xfers = s.xfers :=
    by unfold State.trace; split <;> rfl
@[simp] theorem State.trace_bibs (s : State) (n k : Nat) (sq : Bool) (v : Nat) : (s.trace n k sq v).bibs = s.bibs :=
    by unfold State.trace; split <;> rfl
@[simp] theorem State.trace_cores (s : State) (n k : Nat) (sq : Bool) (v : Nat) : (s.trace n k sq v).cores = s.cores :=
    by unfold State.trace; split <;> rfl
@[simp] theorem State.trace_test (s : State) (n k : Nat) (sq : Bool) (v : Nat) : (s.trace n k sq v).test = s.test :=
    by unfold State.trace; split <;> rfl

/-! ### What each update writes -/

@[simp] theorem tick_now (s : State) : (tick s).now = s.now + 1 := rfl
@[simp] theorem State.drawn_freeCtr (s : State) : s.drawn.freeCtr = s.freeCtr + 1 := rfl
@[simp] theorem State.newId_nextId (s : State) : s.newId.nextId = s.nextId + 1 := rfl
@[simp] theorem State.emit_out (s : State) (o : Output) : (s.emit o).out = s.out ++ [o] := rfl
@[simp] theorem State.modPort_ports (s : State) (p : Nat) (f : Port → Port) : (s.modPort p f).ports = updAt s.ports p f := rfl
@[simp] theorem State.modBib_bibs (s : State) (b : Nat) (f : Bib → Bib) : (s.modBib b f).bibs = updAt s.bibs b f := rfl
@[simp] theorem State.modReq_reqs (s : State) (id : Nat) (f : Req → Req) :
    (s.modReq id f).reqs = updFirst (fun r => r.id == id) f s.reqs := rfl
@[simp] theorem State.dropReq_reqs (s : State) (id : Nat) : (s.dropReq id).reqs = s.reqs.filter fun r => r.id != id := rfl
@[simp] theorem State.addReq_reqs (s : State) (f : Nat → Req) : (s.addReq f).reqs = s.reqs ++ [f s.nextId] := rfl
@[simp] theorem State.setPage_pages (s : State) (lpn : Nat) (e : Page) :
    (s.setPage lpn e).map.pages = mput s.map.pages Page.zero lpn e := rfl
@[simp] theorem State.setNum_nums (s : State) (i j v : Nat) :
    (s.setNum i j v).dict.nums = mput s.dict.nums (dfltOf (okey i j)) (okey i j) v := rfl

@[simp] theorem State.dropFlows_flows (s : State) (id : Nat) :
    (s.dropFlows id).tier.flows = s.tier.flows.filter fun x => !x.owner.isWork id := rfl
@[simp] theorem State.unready_jobs (s : State) (p : Nat) (l : LinkId) (a n : Nat) :
    (s.unready p l a n).stride.jobs.map (·.id) = s.stride.jobs.map (·.id) := by
  unfold State.unready
  rw [List.map_map]
  exact List.map_congr_left fun j _ => by dsimp only [Function.comp]; split <;> rfl

/-- Granules that start to wait stand behind those that wait already, as one flow of the next id; nothing else of the tiers changes. -/
theorem State.addFlow_tier (s : State) (o : QOwner) (u : DramUnit) (w : Bool) (first n : Nat) (bib port : Option Nat) (h : 0 < n) :
    (s.addFlow o u w first n bib port).tier =
      { s.tier with flows := s.tier.flows ++ [⟨s.nextId, o, u, w, first, n, bib, port, false⟩] } := by
  unfold State.addFlow
  rw [if_neg (Nat.ne_of_gt h)]

/-- A number object reads as it was set. -/
theorem State.num_setNum (s : State) (h : Form s) (i j v : Nat) : (s.setNum i j v).num i j = v :=
  mget_mput_rises _ _ _ _ h.table.nums

/-- Another object keeps its value. -/
theorem State.num_setNum_other (s : State) (i j v a b : Nat) (h : okey a b ≠ okey i j) : (s.setNum i j v).num a b = s.num a b :=
  by
  unfold State.num State.setNum
  exact mget_mput_any _ _ _ _ _ _ h

/-- A page reads as it was set, another as before. -/
theorem State.page_setPage (s : State) (h : Form s) (n : Nat) (e : Page) : (s.setPage n e).page n = e :=
  mget_mput_same _ _ _ _ h.pages

theorem State.page_setPage_other (s : State) (n m : Nat) (e : Page) (h : m ≠ n) : (s.setPage n e).page m = s.page m :=
  mget_mput_other _ _ _ _ _ h

/-- A port that exists reads as changed, another as before. -/
theorem State.port_modPort (s : State) (p : Nat) (f : Port → Port) (h : p < s.ports.length) :
    (s.modPort p f).port p = f (s.port p) := nth_updAt_same _ _ _ _ h

theorem State.port_modPort_other (s : State) (p q : Nat) (f : Port → Port) (h : q ≠ p) : (s.modPort p f).port q = s.port q :=
  nth_updAt_other _ _ _ _ _ h

end Sys2Proof.Machine
end

