-- ==== Sys2Proof/Laws/Access.lean ====
section
/-! SUPPORT. What an accepted write of an object through an open session does (R196, R197, R215): the value takes effect, the answer
without an error leaves, and what follows the reply is done. -/

set_option Elab.async false

namespace Sys2Proof.Machine

/-- The write of an object passes every check of R196 on a session. -/
structure Passes (s : State) (index sub : Nat) (v : List Byte) (o : Obj) : Prop where
  gate : s.gate 2 index sub = 0
  absent : s.absent index sub = false
  known : indexKnown index = true
  found : findObj index sub = some o
  acc : o.acc = .rw ∨ o.acc = .wo ∨ (o.acc = .rwp ∧ s.rwpOpen = true)
  grp : o.grp = false
  whole : v.length ≤ 1024
  length : lengthBad o v = false
  range : s.rangeBad o index sub v = false
  training : s.trainingAbort o index = 0
  own : s.ownAbort index sub v = 0
  image : isImage index sub = false
  room : s.fieldQueueFull = false

theorem writeAnswer_passes {s : State} {id index sub : Nat} {v : List Byte} {o : Obj} (h : Passes s index sub v o) :
    s.writeAnswer (.session id) o index sub o.ty true v = ⟨0, o.ty, 0, [], false, some v, s.applyWrite o index sub v⟩ := by
  have h1 : ¬ (o.acc = .const ∨ o.acc = .ro) := by rcases h.acc with h | h | ⟨h, _⟩ <;> simp [h]
  have h2 : ¬ (o.acc = .wonce ∧ s.onceSet index sub = true) := by rcases h.acc with h | h | ⟨h, _⟩ <;> simp [h]
  have h3 : ¬ (s.authAbort (.session id) o index ≠ 0) := fun hn => hn rfl
  have h4 : ¬ (o.ty ≠ o.ty ∨ lengthBad o v = true ∨ (true = true ∧ 1024 < v.length)) := by
    have := h.whole
    rw [h.length]; simp; omega
  have h5 : ¬ (o.grp = true) := by rw [h.grp]; simp
  have h6 : ¬ (s.rangeBad o index sub v = true) := by rw [h.range]; simp
  have h7 : ¬ (o.acc = .rwp ∧ (!s.rwpOpen) = true) := by rcases h.acc with h | h | ⟨h, h'⟩ <;> simp [*]
  have h8 : ¬ (s.trainingAbort o index ≠ 0) := fun hn => hn h.training
  have h9 : ¬ (s.ownAbort index sub v ≠ 0) := fun hn => hn h.own
  have h10 : ¬ (o.acc = .wonce ∨ isImage index sub = true) := by
    rw [h.image]; rcases h.acc with h | h | ⟨h, _⟩ <;> simp [h]
  unfold State.writeAnswer
  rw [if_neg h1, if_neg h2, if_neg h3, if_neg h4, if_neg h5, if_neg h6, if_neg h7, if_neg h8]
  exact (if_neg h9).trans (if_neg h10)

theorem access_passes {s : State} {id index sub : Nat} {v : List Byte} {o : Obj} (h : Passes s index sub v o) (n : Nat) :
    s.access (.session id) ⟨2, index, sub, o.ty, 0, true, v, n⟩ = ⟨0, o.ty, 0, [], false, some v, s.applyWrite o index sub v⟩ := by
  have h1 : ¬ (s.gate 2 index sub ≠ 0) := fun hn => hn h.gate
  have h2 : ¬ (s.absent index sub = true ∨ (!indexKnown index) = true) := by rw [h.absent, h.known]; simp
  unfold State.access
  refine (if_neg h1).trans ((if_neg h2).trans ?_)
  show (match findObj index sub with
    | none => _
    | some o => _) = _
  rw [h.found]
  exact writeAnswer_passes h

/-- A write that passes is answered without an error. -/
theorem writeVia_passes {s : State} {id index sub : Nat} {v : List Byte} {o : Obj} (hd : s.doorOpen (.session id) = true)
    (h : Passes s index sub v o) :
    s.writeVia (.session id) index sub v =
      (((s.applyWrite o index sub v).emit (.answer (.session id) 0 o.ty [])).afterReply index sub v).onward := by
  unfold State.writeVia
  have hr : s.queueFull (.session id) = false := h.room
  rw [if_pos hd]
  have ht : typeCode index sub = o.ty := by unfold typeCode; rw [h.found]; rfl
  have hv : (if v.length ≤ 1024 then 2 else 4) = 2 := if_pos h.whole
  dsimp only
  rw [hr, if_neg (by simp), ht, hv, show s.viaDoor (.session id) = s from rfl]
  unfold State.serve
  dsimp only
  rw [access_passes h]
  rfl

end Sys2Proof.Machine
end

