-- ==== Sys2Proof/Laws/CoreForm.lean ====
section
/-! SUPPORT. Every operation of a coach core keeps the form of its data. -/

set_option Elab.async false

namespace Sys2Proof.Machine

theorem coreReset_form : CoreForm coreReset := ⟨rfl, rfl, rfl, rfl, rfl, by decide⟩

/-- A window of 16 registers is replaced by 16 registers. -/
theorem Core.setWindow_form {c : Core} (h : CoreForm c) (w : Nat) (hw : w ≤ 11) (vs : List Word) : CoreForm (c.setWindow w vs) := by
  refine ⟨h.sram, h.scratch, h.policySram, h.globals, ?_, h.top⟩
  have := h.windows
  simp [Core.setWindow]
  omega

theorem Core.cwp_le {c : Core} (h : CoreForm c) : c.cwp ≤ 11 := by
  have := h.top
  unfold Core.cwp
  split <;> omega

theorem Core.setG_form {c : Core} (h : CoreForm c) (i : Nat) (v : Word) : CoreForm (c.setG i v) :=
  ⟨h.sram, h.scratch, h.policySram, by simpa [Core.setG] using h.globals, h.windows, h.top⟩

theorem Core.setReg_form {c : Core} (h : CoreForm c) (r : Nat) (v : Word) : CoreForm (c.setReg r v) := by
  unfold Core.setReg
  split
  · exact ⟨h.sram, h.scratch, h.policySram, by simpa using h.globals, h.windows, h.top⟩
  · exact ⟨h.sram, h.scratch, h.policySram, h.globals, by simpa using h.windows, h.top⟩

theorem Core.halt_form {c : Core} (h : CoreForm c) : CoreForm c.halt :=
  ⟨h.sram, h.scratch, h.policySram, h.globals, h.windows, h.top⟩

theorem Core.doubleFault_form {c : Core} (h : CoreForm c) : CoreForm c.doubleFault :=
  ⟨h.sram, h.scratch, h.policySram, h.globals, h.windows, h.top⟩

theorem Core.takeWindow_form {c : Core} (h : CoreForm c) (regs : List Word) : CoreForm (c.takeWindow regs) := by
  have g := Core.setWindow_form h ((c.top + 1) % 11) (by omega) regs
  exact ⟨g.sram, g.scratch, g.policySram, g.globals, g.windows, by show (c.top + 1) % 11 ≤ 10; omega⟩

theorem Core.overflow_form {c : Core} (h : CoreForm c) (pc : Word) (disp : Option Nat) : CoreForm (c.overflow pc disp) :=
  Core.setWindow_form (c := { c with
    tpc := pc, tstat := c.cstat, wait := .none, ecause := _, irq := _, cstat := _, pc := _ })
    ⟨h.sram, h.scratch, h.policySram, h.globals, h.windows, h.top⟩ 11 (by omega) _

theorem Core.enter_form {c : Core} (h : CoreForm c) (cause number : Nat) (epc : Word) : CoreForm (c.enter cause number epc) := by
  have g := Core.setG_form (Core.takeWindow_form h (List.replicate 16 0)) 3 ((if !c.sup then c.ksp else nth c.g 0 3) - 144)
  exact ⟨g.sram, g.scratch, g.policySram, g.globals, g.windows, g.top⟩

theorem Core.entry_form {c : Core} (h : CoreForm c) (ovf : Bool) (cause number : Nat) (epc : Word) :
    CoreForm (c.entry ovf cause number epc) := by
  unfold Core.entry
  split
  · split
    · exact Core.overflow_form h _ _
    · exact ⟨h.sram, h.scratch, h.policySram, h.globals, h.windows, h.top⟩
  · exact Core.enter_form h _ _ _

theorem Core.trapAt_form {c : Core} (h : CoreForm c) (ovf : Bool) (cause : Nat) : CoreForm (c.trapAt ovf cause) := by
  unfold Core.trapAt
  split
  · exact Core.doubleFault_form h
  · exact Core.entry_form h _ _ _ _

theorem Core.advance_form {c : Core} (h : CoreForm c) : CoreForm c.advance :=
  ⟨h.sram, h.scratch, h.policySram, h.globals, h.windows, h.top⟩

theorem Core.doCall_form {c : Core} (h : CoreForm c) (off : BitVec 26) : CoreForm (c.doCall off) := by
  have g := Core.takeWindow_form h (List.replicate 15 0 ++ [c.pc + 4])
  exact ⟨g.sram, g.scratch, g.policySram, g.globals, g.windows, g.top⟩

theorem Core.callw_form {c : Core} (h : CoreForm c) (ovf : Bool) (off : BitVec 26) : CoreForm (c.callw ovf off) := by
  unfold Core.callw
  split
  · exact Core.doubleFault_form h
  · split
    · split
      · exact Core.overflow_form h _ _
      · exact ⟨h.sram, h.scratch, h.policySram, h.globals, h.windows, h.top⟩
    · exact Core.doCall_form h off

theorem Core.hookCall_form {c : Core} (h : CoreForm c) (entry : Nat) (args : List Nat) : CoreForm (c.hookCall entry args) := by
  have key : ∀ (l : List (Nat × Nat)) (d : Core), CoreForm d →
      CoreForm (l.foldl (fun c a => c.setG (4 + a.2) (BitVec.ofNat 32 a.1)) d) := by
    intro l
    induction l with
    | nil => exact fun d hd => hd
    | cons a l ih => exact fun d hd => ih _ (Core.setG_form hd _ _)
  have g := key args.zipIdx _ (Core.setG_form (Core.takeWindow_form h (List.replicate 15 0 ++ [c.pc])) 3 0x00480000)
  exact ⟨g.sram, g.scratch, g.policySram, g.globals, g.windows, g.top⟩

theorem Core.hookEnter_form {c : Core} (h : CoreForm c) (ovf : Bool) (entry : Nat) (args : List Nat) :
    CoreForm (c.hookEnter ovf entry args) := by
  unfold Core.hookEnter
  split
  · split
    · exact Core.overflow_form h _ _
    · exact ⟨h.sram, h.scratch, h.policySram, h.globals, h.windows, h.top⟩
  · exact Core.hookCall_form h _ _

theorem Core.releaseTop_form {c : Core} (h : CoreForm c) : CoreForm c.releaseTop := by
  unfold Core.releaseTop
  have hm : (c.top + 10) % 11 ≤ 10 := by omega
  split
  · exact h
  · dsimp only
    split <;> exact ⟨h.sram, h.scratch, h.policySram, h.globals, h.windows, hm⟩

theorem Core.retw_form {c : Core} (h : CoreForm c) (ovf : Bool) : CoreForm (c.retw ovf) := by
  unfold Core.retw
  split
  · exact Core.trapAt_form h _ _
  · have g := Core.releaseTop_form h
    exact ⟨g.sram, g.scratch, g.policySram, g.globals, g.windows, g.top⟩

theorem Core.trap_form {c : Core} (h : CoreForm c) (ovf : Bool) (number : Nat) : CoreForm (c.trap ovf number) := by
  unfold Core.trap
  split
  · exact Core.doubleFault_form h
  · exact Core.entry_form h _ _ _ _

theorem Core.spillStart_form {c : Core} (h : CoreForm c) (ovf : Bool) : CoreForm (c.spillStart ovf) := by
  unfold Core.spillStart
  split
  · exact ⟨h.sram, h.scratch, h.policySram, h.globals, h.windows, h.top⟩
  · exact h

theorem Core.spillDone_form {c : Core} (h : CoreForm c) : CoreForm c.spillDone := by
  unfold Core.spillDone
  split
  · exact h
  · split
    · exact ⟨h.sram, h.scratch, h.policySram, h.globals, h.windows, h.top⟩
    · have g : CoreForm { c with
          spilled := c.window ((c.top + 12 - c.resident) % 11) :: c.spilled, resident := c.resident - 1, spilling := false } :=
        ⟨h.sram, h.scratch, h.policySram, h.globals, h.windows, h.top⟩
      dsimp only
      split
      · exact Core.doCall_form g _
      · exact Core.enter_form g _ _ _
      · exact Core.hookCall_form g _ _
      · exact g

theorem Core.fillDone_form {c : Core} (h : CoreForm c) (unc : Bool) : CoreForm (c.fillDone unc) := by
  unfold Core.fillDone
  split
  · split
    · exact Core.doubleFault_form h
    · rename_i w _ _ _ _
      have g := Core.setWindow_form h c.top (Nat.le_trans h.top (by omega)) w
      exact ⟨g.sram, g.scratch, g.policySram, g.globals, g.windows, g.top⟩
  · exact h

/-- Another memory in place of data SRAM. -/
theorem core_sram {c : Core} (h : CoreForm c) (m : Memory) (hm : m.wf = true) (x : Word) :
    CoreForm { c with sram := m, ctxhead := x } :=
  ⟨hm, h.scratch, h.policySram, h.globals, h.windows, h.top⟩

theorem Core.savectx_form {c : Core} (h : CoreForm c) (n : Nat) (ovf : Bool) (mask : BitVec 4) :
    CoreForm (c.savectx n ovf mask) := by
  unfold Core.savectx
  dsimp only
  split
  · exact Core.trapAt_form h _ _
  split
  · exact Core.trapAt_form h _ _
  split
  · exact Core.trapAt_form h _ _
  split
  · exact Core.trapAt_form h _ _
  split
  · exact Core.trapAt_form h _ _
  exact Core.advance_form (core_sram h _ (Memory.writeN_wf _ _ _ h.sram) _)

theorem Core.restore_form {c : Core} (h : CoreForm c) (mask : BitVec 4) (ps : List Word) : CoreForm (c.restore mask ps) := by
  unfold Core.restore
  have g := Core.setWindow_form h c.cwp (Core.cwp_le h)
    ((if mask.getLsbD 0 then ps.take 8 else (c.window c.cwp).take 8)
      ++ (if mask.getLsbD 1 then (ps.drop (if mask.getLsbD 0 then 8 else 0)).take 8 else (c.window c.cwp).drop 8))
  dsimp only
  generalize c.setWindow c.cwp _ = d at g ⊢
  split <;> split <;> exact ⟨g.sram, g.scratch, g.policySram, g.globals, g.windows, g.top⟩

theorem Core.loadctx_form {c : Core} (h : CoreForm c) (n : Nat) (ovf : Bool) (mask : BitVec 4) :
    CoreForm (c.loadctx n ovf mask) := by
  unfold Core.loadctx
  dsimp only
  repeat' split
  all_goals first
    | exact Core.trapAt_form h _ _
    | (have g := Core.restore_form h mask ((c.frameAt (frameSize mask)).drop 4)
       exact ⟨g.sram, g.scratch, g.policySram, g.globals, g.windows, g.top⟩)

theorem Core.dropctx_form {c : Core} (h : CoreForm c) (n : Nat) (ovf : Bool) : CoreForm (c.dropctx n ovf) := by
  unfold Core.dropctx
  repeat' split
  all_goals first
    | exact Core.trapAt_form h _ _
    | exact ⟨h.sram, h.scratch, h.policySram, h.globals, h.windows, h.top⟩

theorem Core.reti_form {c : Core} (h : CoreForm c) (n : Nat) (ovf : Bool) : CoreForm (c.reti n ovf) := by
  unfold Core.reti
  split
  · exact Core.trapAt_form h _ _
  · split
    · exact ⟨h.sram, h.scratch, h.policySram, h.globals, h.windows, h.top⟩
    · have g1 : CoreForm (if c.saved ∧ inSram n c.tallyFrame.toNat 132 then
          { c with tally := c.sram.readN c.tallyFrame.toNat 132 } else c) := by
        split
        · exact ⟨h.sram, h.scratch, h.policySram, h.globals, h.windows, h.top⟩
        · exact h
      have g2 := Core.setG_form g1 3 (nth c.g 0 3 + 144)
      dsimp only
      split
      · have g := Core.releaseTop_form g2
        exact ⟨g.sram, g.scratch, g.policySram, g.globals, g.windows, g.top⟩
      · have g := Core.releaseTop_form (Core.setG_form g2 3 c.usp)
        exact ⟨g.sram, g.scratch, g.policySram, g.globals, g.windows, g.top⟩

theorem Core.cutw_form {c : Core} (h : CoreForm c) (ovf : Bool) (r : Nat) : CoreForm (c.cutw ovf r) := by
  unfold Core.cutw
  dsimp only
  have hm : ∀ k, (c.top + 11 * k - k) % 11 ≤ 10 := by omega
  repeat' split
  all_goals first
    | exact Core.trapAt_form h _ _
    | exact ⟨h.sram, h.scratch, h.policySram, h.globals, h.windows, hm _⟩

theorem Core.haltOp_form {c : Core} (h : CoreForm c) (ovf : Bool) : CoreForm (c.haltOp ovf) := by
  unfold Core.haltOp
  split
  · exact Core.trapAt_form h _ _
  · exact Core.halt_form h

theorem Core.lazySave_form {c t : Core} (h : CoreForm c) (n : Nat) (e : c.lazySave n = some t) : CoreForm t := by
  unfold Core.lazySave at e
  split at e
  · split at e
    · cases e
      exact ⟨Memory.writeN_wf _ _ _ h.sram, h.scratch, h.policySram, h.globals, h.windows, h.top⟩
    · cases e
  · cases e
    exact h

theorem Core.tallyOp_form {c : Core} (h : CoreForm c) (n : Nat) (ovf : Bool) (after : List Byte) :
    CoreForm (c.tallyOp n ovf after) := by
  unfold Core.tallyOp
  split
  · exact Core.doubleFault_form h
  · split
    · exact Core.trapAt_form h _ _
    · rename_i c1 e
      have g := Core.lazySave_form h n e
      exact ⟨g.sram, g.scratch, g.policySram, g.globals, g.windows, g.top⟩

theorem Core.setCsr_form {c : Core} (h : CoreForm c) (k : Nat) (v : Word) : CoreForm (c.setCsr k v) := by
  unfold Core.setCsr
  split <;> (try split) <;> exact ⟨h.sram, h.scratch, h.policySram, h.globals, h.windows, h.top⟩

theorem Core.csrOp_form {c : Core} (h : CoreForm c) (ovf : Bool) (k : Nat) (write : Bool) (r : Nat) :
    CoreForm (c.csrOp ovf k write r) := by
  unfold Core.csrOp
  repeat' split
  all_goals first
    | exact Core.trapAt_form h _ _
    | exact Core.advance_form (Core.setCsr_form h _ _)
    | exact Core.advance_form (Core.setReg_form h _ _)

theorem Core.loadStore_form {c : Core} (h : CoreForm c) (n codeEnd : Nat) (ovf : Bool) (fill : Word) (store : Bool)
    (addr width r : Nat) : CoreForm (c.loadStore n codeEnd ovf fill store addr width r) := by
  unfold Core.loadStore
  dsimp only
  repeat' split
  all_goals first
    | exact Core.trapAt_form h _ _
    | exact Core.advance_form (Core.setReg_form h _ _)
    | exact ⟨h.sram, Memory.writeN_wf _ _ _ h.scratch, h.policySram, h.globals, h.windows, h.top⟩
    | exact ⟨Memory.writeN_wf _ _ _ h.sram, h.scratch, h.policySram, h.globals, h.windows, h.top⟩
    | exact ⟨h.sram, h.scratch, Memory.writeN_wf _ _ _ h.policySram, h.globals, h.windows, h.top⟩
    | exact Core.advance_form h

theorem Core.interrupt_form {c : Core} (h : CoreForm c) (ovf : Bool) (line : Nat) : CoreForm (c.interrupt ovf line) := by
  unfold Core.interrupt
  split
  · split
    · exact Core.entry_form h _ _ _ _
    · exact Core.entry_form (c := { c with wait := .none })
        ⟨h.sram, h.scratch, h.policySram, h.globals, h.windows, h.top⟩ _ _ _ _
    · exact h
  · exact h

theorem Core.wrongPath_form {c : Core} (h : CoreForm c) (inRegion fills : Bool) : CoreForm (c.wrongPath inRegion fills) := by
  unfold Core.wrongPath
  split
  · exact ⟨h.sram, h.scratch, h.policySram, h.globals, h.windows, h.top⟩
  · exact h

theorem Core.restart_form {c : Core} (h : CoreForm c) (entry : Word) : CoreForm (c.restart entry) :=
  ⟨h.sram, rfl, h.policySram, h.globals, rfl, Nat.zero_le _⟩

theorem Core.startAt_form {c : Core} (h : CoreForm c) (n : Nat) : CoreForm (c.startAt n) :=
  ⟨h.sram, h.scratch, h.policySram, h.globals, h.windows, h.top⟩

theorem policyMemory_wf (image : List Byte) : (policyMemory image).wf = true :=
  Memory.writeN_wf _ _ _ (Memory.writeN_wf _ _ _ rfl)

theorem Core.hookEnd_form {c : Core} (h : CoreForm c) (k : HookCall) : CoreForm (c.hookEnd k) := by
  have hm : (c.top + 11 * (c.wdepth - k.depth) - (c.wdepth - k.depth)) % 11 ≤ 10 := by omega
  unfold Core.hookEnd
  dsimp only
  split <;> exact ⟨h.sram, h.scratch, h.policySram, h.globals, h.windows, hm⟩

theorem Core.putModule_form {c : Core} (h : CoreForm c) (addr : Nat) (bs : List Byte) : CoreForm (c.putModule addr bs) := by
  unfold Core.putModule
  split
  · exact ⟨h.sram, h.scratch, Memory.writeN_wf _ _ _ h.policySram, h.globals, h.windows, h.top⟩
  · exact h

end Sys2Proof.Machine
end

