-- ==== Sys2Proof/Laws/Keeps.lean ====
section
/-! SUPPORT. What every operation of the model leaves alone: the queue of commands, the clock, the identity of the part, what has
left the pins already, the write-once values, and the form of the data. -/

set_option Elab.async false

namespace Sys2Proof.Machine

/-- t comes of s by operations of the model. -/
structure Keeps (s t : State) : Prop where
  pending : t.pending = s.pending
  now : t.now = s.now
  out : s.out <+: t.out
  wonce : s.dict.wonce <+: t.dict.wonce
  variant : t.part.variant = s.part.variant
  stepping : t.part.stepping = s.part.stepping
  serial : t.part.serial = s.part.serial
  mac : t.part.mac = s.part.mac
  mfgDate : t.part.mfgDate = s.part.mfgDate
  signer : t.part.azmorSigner = s.part.azmorSigner
  form : Form s → Form t

theorem Keeps.refl (s : State) : Keeps s s :=
  ⟨rfl, rfl, List.prefix_refl _, List.prefix_refl _, rfl, rfl, rfl, rfl, rfl, rfl, id⟩

theorem Keeps.trans {z s t : State} (h : Keeps z s) (g : Keeps s t) : Keeps z t :=
  ⟨g.pending.trans h.pending, g.now.trans h.now, h.out.trans g.out, h.wonce.trans g.wonce, g.variant.trans h.variant,
   g.stepping.trans h.stepping, g.serial.trans h.serial, g.mac.trans h.mac, g.mfgDate.trans h.mfgDate,
   g.signer.trans h.signer, fun f => g.form (h.form f)⟩

/-- An update of fields that Keeps does not speak of but through Form. -/
theorem Keeps.upd {z s : State} {fc ni run ev dict map tier relay stride ports reqs xfers bibs cores test}
    (d : dict.wonce = s.dict.wonce)
    (f : Form s → Form ⟨s.pending, s.out, s.now, fc, ni, s.part, run, ev, dict, map, tier, relay, stride, ports, reqs, xfers, bibs,
      cores, test⟩) (h : Keeps z s) :
    Keeps z ⟨s.pending, s.out, s.now, fc, ni, s.part, run, ev, dict, map, tier, relay, stride, ports, reqs, xfers, bibs, cores,
      test⟩ :=
  h.trans ⟨rfl, rfl, List.prefix_refl _, d ▸ List.prefix_refl _, rfl, rfl, rfl, rfl, rfl, rfl, f⟩

/-- An update of fields that Form does not speak of. -/
theorem form_same {s t : State} (h : Form s) (a : t.tier.sprint = s.tier.sprint) (b : t.tier.dist = s.tier.dist)
    (c : t.map.pages = s.map.pages) (d : t.map.windows = s.map.windows) (e : t.map.uses = s.map.uses)
    (f : t.tier.chans.length = s.tier.chans.length) (g : t.ports.length = s.ports.length) (i : t.bibs.length = s.bibs.length)
    (j : t.relay.engines.length = s.relay.engines.length) (k : t.stride.engines.length = s.stride.engines.length)
    (l : (s.cores.length = 4 ∧ ∀ c ∈ s.cores, CoreForm c) → t.cores.length = 4 ∧ ∀ c ∈ t.cores, CoreForm c)
    (m : t.ev.ring = s.ev.ring) (n : t.ev.next = s.ev.next) (o : t.ev.oldest = s.ev.oldest)
    (p : t.run.state = s.run.state ∨ t.run.state ≤ 5) (q : t.run.throttle = s.run.throttle ∨ t.run.throttle ≤ 6)
    (r : TableForm s.dict → TableForm t.dict := by exact fun w => ⟨w.1, w.2, w.3, w.4, w.5, w.6⟩) : Form t := by
  refine ⟨?_, ?_, ?_, ?_, ?_, ?_, ?_, ?_, ?_, ?_, ?_, ⟨?_, ?_, ?_, ?_, ?_⟩, r h.table, ?_, ?_⟩
  · rw [a]; exact h.sprint
  · rw [b]; exact h.dist
  · rw [c]; exact h.pages
  · rw [d]; exact h.windows
  · rw [e]; exact h.uses
  · rw [f]; exact h.chans
  · rw [g]; exact h.ports
  · rw [i]; exact h.bibs
  · rw [j]; exact h.relays
  · rw [k]; exact h.strides
  · exact l h.cores
  · rw [n]; exact h.ring.next
  · rw [o]; exact h.ring.oldest
  · rw [m]; exact h.ring.depth
  · rw [m, n, o]; exact h.ring.count
  · rw [m, o]; exact h.ring.seqs
  · rcases p with p | p
    · rw [p]; exact h.runState
    · exact p
  · rcases q with q | q
    · rw [q]; exact h.throttle
    · exact q

/-- An update of fields that neither Keeps nor Form speaks of. -/
theorem Keeps.plain {z s : State} {fc ni run ev dict map tier relay stride ports reqs xfers bibs test} (h : Keeps z s)
    (d : dict.wonce = s.dict.wonce := by with_reducible rfl) (a : tier.sprint = s.tier.sprint := by with_reducible rfl)
    (b : tier.dist = s.tier.dist := by with_reducible rfl)
    (c : map.pages = s.map.pages := by with_reducible rfl) (e : map.windows = s.map.windows := by with_reducible rfl)
    (u : map.uses = s.map.uses := by with_reducible rfl)
    (f : tier.chans = s.tier.chans := by with_reducible rfl) (g : ports = s.ports := by with_reducible rfl)
    (i : bibs = s.bibs := by with_reducible rfl)
    (j : relay.engines = s.relay.engines := by with_reducible rfl) (k : stride.engines = s.stride.engines := by with_reducible rfl)
    (m : ev.ring = s.ev.ring := by with_reducible rfl) (n : ev.next = s.ev.next := by with_reducible rfl)
    (o : ev.oldest = s.ev.oldest := by with_reducible rfl)
    (p : run.state = s.run.state := by with_reducible rfl) (q : run.throttle = s.run.throttle := by with_reducible rfl)
    (r : TableForm s.dict → TableForm dict := by exact fun w => ⟨w.1, w.2, w.3, w.4, w.5, w.6⟩) :
    Keeps z ⟨s.pending, s.out, s.now, fc, ni, s.part, run, ev, dict, map, tier, relay, stride, ports, reqs, xfers, bibs, s.cores,
      test⟩ :=
  h.upd d fun w => form_same w a b c e u (by rw [f]) (by rw [g]) (by rw [i]) (by rw [j]) (by rw [k]) (fun w => w) m n o (.inl p)
    (.inl q) r

/-- The same where the fields are equal only once an operation's definition is seen. -/
theorem Keeps.same {z s : State} {fc ni run ev dict map tier relay stride ports reqs xfers bibs test} (h : Keeps z s)
    (d : dict.wonce = s.dict.wonce := by rfl) (a : tier.sprint = s.tier.sprint := by rfl) (b : tier.dist = s.tier.dist := by rfl)
    (c : map.pages = s.map.pages := by rfl) (e : map.windows = s.map.windows := by rfl) (u : map.uses = s.map.uses := by rfl)
    (f : tier.chans = s.tier.chans := by rfl) (g : ports = s.ports := by rfl) (i : bibs = s.bibs := by rfl)
    (j : relay.engines = s.relay.engines := by rfl) (k : stride.engines = s.stride.engines := by rfl)
    (m : ev.ring = s.ev.ring := by rfl) (n : ev.next = s.ev.next := by rfl) (o : ev.oldest = s.ev.oldest := by rfl)
    (p : run.state = s.run.state := by rfl) (q : run.throttle = s.run.throttle := by rfl)
    (r : TableForm s.dict → TableForm dict := by exact fun w => ⟨w.1, w.2, w.3, w.4, w.5, w.6⟩) :
    Keeps z ⟨s.pending, s.out, s.now, fc, ni, s.part, run, ev, dict, map, tier, relay, stride, ports, reqs, xfers, bibs, s.cores,
      test⟩ :=
  h.plain d a b c e u f g i j k m n o p q r

/-- An update that changes units of a list, or the run state, within Form. -/
theorem Keeps.sized {z s : State} {fc ni run ev dict map tier relay stride ports reqs xfers bibs test} (h : Keeps z s)
    (d : dict.wonce = s.dict.wonce := by with_reducible rfl) (a : tier.sprint = s.tier.sprint := by with_reducible rfl)
    (b : tier.dist = s.tier.dist := by with_reducible rfl)
    (c : map.pages = s.map.pages := by with_reducible rfl) (e : map.windows = s.map.windows := by with_reducible rfl)
    (u : map.uses = s.map.uses := by with_reducible rfl)
    (f : tier.chans.length = s.tier.chans.length := by first | with_reducible rfl | simp)
    (g : ports.length = s.ports.length := by first | with_reducible rfl | simp)
    (i : bibs.length = s.bibs.length := by first | with_reducible rfl | simp)
    (j : relay.engines.length = s.relay.engines.length := by first | with_reducible rfl | simp)
    (k : stride.engines.length = s.stride.engines.length := by first | with_reducible rfl | simp)
    (m : ev.ring = s.ev.ring := by with_reducible rfl) (n : ev.next = s.ev.next := by with_reducible rfl)
    (o : ev.oldest = s.ev.oldest := by with_reducible rfl)
    (p : run.state = s.run.state ∨ run.state ≤ 5 := by first | with_reducible exact .inl rfl | simp)
    (q : run.throttle = s.run.throttle ∨ run.throttle ≤ 6 := by first | with_reducible exact .inl rfl | simp)
    (r : TableForm s.dict → TableForm dict := by exact fun w => ⟨w.1, w.2, w.3, w.4, w.5, w.6⟩) :
    Keeps z ⟨s.pending, s.out, s.now, fc, ni, s.part, run, ev, dict, map, tier, relay, stride, ports, reqs, xfers, bibs, s.cores,
      test⟩ :=
  h.upd d fun w => form_same w a b c e u f g i j k (fun w => w) m n o p q r

/-- Keeps of an if. -/
theorem Keeps.ite {z a b : State} {c : Prop} [Decidable c] (h : Keeps z a) (g : Keeps z b) : Keeps z (if c then a else b) := by
  split
  · exact h
  · exact g

theorem Keeps.ite_snd {α : Type} {z : State} {a b : α × State} {c : Prop} [Decidable c] (h : Keeps z a.2) (g : Keeps z b.2) :
    Keeps z (if c then a else b).2 := by
  split
  · exact h
  · exact g

/-- Keeps of a fold. -/
theorem Keeps.foldl {α : Type} {z : State} {f : State → α → State} (l : List α) {s : State} (h : Keeps z s)
    (g : ∀ t x, Keeps z t → Keeps z (f t x)) : Keeps z (l.foldl f s) := by
  induction l generalizing s with
  | nil => exact h
  | cons x r ih => exact ih (g s x h)

theorem Keeps.foldl_fst {α β : Type} {z : State} {f : State × β → α → State × β} (l : List α) {s : State × β} (h : Keeps z s.1)
    (g : ∀ t x, Keeps z t.1 → Keeps z (f t x).1) : Keeps z (l.foldl f s).1 := by
  induction l generalizing s with
  | nil => exact h
  | cons x r ih => exact ih (g s x h)

theorem Keeps.foldl_snd {α β : Type} {z : State} {f : β × State → α → β × State} (l : List α) {s : β × State} (h : Keeps z s.2)
    (g : ∀ t x, Keeps z t.2 → Keeps z (f t x).2) : Keeps z (l.foldl f s).2 := by
  induction l generalizing s with
  | nil => exact h
  | cons x r ih => exact ih (g s x h)

theorem Keeps.foldl_third {α β γ : Type} {z : State} {f : β × γ × State → α → β × γ × State} (l : List α) {s : β × γ × State}
    (h : Keeps z s.2.2) (g : ∀ t x, Keeps z t.2.2 → Keeps z (f t x).2.2) : Keeps z (l.foldl f s).2.2 := by
  induction l generalizing s with
  | nil => exact h
  | cons x r ih => exact ih (g s x h)

/-- The state of a pair that is known to be an operation's answer. -/
theorem Keeps.of_snd {α : Type} {z t : State} {a : α} {p : α × State} (h : p = (a, t)) (g : Keeps z p.2) : Keeps z t := by
  rw [h] at g
  exact g

theorem Keeps.of_third {α β : Type} {z t : State} {a : α} {b : β} {p : α × β × State} (h : p = (a, b, t)) (g : Keeps z p.2.2) :
    Keeps z t := by
  rw [h] at g
  exact g

/-- One core replaced. -/
theorem cores_upd {cs : List Core} (n : Nat) {f : Core → Core} (hf : ∀ c, CoreForm c → CoreForm (f c))
    (h : cs.length = 4 ∧ ∀ c ∈ cs, CoreForm c) : (updAt cs n f).length = 4 ∧ ∀ c ∈ updAt cs n f, CoreForm c :=
  ⟨by simpa using h.1, updAt_all _ _ _ _ h.2 hf⟩

/-- The cores made anew. -/
theorem cores_start (f : Nat → Core) (h : ∀ n, CoreForm (f n)) : ((upto 4).map f).length = 4 ∧ ∀ c ∈ (upto 4).map f, CoreForm c := by
  refine ⟨rfl, fun c hc => ?_⟩
  obtain ⟨n, -, rfl⟩ := List.mem_map.1 hc
  exact h n

theorem ring_reset : RingForm EvSt.reset :=
  ⟨by decide, by decide, by decide, by decide, fun i r e => by simp [EvSt.reset] at e⟩

/-- A core of a state of good form. -/
theorem core_form {s : State} (h : Form s) (n : Nat) : CoreForm (s.core n) := by
  unfold State.core nth
  rw [List.getD_eq_getElem?_getD]
  cases e : s.cores[n]? with
  | none => exact coreReset_form
  | some c => exact h.cores.2 c (List.mem_of_getElem? e)

/-- Something leaves the pins. -/
theorem State.emit_keeps {z s : State} (h : Keeps z s) (o : Output) : Keeps z (s.emit o) :=
  h.trans ⟨rfl, rfl, List.prefix_append _ _, List.prefix_refl _, rfl, rfl, rfl, rfl, rfl, rfl,
    fun f => form_same f rfl rfl rfl rfl rfl rfl rfl rfl rfl rfl id rfl rfl rfl (.inl rfl) (.inl rfl)⟩

end Sys2Proof.Machine
end

