-- ==== Sys2Proof/Laws/KeepsBase.lean ====
section
/-! SUPPORT. Keeps for values, pages, space, DRAM queues, the pacer and work items: one lemma per operation. -/

set_option Elab.async false

namespace Sys2Proof.Machine

theorem State.setNum_keeps {z s : State} (h : Keeps z s) (index sub v : Nat) : Keeps z (s.setNum index sub v) := by
  unfold State.setNum
  try dsimp only
  refine Keeps.plain ?_ (r := fun w => ⟨mput_rises _ _ _ _ w.1, w.2, w.3, w.4, w.5, w.6⟩)
  assumption

theorem State.touchP_keeps {z s : State} (h : Keeps z s) : Keeps z s.touchP := by
  unfold State.touchP
  exact Keeps.plain h

theorem State.add_keeps {z s : State} (h : Keeps z s) (index sub n : Nat) : Keeps z (s.add index sub n) := by
  unfold State.add
  exact State.setNum_keeps h ..

theorem State.bump_keeps {z s : State} (h : Keeps z s) (index sub : Nat) : Keeps z (s.bump index sub) := by
  unfold State.bump
  exact State.add_keeps h ..

theorem State.setBlob_keeps {z s : State} (h : Keeps z s) (index sub : Nat) (v : List Byte) : Keeps z (s.setBlob index sub v) := by
  unfold State.setBlob
  try dsimp only
  refine Keeps.plain ?_ (r := fun w => ⟨w.1, mput_rises _ _ _ _ w.2, w.3, w.4, w.5, w.6⟩)
  assumption

theorem State.drawn_keeps {z s : State} (h : Keeps z s) : Keeps z s.drawn := by
  unfold State.drawn
  exact Keeps.plain h

theorem State.newId_keeps {z s : State} (h : Keeps z s) : Keeps z s.newId := by
  unfold State.newId
  exact Keeps.plain h

theorem State.modPort_keeps {z s : State} (h : Keeps z s) (p : Nat) (f : Port → Port) : Keeps z (s.modPort p f) := by
  unfold State.modPort
  exact Keeps.sized h

theorem State.modLink_keeps {z s : State} (h : Keeps z s) (p : Nat) (l : LinkId) (f : Link → Link) : Keeps z (s.modLink p l f) := by
  unfold State.modLink
  exact State.modPort_keeps h ..

theorem State.modQueue_keeps {z s : State} (h : Keeps z s) (p q : Nat) (f : Queue → Queue) : Keeps z (s.modQueue p q f) := by
  unfold State.modQueue
  exact State.modPort_keeps h ..

theorem State.fire_keeps {z s : State} (h : Keeps z s) (p : Nat) (l : LinkId) (vec : Nat) : Keeps z (s.fire p l vec) := by
  unfold State.fire
  extract_lets d0 d1
  exact Keeps.ite h (Keeps.ite (State.modLink_keeps h ..) (State.emit_keeps h ..))

theorem State.setWin_keeps {z s : State} (h : Keeps z s) (p extent : Nat) (e : WinEntry) : Keeps z (s.setWin p extent e) :=
  Keeps.upd rfl (fun f => { f with windows := mput_mwf _ _ _ _ f.windows }) h

theorem State.setPage_keeps {z s : State} (h : Keeps z s) (lpn : Nat) (e : Page) : Keeps z (s.setPage lpn e) :=
  Keeps.upd rfl (fun f => { f with pages := mput_mwf _ _ _ _ f.pages }) h

theorem State.setUse_keeps {z s : State} (h : Keeps z s) (lpn : Nat) (u : PageUse) : Keeps z (s.setUse lpn u) :=
  Keeps.upd rfl (fun f => { f with uses := mput_mwf _ _ _ _ f.uses }) h

theorem State.fireEvent_keeps {z s : State} (h : Keeps z s) (p : Nat) : Keeps z (s.fireEvent p) := by
  unfold State.fireEvent
  extract_lets d0
  have h1 : Keeps z d0 := State.fire_keeps h ..
  clear_value d0
  exact Keeps.ite (State.fire_keeps h1 ..) h1

theorem State.mailboxDone_keeps {z s : State} (h : Keeps z s) (p : Nat) (l : LinkId) (rc : MboxRc) (payload : List Byte) :
    Keeps z (s.mailboxDone p l rc payload) := by
  unfold State.mailboxDone
  exact State.fire_keeps (State.emit_keeps h ..) ..

theorem State.cxlLog_keeps {z s : State} (h : Keeps z s) (e' : Evt) : Keeps z (s.cxlLog e') := by
  unfold State.cxlLog
  refine Keeps.foldl _ ?_ ?_
  · exact h
  · intro t0 x1 h2
    refine Keeps.ite ?_ ?_
    · split
      · exact State.fireEvent_keeps (State.emit_keeps (Keeps.plain h2) ..) ..
      · exact h2
    · exact h2

theorem State.notify_keeps {z s : State} (h : Keeps z s) (e : Evt) : Keeps z (s.notify e) := by
  unfold State.notify
  dsimp only
  refine Keeps.ite h (h.trans ⟨rfl, rfl, ?_, List.prefix_refl _, rfl, rfl, rfl, rfl, rfl, rfl, fun f =>
    form_same f rfl rfl rfl rfl rfl rfl rfl rfl rfl rfl (fun w => w) rfl rfl rfl (.inl rfl) (.inl rfl)⟩)
  rw [List.append_assoc]
  exact List.prefix_append _ _

theorem ring_push {e : EvSt} (h : RingForm e) (g : e.full = false) (r : Evt) (hr : r.seq = e.next) :
    RingForm { e with ring := e.ring ++ [r], next := (e.next + 1) % 0x100000000 } := by
  have hc := h.count
  have hn := h.next
  have ho := h.oldest
  have hd := h.depth
  have hf : e.ring.length ≠ 1024 := by
    intro hl
    simp [EvSt.full] at g
    omega
  refine ⟨?_, ho, ?_, ?_, ?_⟩
  · show (e.next + 1) % 0x100000000 < 2 ^ 32
    omega
  · simp; omega
  · simp; omega
  · intro i x hx
    rw [List.getElem?_append] at hx
    split at hx
    · exact h.seqs i x hx
    · rename_i hi
      rcases Nat.eq_zero_or_pos (i - e.ring.length) with hz | hz
      · rw [hz] at hx
        simp at hx
        subst hx
        simp only [hr]
        omega
      · rw [List.getElem?_eq_none (by simp; omega)] at hx
        cases hx

theorem State.raiseWith_keeps {z s : State} (h : Keeps z s) (sev : Nat) (must : Bool) (code port unit aux page detail : Nat) :
    Keeps z (s.raiseWith sev must code port unit aux page detail) := by
  unfold State.raiseWith
  dsimp only
  refine Keeps.ite (State.notify_keeps (State.cxlLog_keeps ?_ _) _) (State.cxlLog_keeps ?_ _)
  all_goals
    split
    · refine State.bump_keeps ?_ _ _
      exact Keeps.plain h
    · rename_i hf
      exact Keeps.upd rfl (fun f => { f with ring := ring_push f.ring (by simpa using hf) _ rfl }) h

theorem State.raise_keeps {z s : State} (h : Keeps z s) (code unit : Nat) (aux detail : Nat) :
    Keeps z (s.raise code unit aux detail) := by
  unfold State.raise
  exact State.raiseWith_keeps h ..

theorem State.raisePage_keeps {z s : State} (h : Keeps z s) (code unit : Nat) (aux lpn detail : Nat) :
    Keeps z (s.raisePage code unit aux lpn detail) := by
  unfold State.raisePage
  exact State.raiseWith_keeps h ..

theorem State.raisePort_keeps {z s : State} (h : Keeps z s) (code p : Nat) (aux detail : Nat) :
    Keeps z (s.raisePort code p aux detail) := by
  unfold State.raisePort
  exact State.raiseWith_keeps h ..

theorem State.modPc_keeps {z s : State} (h : Keeps z s) (stack pc : Nat) (f : Pc → Pc) : Keeps z (s.modPc stack pc f) := by
  unfold State.modPc
  exact Keeps.plain h

theorem State.takeSlot_keeps {z s : State} (h : Keeps z s) (stack slot : Nat) : Keeps z (s.takeSlot stack slot) := by
  unfold State.takeSlot
  exact Keeps.plain h

theorem State.modChan_keeps {z s : State} (h : Keeps z s) (c : Nat) (f : Chan → Chan) : Keeps z (s.modChan c f) := by
  unfold State.modChan
  exact Keeps.sized h

theorem State.regulate_keeps {z s : State} (h : Keeps z s) : Keeps z s.regulate := by
  unfold State.regulate
  extract_lets d0 d1 d2 d3 d4
  have h6 : Keeps z d4 := Keeps.plain h
  clear_value d4
  exact Keeps.ite (Keeps.plain h) (Keeps.ite (State.raise_keeps h6 ..) h6)

theorem State.takeRun_keeps {z s : State} (h : Keeps z s) (r : Run) : Keeps z (s.takeRun r) := by
  unfold State.takeRun
  exact State.regulate_keeps (Keeps.sized h) ..

theorem State.freeRun_keeps {z s : State} (h : Keeps z s) (r : Run) (pooled : Bool) : Keeps z (s.freeRun r pooled) := by
  unfold State.freeRun
  extract_lets d0 d1 d2
  have h3 : Keeps z d2 := Keeps.sized h
  clear_value d2
  exact State.regulate_keeps h3 ..

theorem State.freeSlot_keeps {z s : State} (h : Keeps z s) (stack slot : Nat) : Keeps z (s.freeSlot stack slot) := by
  unfold State.freeSlot
  exact Keeps.plain h

theorem State.freeSpace_keeps {z s : State} (h : Keeps z s) (a : Space) : Keeps z (s.freeSpace a) := by
  unfold State.freeSpace
  split
  · exact State.freeSlot_keeps h ..
  · exact State.freeRun_keeps h ..

theorem State.release_keeps {z s : State} (h : Keeps z s) (lpn : Nat) (sp : Space) : Keeps z (s.release lpn sp) := by
  unfold State.release
  split
  · exact State.freeSpace_keeps h _
  · exact Keeps.same (s := s.newId) (State.newId_keeps h)

theorem State.recapacity_keeps {z s : State} (h : Keeps z s) : Keeps z s.recapacity := by
  unfold State.recapacity
  extract_lets d0 d1 d2
  have h3 : Keeps z d2 := Keeps.ite h (State.raise_keeps (Keeps.plain h) ..)
  clear_value d2
  exact State.regulate_keeps h3 ..

theorem State.formPools_keeps {z s : State} (h : Keeps z s) : Keeps z s.formPools := by
  unfold State.formPools
  exact Keeps.ite (Keeps.foldl _ h fun t0 x1 h2 => Keeps.ite (State.modChan_keeps h2 ..) h2) (Keeps.sized h)

theorem State.resettle_keeps {z s : State} (h : Keeps z s) : Keeps z s.resettle := by
  unfold State.resettle
  exact Keeps.ite (State.formPools_keeps (Keeps.plain h) ..) h

theorem State.releaseCopies_keeps {z s : State} (h : Keeps z s) (lpn : Nat) (e' : Page) : Keeps z (s.releaseCopies lpn e') := by
  unfold State.releaseCopies
  extract_lets d0
  have h1 : Keeps z d0 := Keeps.ite (State.release_keeps h ..) h
  clear_value d0
  refine Keeps.ite ?_ ?_
  · split
    · exact State.release_keeps h1 ..
    · exact h1
  · exact h1

theorem State.forgetSeal_keeps {z s : State} (h : Keeps z s) (lpn : Nat) : Keeps z (s.forgetSeal lpn) := by
  unfold State.forgetSeal
  extract_lets d0 d1
  exact Keeps.plain h

theorem State.vaultRelease_keeps {z s : State} (h : Keeps z s) (lpn : Nat) : Keeps z (s.vaultRelease lpn) := by
  unfold State.vaultRelease
  extract_lets d0
  exact Keeps.ite (State.touchP_keeps (State.setNum_keeps h ..) ..) h

theorem State.modBib_keeps {z s : State} (h : Keeps z s) (b : Nat) (f : Bib → Bib) : Keeps z (s.modBib b f) := by
  unfold State.modBib
  exact Keeps.sized h

theorem State.resteps_keeps {z s : State} (h : Keeps z s) (b : Nat) : Keeps z (s.resteps b) := by
  unfold State.resteps
  refine Keeps.ite ?_ ?_
  · extract_lets d0
    exact State.modBib_keeps h ..
  · exact h

theorem State.modRelay_keeps {z s : State} (h : Keeps z s) (e' : Nat) (f : Engine → Engine) : Keeps z (s.modRelay e' f) := by
  unfold State.modRelay
  exact Keeps.sized h

theorem State.modStride_keeps {z s : State} (h : Keeps z s) (e' : Nat) (f : Engine → Engine) : Keeps z (s.modStride e' f) := by
  unfold State.modStride
  exact Keeps.sized h

theorem State.modDramQ_keeps {z s : State} (h : Keeps z s) (u : DramUnit) (f : DramQ → DramQ) : Keeps z (s.modDramQ u f) := by
  unfold State.modDramQ
  split
  · exact State.modChan_keeps h ..
  · exact State.modPc_keeps h ..

theorem State.touchUnit_keeps {z s : State} (h : Keeps z s) (a : DramUnit) : Keeps z (s.touchUnit a) := by
  unfold State.touchUnit
  split
  · exact State.modChan_keeps h ..
  · exact h

theorem State.enqueue_keeps {z s : State} (h : Keeps z s) (u : DramUnit) (write : Bool) (granule : Nat) (owner : QOwner) (bib port :
    Option Nat) :
    Keeps z (s.enqueue u write granule owner bib port) := by
  unfold State.enqueue
  extract_lets d0 d1 d2 d3 d4 d5
  have h6 : Keeps z d4 := State.touchUnit_keeps (State.newId_keeps h ..) ..
  clear_value d4
  have h7 : Keeps z d5 := State.modDramQ_keeps h6 ..
  clear_value d5
  clear_value d3
  split
  · exact State.modDramQ_keeps h6 ..
  · refine Keeps.ite ?_ ?_
    · exact State.modDramQ_keeps h6 ..
    · refine Keeps.ite ?_ ?_
      · split
        · exact State.bump_keeps h7 ..
        · exact h7
      · exact State.modDramQ_keeps h6 ..

theorem State.enqueueN_keeps {z s : State} (h : Keeps z s) (u : DramUnit) (write : Bool) (first n : Nat) (owner : QOwner) (bib port :
    Option Nat) :
    Keeps z (s.enqueueN u write first n owner bib port) := by
  unfold State.enqueueN
  exact Keeps.foldl _ h fun t0 x1 h2 => State.enqueue_keeps h2 ..

theorem State.leaveSr_keeps {z s : State} (h : Keeps z s) (c : Nat) : Keeps z (s.leaveSr c) := by
  unfold State.leaveSr
  exact Keeps.ite (State.modChan_keeps h ..) h

theorem State.guardExits_keeps {z s : State} (h : Keeps z s) : Keeps z s.guardExits := by
  unfold State.guardExits
  refine Keeps.foldl _ ?_ ?_
  · exact h
  · intro t0 x1 h2
    extract_lets d3
    exact Keeps.ite (State.leaveSr_keeps h2 ..) h2

theorem State.addFlow_keeps {z s : State} (h : Keeps z s) (owner : QOwner) (u : DramUnit) (write : Bool) (first n : Nat) (bib port :
    Option Nat) :
    Keeps z (s.addFlow owner u write first n bib port) := by
  unfold State.addFlow
  exact Keeps.ite h (Keeps.same (s := s.newId) (State.newId_keeps h))

theorem State.dropFlows_keeps {z s : State} (h : Keeps z s) (id : Nat) : Keeps z (s.dropFlows id) := by
  unfold State.dropFlows
  exact Keeps.plain h

theorem State.clearUnit_keeps {z s : State} (h : Keeps z s) (u : DramUnit) : Keeps z (s.clearUnit u) := by
  unfold State.clearUnit
  exact State.modDramQ_keeps (Keeps.plain h) ..

theorem State.stepFlow_keeps {z s : State} (h : Keeps z s) (id : Nat) : Keeps z (s.stepFlow id) := by
  unfold State.stepFlow
  split
  · exact h
  · refine Keeps.ite h (Keeps.ite (State.enqueue_keeps (Keeps.plain h) _ _ _ _ _ _) ?_)
    split
    · exact Keeps.same (State.bump_keeps h _ _)
    · exact h

theorem State.runFlow_keeps {z s : State} (h : Keeps z s) (f : Flow) : Keeps z (s.runFlow f) := by
  unfold State.runFlow
  exact Keeps.foldl _ h fun t0 x1 h2 => State.stepFlow_keeps h2 ..

theorem State.burst_keeps {z s : State} (h : Keeps z s) (u : DramUnit) (legal hits : List Nat) :
    Keeps z (s.burst u legal hits).2 := by
  unfold State.burst
  split
  · split
    · exact h
    · split
      · exact h
      · dsimp only
        exact State.modDramQ_keeps h ..
  · split
    · exact h
    · extract_lets d0 d1 d2
      have h4 : Keeps z d0 := State.modDramQ_keeps h ..
      clear_value d0
      split
      · exact h4
      · extract_lets d5
        have h6 : Keeps z d5 := State.modDramQ_keeps h4 ..
        clear_value d5
        dsimp only
        exact State.modDramQ_keeps (State.touchUnit_keeps h6 ..) ..

theorem State.respare_keeps {z s : State} (h : Keeps z s) (c : Nat) : Keeps z (s.respare c) := by
  unfold State.respare
  extract_lets d0 d1 d2
  refine Keeps.sized ?_ (f := by simp [d0, d1, d2])
  exact h

theorem State.maintain_keeps {z s : State} (h : Keeps z s) (c : Nat) : Keeps z (s.maintain c) := by
  unfold State.maintain
  exact Keeps.ite (State.modChan_keeps h ..) h

theorem State.metaWrite_keeps {z s : State} (h : Keeps z s) (chan key : Nat) (granule n : Nat) (w0 w1 : LostWrite) :
    Keeps z (s.metaWrite chan key granule n w0 w1) := by
  unfold State.metaWrite
  extract_lets d0 d1
  have h3 : Keeps z d1 := by
    dsimp only [d1]
    dsimp only [d0]
    exact Keeps.ite (Keeps.ite h (Keeps.ite (State.addFlow_keeps h ..) (Keeps.ite (State.maintain_keeps h ..) h))) (Keeps.ite
      (State.addFlow_keeps (Keeps.ite h (Keeps.ite (State.addFlow_keeps h ..) (Keeps.ite (State.maintain_keeps h ..) h))) ..)
      (Keeps.ite (State.maintain_keeps (Keeps.ite h (Keeps.ite (State.addFlow_keeps h ..) (Keeps.ite (State.maintain_keeps h ..) h)))
      ..) (Keeps.ite h (Keeps.ite (State.addFlow_keeps h ..) (Keeps.ite (State.maintain_keeps h ..) h)))))
  clear_value d1
  split
  · exact State.addFlow_keeps h3 ..
  · exact h3

theorem State.pushMeta_keeps {z s : State} (h : Keeps z s) (c key n : Nat) (w0 w1 : LostWrite) :
    Keeps z (s.pushMeta c key n w0 w1) := by
  unfold State.pushMeta
  extract_lets d0
  have h1 : Keeps z d0 := State.metaWrite_keeps h ..
  clear_value d0
  exact Keeps.foldl _ h1 fun t2 x3 h4 => State.runFlow_keeps h4 ..

theorem State.swapPage_keeps {z s : State} (h : Keeps z s) (lpn : Nat) (e' : Page) : Keeps z (s.swapPage lpn e') := by
  unfold State.swapPage
  exact State.pushMeta_keeps (State.setPage_keeps h ..) ..

theorem State.swapWin_keeps {z s : State} (h : Keeps z s) (p extent : Nat) (e' : WinEntry) : Keeps z (s.swapWin p extent e') := by
  unfold State.swapWin
  exact State.pushMeta_keeps (State.setWin_keeps h ..) ..

theorem State.writeJournal_keeps {z s : State} (h : Keeps z s) (lpn : Nat) : Keeps z (s.writeJournal lpn) := by
  unfold State.writeJournal
  exact State.pushMeta_keeps h ..

theorem State.writeSet_keeps {z s : State} (h : Keeps z s) (n slot : Nat) : Keeps z (s.writeSet n slot) := by
  unfold State.writeSet
  exact State.pushMeta_keeps h ..

theorem State.clearPage_keeps {z s : State} (h : Keeps z s) (lpn : Nat) : Keeps z (s.clearPage lpn) := by
  unfold State.clearPage
  extract_lets d0 d1
  exact State.forgetSeal_keeps (State.releaseCopies_keeps (State.swapPage_keeps h ..) ..) ..

theorem State.poisonPage_keeps {z s : State} (h : Keeps z s) (lpn : Nat) : Keeps z (s.poisonPage lpn) := by
  unfold State.poisonPage
  extract_lets d0 d1
  exact State.forgetSeal_keeps (State.releaseCopies_keeps (State.swapPage_keeps h ..) ..) ..

theorem State.miss_keeps {z s : State} (h : Keeps z s) (b p : Nat) (leg : Bool) (sample : Nat) : Keeps z (s.miss b p leg sample) := by
  unfold State.miss
  extract_lets d0 d1 d2 d3
  have h4 : Keeps z d0 := State.bump_keeps h ..
  clear_value d0
  have h5 : Keeps z d2 := State.raiseWith_keeps (State.modBib_keeps h4 ..) ..
  clear_value d2
  exact Keeps.ite (Keeps.ite h5 (State.fire_keeps h5 ..)) h4

theorem State.sample_keeps {z s : State} (h : Keeps z s) (b p : Nat) (leg : Bool) (v : Nat) : Keeps z (s.sample b p leg v) := by
  unfold State.sample
  extract_lets d0 d1 d2 d3 d4
  have h5 : Keeps z d1 := State.modBib_keeps h ..
  clear_value d1
  have h6 : Keeps z d2 := State.bump_keeps (State.resteps_keeps h5 ..) ..
  clear_value d2
  have h7 : Keeps z d4 := State.setNum_keeps h6 ..
  clear_value d4
  exact Keeps.ite (State.miss_keeps h7 ..) h7

theorem State.readSample_keeps {z s : State} (h : Keeps z s) (b p arrival : Nat) : Keeps z (s.readSample b p arrival) := by
  unfold State.readSample
  exact State.sample_keeps (State.drawn_keeps h ..) ..

theorem State.decay_keeps {z s : State} (h : Keeps z s) (b : Nat) (leg : Bool) : Keeps z (s.decay b leg) := by
  unfold State.decay
  exact State.resteps_keeps (State.modBib_keeps h ..) ..

theorem State.urgCount_keeps {z s : State} (h : Keeps z s) (b : Nat) (port : Option Nat) (bytes : Nat) :
    Keeps z (s.urgCount b port bytes) := by
  unfold State.urgCount
  split
  · exact h
  · refine Keeps.ite ?_ ?_
    · exact h
    · extract_lets d0 d1
      have h2 : Keeps z d0 := State.modPort_keeps (State.add_keeps h ..) ..
      clear_value d0
      have h3 : Keeps z d1 := State.bump_keeps (State.modPort_keeps h2 ..) ..
      clear_value d1
      exact Keeps.ite h2 (Keeps.ite (State.raisePort_keeps (State.modPort_keeps h3 ..) ..) h3)

theorem State.urgSliceOf_keeps {z s : State} (h : Keeps z s) (p : Nat) : Keeps z (s.urgSliceOf p) := by
  unfold State.urgSliceOf
  extract_lets d0
  exact State.modPort_keeps h ..

theorem State.writeSprint_keeps {z s : State} (h : Keeps z s) (a : Nat) (bs : List Byte) : Keeps z (s.writeSprint a bs) :=
  Keeps.upd rfl (fun f => { f with sprint := Memory.writeN_wf _ _ _ f.sprint }) h

theorem State.writeDist_keeps {z s : State} (h : Keeps z s) (a : Nat) (bs : List Byte) : Keeps z (s.writeDist a bs) :=
  Keeps.upd rfl (fun f => { f with dist := Memory.writeN_wf _ _ _ f.dist }) h

theorem State.touchUse_keeps {z s : State} (h : Keeps z s) (lpn : Nat) (write : Bool) (bib : Nat) :
    Keeps z (s.touchUse lpn write bib) := by
  unfold State.touchUse
  extract_lets d0
  exact State.setUse_keeps h ..

theorem State.swapIf_keeps {z s : State} (h : Keeps z s) (lpn : Nat) (e' : Page) : Keeps z (s.swapIf lpn e') := by
  unfold State.swapIf
  exact Keeps.ite h (State.swapPage_keeps h ..)

theorem State.modItem_keeps {z s : State} (h : Keeps z s) (id : Nat) (f : Item → Item) : Keeps z (s.modItem id f) := by
  unfold State.modItem
  exact Keeps.plain h

theorem State.dropItem_keeps {z s : State} (h : Keeps z s) (id : Nat) : Keeps z (s.dropItem id) := by
  unfold State.dropItem
  exact Keeps.plain h

theorem State.itemHeld_keeps {z s : State} (h : Keeps z s) (it : Item) : Keeps z (s.itemHeld it) := by
  unfold State.itemHeld
  exact Keeps.ite h (State.modItem_keeps (State.bump_keeps h ..) ..)

theorem State.placeItem_keeps {z s : State} (h : Keeps z s) (it : Item) : Keeps z (s.placeItem it) := by
  unfold State.placeItem
  refine Keeps.ite ?_ ?_
  · exact h
  · split
    · exact h
    · exact Keeps.ite (State.modItem_keeps h ..) (Keeps.ite (State.itemHeld_keeps h ..) h)

theorem State.placeItems_keeps {z s : State} (h : Keeps z s) : Keeps z s.placeItems := by
  unfold State.placeItems
  exact Keeps.foldl _ h fun t0 x1 h2 => State.placeItem_keeps h2 ..

theorem State.pushItem_keeps {z s : State} (h : Keeps z s) (it : Item) : Keeps z (s.pushItem it) :=
  State.placeItem_keeps (Keeps.same (s := s.newId) (State.newId_keeps h)) it

theorem State.addItem_keeps {z s : State} (h : Keeps z s) (kind : ItemKind) (lpn blk bib : Nat) (port req chan : Option Nat) :
    Keeps z (s.addItem kind lpn blk bib port req chan) := by
  unfold State.addItem
  exact State.pushItem_keeps h ..

theorem State.addCopyItem_keeps {z s : State} (h : Keeps z s) (kind : ItemKind) (lpn : Nat) (j : Job) (bib : Nat) :
    Keeps z (s.addCopyItem kind lpn j bib) := by
  unfold State.addCopyItem
  exact State.pushItem_keeps h ..

theorem State.addFirmware_keeps {z s : State} (h : Keeps z s) (kind : ItemKind) (lpn : Nat) (chan : Option Nat) :
    Keeps z (s.addFirmware kind lpn chan) := by
  unfold State.addFirmware
  exact State.addItem_keeps h ..

theorem State.raiseMove_keeps {z s : State} (h : Keeps z s) (k : ItemKind) (lpn : Nat) : Keeps z (s.raiseMove k lpn) := by
  unfold State.raiseMove
  exact State.addFirmware_keeps (State.drawn_keeps h ..) ..

theorem State.modMove_keeps {z s : State} (h : Keeps z s) (id : Nat) (f : Move → Move) : Keeps z (s.modMove id f) := by
  unfold State.modMove
  exact Keeps.plain h

theorem State.endMove_keeps {z s : State} (h : Keeps z s) (m : Move) : Keeps z (s.endMove m) := by
  unfold State.endMove
  exact State.dropFlows_keeps (State.dropItem_keeps (Keeps.plain h) ..) ..

theorem State.freeDest_keeps {z s : State} (h : Keeps z s) (m : Move) : Keeps z (s.freeDest m) := by
  unfold State.freeDest
  extract_lets d0
  have h1 : Keeps z d0 := by
    dsimp only [d0]
    split
    · exact State.freeSlot_keeps h ..
    · exact h
  clear_value d0
  split
  · exact State.freeRun_keeps h1 ..
  · exact h1

theorem State.returnPrior_keeps {z s : State} (h : Keeps z s) (m : Move) : Keeps z (s.returnPrior m) := by
  unfold State.returnPrior
  extract_lets d0
  exact Keeps.ite (State.swapPage_keeps h ..) (State.swapIf_keeps h ..)

theorem State.undoMove_keeps {z s : State} (h : Keeps z s) (m : Move) : Keeps z (s.undoMove m) := by
  unfold State.undoMove
  exact State.endMove_keeps (State.freeDest_keeps (State.returnPrior_keeps h ..) ..) ..

theorem State.abandon_keeps {z s : State} (h : Keeps z s) (m : Move) : Keeps z (s.abandon m) := by
  unfold State.abandon
  exact State.bump_keeps (State.undoMove_keeps h ..) ..

theorem State.losePage_keeps {z s : State} (h : Keeps z s) (lpn : Nat) : Keeps z (s.losePage lpn) := by
  unfold State.losePage
  extract_lets d0
  have h1 : Keeps z d0 := by
    dsimp only [d0]
    split
    · exact State.undoMove_keeps h ..
    · exact h
  clear_value d0
  exact State.poisonPage_keeps h1 ..

theorem State.markSpoiled_keeps {z s : State} (h : Keeps z s) (lpn b : Nat) : Keeps z (s.markSpoiled lpn b) := by
  unfold State.markSpoiled
  exact Keeps.ite (Keeps.plain h) h

theorem State.addRepair_keeps {z s : State} (h : Keeps z s) (lpn b : Nat) (dist : Bool) : Keeps z (s.addRepair lpn b dist) := by
  unfold State.addRepair
  exact Keeps.ite h (State.addItem_keeps h ..)

theorem State.checkEvent_keeps {z s : State} (h : Keeps z s) (sev lpn : Nat) (b unit check : Nat) :
    Keeps z (s.checkEvent sev lpn b unit check) := by
  unfold State.checkEvent
  extract_lets d0 d1 d2
  have h3 : Keeps z d0 := State.markSpoiled_keeps (Keeps.ite h (State.bump_keeps h ..)) ..
  clear_value d0
  have h4 : Keeps z d1 := State.raiseWith_keeps h3 ..
  clear_value d1
  exact Keeps.plain h4

theorem State.checkFail_keeps {z s : State} (h : Keeps z s) (lpn b : Nat) (dist : Bool) (check : Nat) :
    Keeps z (s.checkFail lpn b dist check).2 := by
  unfold State.checkFail
  extract_lets d0 d1 d2
  have h3 : Keeps z d2 := State.checkEvent_keeps h ..
  clear_value d2
  split
  · dsimp only
    exact State.addRepair_keeps (State.checkEvent_keeps h ..) ..
  · dsimp only
    exact Keeps.ite h3 (State.losePage_keeps h3 ..)

end Sys2Proof.Machine
end

