-- ==== Sys2Proof/Laws/KeepsHost.lean ====
section
/-! SUPPORT. Keeps for host requests and moves: one lemma per operation. -/

set_option Elab.async false

namespace Sys2Proof.Machine

theorem State.modReq_keeps {z s : State} (h : Keeps z s) (id : Nat) (f : Req → Req) : Keeps z (s.modReq id f) := by
  unfold State.modReq
  exact Keeps.plain h

theorem State.dropReq_keeps {z s : State} (h : Keeps z s) (id : Nat) : Keeps z (s.dropReq id) := by
  unfold State.dropReq
  exact Keeps.plain h

theorem State.setStage_keeps {z s : State} (h : Keeps z s) (r : Req) (st : Stage) : Keeps z (s.setStage r st) := by
  unfold State.setStage
  exact State.modReq_keeps h ..

theorem State.completeBar2_keeps {z s : State} (h : Keeps z s) (p : Nat) (l : LinkId) (tag off : Nat) (data : List Byte) (ep : Bool) :
    Keeps z (s.completeBar2 p l tag off data ep) := by
  unfold State.completeBar2
  extract_lets d0
  exact Keeps.ite (State.emit_keeps h ..) (Keeps.foldl _ h fun t1 x2 h3 => State.emit_keeps h3 ..)

theorem State.finishXfer_keeps {z s : State} (h : Keeps z s) (x : Xfer) : Keeps z (s.finishXfer x) := by
  unfold State.finishXfer
  extract_lets d0 d1
  have h2 : Keeps z d0 := Keeps.plain h
  clear_value d0
  have h3 : Keeps z d1 := State.readSample_keeps (State.bump_keeps h2 ..) ..
  clear_value d1
  exact Keeps.ite h2 (Keeps.ite (State.bump_keeps h2 ..) (Keeps.ite (State.completeBar2_keeps h3 ..) (Keeps.ite
    (State.completeBar2_keeps (State.bump_keeps h3 ..) ..) (State.completeBar2_keeps h3 ..))))

theorem State.xferPiece_keeps {z s : State} (h : Keeps z s) (xid off : Nat) (data : List Byte) (poison : Bool) :
    Keeps z (s.xferPiece xid off data poison) := by
  unfold State.xferPiece
  split
  · exact h
  · extract_lets d0
    exact Keeps.ite (State.finishXfer_keeps h ..) (Keeps.plain h)

theorem State.jobPiece_keeps {z s : State} (h : Keeps z s) (id off : Nat) (data : List Byte) (bad : Bool) :
    Keeps z (s.jobPiece id off data bad) := by
  unfold State.jobPiece
  exact Keeps.plain h

theorem State.winPiece_keeps {z s : State} (h : Keeps z s) (id a : Nat) (data : List Byte) (bad : Bool) :
    Keeps z (s.winPiece id a data bad) := by
  unfold State.winPiece
  extract_lets d0 d1 d2
  exact Keeps.plain h

theorem State.readDone_keeps {z s : State} (h : Keeps z s) (r : Req) (data : List Byte) (poison : Bool) :
    Keeps z (s.readDone r data poison) := by
  unfold State.readDone
  extract_lets d0 d1
  have h2 : Keeps z d0 := State.dropReq_keeps h ..
  clear_value d0
  have h3 : Keeps z d1 := State.readSample_keeps (State.bump_keeps h2 ..) ..
  clear_value d1
  split
  · exact State.jobPiece_keeps h2 ..
  · exact State.winPiece_keeps h2 ..
  · exact State.xferPiece_keeps h2 ..
  · exact Keeps.ite h2 (Keeps.ite (State.emit_keeps h3 ..) (Keeps.ite (State.emit_keeps (State.bump_keeps h3 ..) ..)
      (State.emit_keeps h3 ..)))

theorem State.writeDone_keeps {z s : State} (h : Keeps z s) (r : Req) : Keeps z (s.writeDone r) := by
  unfold State.writeDone
  extract_lets d0
  have h1 : Keeps z d0 := State.dropReq_keeps h ..
  clear_value d0
  split
  · exact State.jobPiece_keeps h1 ..
  · exact h1
  · exact State.xferPiece_keeps h1 ..
  · exact Keeps.ite h1 (State.emit_keeps (State.bump_keeps h1 ..) ..)

theorem State.zeroAnswer_keeps {z s : State} (h : Keeps z s) (r : Req) (poison : Bool) : Keeps z (s.zeroAnswer r poison) := by
  unfold State.zeroAnswer
  exact State.readDone_keeps (State.modPort_keeps (State.bump_keeps h ..) ..) ..

theorem State.discardCount_keeps {z s : State} (h : Keeps z s) (r : Req) : Keeps z (s.discardCount r) := by
  unfold State.discardCount
  exact State.modPort_keeps (State.bump_keeps h ..) ..

theorem State.discardWrite_keeps {z s : State} (h : Keeps z s) (r : Req) : Keeps z (s.discardWrite r) := by
  unfold State.discardWrite
  extract_lets d0 d1 d2
  have h3 : Keeps z d0 := State.discardCount_keeps h ..
  clear_value d0
  have h4 : Keeps z d2 := Keeps.ite h3 (State.raiseWith_keeps (Keeps.plain h3) ..)
  clear_value d2
  exact State.writeDone_keeps h4 ..

theorem State.lockedVault_keeps {z s : State} (h : Keeps z s) (r : Req) : Keeps z (s.lockedVault r) := by
  unfold State.lockedVault
  extract_lets d0
  have h1 : Keeps z d0 := State.bump_keeps h ..
  clear_value d0
  exact Keeps.ite (State.writeDone_keeps h1 ..) (State.readDone_keeps h1 ..)

theorem State.countHeld_keeps {z s : State} (h : Keeps z s) (r : Req) : Keeps z (s.countHeld r) := by
  unfold State.countHeld
  exact Keeps.ite h (State.modReq_keeps (State.bump_keeps h ..) ..)

theorem State.waitQueue_keeps {z s : State} (h : Keeps z s) (r : Req) (u : DramUnit) : Keeps z (s.waitQueue r u) := by
  unfold State.waitQueue
  extract_lets d0
  have h1 : Keeps z d0 := Keeps.ite (State.countHeld_keeps h ..) h
  clear_value d0
  exact State.modReq_keeps h1 ..

theorem State.sprintRead_keeps {z s : State} (h : Keeps z s) (r : Req) (e' : Page) : Keeps z (s.sprintRead r e') := by
  unfold State.sprintRead
  extract_lets d0 d1 d2 d3 d4 d5
  exact Keeps.ite (State.waitQueue_keeps h ..) (State.modReq_keeps (State.touchUse_keeps (State.enqueueN_keeps h ..) ..) ..)

theorem State.writeContents_keeps {z s : State} (h : Keeps z s) (r : Req) (e : Page) : Keeps z (s.writeContents r e) := by
  unfold State.writeContents
  refine Keeps.ite ?_ ?_
  · dsimp only
    refine Keeps.ite ?_ ?_
    · with_reducible apply State.writeSprint_keeps
      assumption
    · with_reducible apply State.writeSprint_keeps
      assumption
  · have g : Keeps z (if e.code r.blk = 0 then s.writeSprint (e.sprintAddr r.blk) (List.replicate 2048 0) else s) := by
      refine Keeps.ite ?_ ?_
      · with_reducible apply State.writeSprint_keeps
        assumption
      · assumption
    dsimp only
    generalize (if e.code r.blk = 0 then s.writeSprint (e.sprintAddr r.blk) (List.replicate 2048 0) else s) = t at g ⊢
    exact Keeps.upd rfl (fun f => { f with sprint := Memory.writeMasked_wf _ _ _ f.sprint }) g

theorem State.markBlock_keeps {z s : State} (h : Keeps z s) (lpn b : Nat) : Keeps z (s.markBlock lpn b) := by
  unfold State.markBlock
  split
  · exact Keeps.ite (State.modMove_keeps h ..) h
  · exact h

theorem State.sealIfFull_keeps {z s : State} (h : Keeps z s) (lpn : Nat) (before after : Page) (bib : Nat) (port : Option Nat) :
    Keeps z (s.sealIfFull lpn before after bib port) := by
  unfold State.sealIfFull
  exact Keeps.ite (State.addItem_keeps h ..) h

theorem State.sprintWrite_keeps {z s : State} (h : Keeps z s) (r : Req) (e' : Page) : Keeps z (s.sprintWrite r e') := by
  unfold State.sprintWrite
  extract_lets d0 d1 d2 d3 d4 d5 d6
  have h7 : Keeps z d4 := State.swapIf_keeps (State.writeContents_keeps h ..) ..
  clear_value d4
  have h8 : Keeps z d5 := State.touchUse_keeps (State.markBlock_keeps h7 ..) ..
  clear_value d5
  have h9 : Keeps z d6 := Keeps.foldl _ h8 fun t10 x11 h12 => State.enqueue_keeps h12 ..
  clear_value d6
  exact Keeps.ite (State.waitQueue_keeps h ..) (State.writeDone_keeps (State.sealIfFull_keeps h9 ..) ..)

theorem State.joinPromotion_keeps {z s : State} (h : Keeps z s) (r : Req) : Keeps z (s.joinPromotion r) := by
  unfold State.joinPromotion
  extract_lets d0
  have h1 : Keeps z d0 := State.setStage_keeps h ..
  clear_value d0
  exact Keeps.ite h1 (State.addItem_keeps h1 ..)

theorem State.bypassRead_keeps {z s : State} (h : Keeps z s) (r : Req) (e' : Page) : Keeps z (s.bypassRead r e') := by
  unfold State.bypassRead
  exact State.addItem_keeps (State.modReq_keeps h ..) ..

theorem State.dispatchRead_keeps {z s : State} (h : Keeps z s) (r : Req) : Keeps z (s.dispatchRead r) := by
  unfold State.dispatchRead
  extract_lets d0 d1
  exact Keeps.ite (State.readDone_keeps h ..) (Keeps.ite (State.readDone_keeps h ..) (Keeps.ite (State.zeroAnswer_keeps h ..)
    (Keeps.ite (State.readDone_keeps h ..) (Keeps.ite (State.zeroAnswer_keeps h ..) (Keeps.ite (State.lockedVault_keeps h ..)
    (Keeps.ite (State.zeroAnswer_keeps h ..) (Keeps.ite (Keeps.ite (State.setStage_keeps h ..) (State.sprintRead_keeps h ..))
    (Keeps.ite (State.bypassRead_keeps h ..) (State.joinPromotion_keeps h ..)))))))))

theorem State.writeOrXts_keeps {z s : State} (h : Keeps z s) (r : Req) (e' : Page) : Keeps z (s.writeOrXts r e') := by
  unfold State.writeOrXts
  exact Keeps.ite (State.addItem_keeps (State.setStage_keeps h ..) ..) (State.sprintWrite_keeps h ..)

theorem State.backWrite_keeps {z s : State} (h : Keeps z s) (r : Req) (home slot : Nat) : Keeps z (s.backWrite r home slot) := by
  unfold State.backWrite
  extract_lets d0 d1
  exact State.writeOrXts_keeps (State.swapPage_keeps (State.takeSlot_keeps h ..) ..) ..

theorem State.newPageWrite_keeps {z s : State} (h : Keeps z s) (r : Req) : Keeps z (s.newPageWrite r) := by
  unfold State.newPageWrite
  extract_lets d0
  refine Keeps.ite ?_ ?_
  · exact State.setStage_keeps h ..
  · refine Keeps.ite ?_ ?_
    · exact State.setStage_keeps h ..
    · split
      · exact State.setStage_keeps h ..
      · exact State.backWrite_keeps h ..

theorem State.dispatchWrite_keeps {z s : State} (h : Keeps z s) (r : Req) : Keeps z (s.dispatchWrite r) := by
  unfold State.dispatchWrite
  extract_lets d0
  exact Keeps.ite (State.writeDone_keeps h ..) (Keeps.ite (State.writeDone_keeps (State.discardCount_keeps h ..) ..) (Keeps.ite
    (State.discardWrite_keeps h ..) (Keeps.ite (State.writeDone_keeps (State.raiseWith_keeps (State.discardCount_keeps h ..) ..) ..)
    (Keeps.ite (State.writeDone_keeps (State.bump_keeps h ..) ..) (Keeps.ite (State.lockedVault_keeps h ..) (Keeps.ite
    (State.newPageWrite_keeps h ..) (Keeps.ite (Keeps.ite (State.setStage_keeps h ..) (Keeps.ite (State.addItem_keeps
    (State.setStage_keeps h ..) ..) (State.writeOrXts_keeps h ..))) (Keeps.ite (State.setStage_keeps h ..) (Keeps.ite
    (State.setStage_keeps h ..) (State.joinPromotion_keeps h ..))))))))))

theorem State.dispatch_keeps {z s : State} (h : Keeps z s) (r : Req) : Keeps z (s.dispatch r) := by
  unfold State.dispatch
  exact Keeps.ite (State.dispatchWrite_keeps h ..) (State.dispatchRead_keeps h ..)

theorem State.tryAdmit_keeps {z s : State} (h : Keeps z s) (r : Req) : Keeps z (s.tryAdmit r) := by
  unfold State.tryAdmit
  refine Keeps.ite h (Keeps.ite ?_ ?_)
  · extract_lets d0 d1
    exact State.dispatch_keeps (State.modReq_keeps h ..) ..
  · exact Keeps.ite (State.countHeld_keeps h ..) h

theorem State.pumpOne_keeps {z s : State} (h : Keeps z s) (id : Nat) : Keeps z (s.pumpOne id) := by
  unfold State.pumpOne
  split
  · exact h
  · split
    · exact State.tryAdmit_keeps h ..
    · exact Keeps.ite h (State.tryAdmit_keeps (State.setStage_keeps h ..) ..)
    · exact State.dispatch_keeps h ..
    · exact Keeps.ite h (State.dispatch_keeps h ..)
    · exact Keeps.ite h (State.dispatch_keeps h ..)
    · exact Keeps.ite h (State.dispatch_keeps h ..)
    · extract_lets d0
      exact Keeps.ite (Keeps.ite (State.sprintWrite_keeps h ..) (State.dispatch_keeps h ..)) (Keeps.ite (State.dispatch_keeps h ..)
        (State.sprintRead_keeps h ..))
    · exact h
    · exact h

theorem State.pumpWaiter_keeps {z s : State} (h : Keeps z s) (w : Nat × Nat × Bool) : Keeps z (s.pumpWaiter w) := by
  unfold State.pumpWaiter
  refine Keeps.ite ?_ ?_
  · split
    · exact State.runFlow_keeps h ..
    · exact h
  · exact State.pumpOne_keeps h ..

theorem State.pump_keeps {z s : State} (h : Keeps z s) : Keeps z s.pump := by
  unfold State.pump
  extract_lets d0
  have h1 : Keeps z d0 := Keeps.foldl _ h fun t2 x3 h4 => State.pumpWaiter_keeps h4 ..
  clear_value d0
  exact State.placeItems_keeps (Keeps.foldl _ h1 fun t5 x6 h7 => State.pumpOne_keeps h7 ..) ..

theorem State.addReq_keeps {z s : State} (h : Keeps z s) (f : Nat → Req) : Keeps z (s.addReq f) := by
  unfold State.addReq
  extract_lets d0
  have h1 : Keeps z d0 := State.newId_keeps h ..
  clear_value d0
  exact Keeps.plain h1

theorem State.hostReq_keeps {z s : State} (h : Keeps z s) (write : Bool) (p : Nat) (l : LinkId) (src : ReqSrc) (a : PartAddr) (len :
    Nat) (data : List (Option Byte)) (stage : Stage) (relaxed poison : Bool) :
    Keeps z (s.hostReq write p l src a len data stage relaxed poison) := by
  unfold State.hostReq
  exact State.addReq_keeps h ..

theorem State.requestBuild_keeps {z s : State} (h : Keeps z s) (n bib : Nat) (port : Option Nat) :
    Keeps z (s.requestBuild n bib port) := by
  unfold State.requestBuild
  exact Keeps.ite h (Keeps.plain h)

theorem State.checkRecord_keeps {z s : State} (h : Keeps z s) (n : Nat) : Keeps z (s.checkRecord n) := by
  unfold State.checkRecord
  extract_lets d0 d1 d2
  have h3 : Keeps z d2 := Keeps.plain h
  clear_value d2
  exact Keeps.ite (State.requestBuild_keeps h3 ..) h3

theorem State.checkRecords_keeps {z s : State} (h : Keeps z s) : Keeps z s.checkRecords := by
  unfold State.checkRecords
  exact Keeps.foldl _ h fun t0 x1 h2 => State.checkRecord_keeps h2 ..

theorem State.recordSeal_keeps {z s : State} (h : Keeps z s) (lpn : Nat) : Keeps z (s.recordSeal lpn) := by
  unfold State.recordSeal
  extract_lets d0 d1 d2
  exact State.checkRecord_keeps (Keeps.plain h) ..

theorem State.recordEscapes_keeps {z s : State} (h : Keeps z s) (n esc blocks : Nat) : Keeps z (s.recordEscapes n esc blocks) := by
  unfold State.recordEscapes
  extract_lets d0 d1
  exact Keeps.plain h

theorem State.setRetiring_keeps {z s : State} (h : Keeps z s) (n v : Nat) : Keeps z (s.setRetiring n v) := by
  unfold State.setRetiring
  extract_lets d0 d1
  exact Keeps.plain h

theorem State.advanceBuild_keeps {z s : State} (h : Keeps z s) (b : BuildReq) : Keeps z (s.advanceBuild b) := by
  unfold State.advanceBuild
  refine Keeps.ite ?_ ?_
  · exact h
  · extract_lets d0 d1 d2
    refine Keeps.ite ?_ ?_
    · exact State.addItem_keeps (Keeps.plain h) ..
    · refine Keeps.ite ?_ ?_
      · exact h
      · split
        · exact h
        · extract_lets d4
          exact Keeps.ite (State.setRetiring_keeps h ..) (Keeps.foldl _ h fun t5 x6 h7 => State.addFirmware_keeps h7 ..)

theorem State.advanceBuilds_keeps {z s : State} (h : Keeps z s) : Keeps z s.advanceBuilds := by
  unfold State.advanceBuilds
  exact Keeps.foldl _ h fun t0 x1 h2 => State.advanceBuild_keeps h2 ..

theorem State.writeSlot_keeps {z s : State} (h : Keeps z s) (stack slot : Nat) (blocks : List (List Byte)) :
    Keeps z (s.writeSlot stack slot blocks) := by
  unfold State.writeSlot
  exact Keeps.foldl _ h fun t0 x1 h2 => State.writeSprint_keeps h2 ..

theorem State.writeRun_keeps {z s : State} (h : Keeps z s) (r : Run) (blocks : List (List Byte)) : Keeps z (s.writeRun r blocks) := by
  unfold State.writeRun
  exact State.writeDist_keeps h ..

theorem State.dropInject_keeps {z s : State} (h : Keeps z s) (unit : Nat) : Keeps z (s.dropInject unit) := by
  unfold State.dropInject
  exact Keeps.ite (Keeps.plain h) h

theorem State.asInjected_keeps {z s : State} (h : Keeps z s) (path : State → State) (hpath : ∀ a0, Keeps z a0 → Keeps z (path a0)) :
    Keeps z (s.asInjected path) := by
  unfold State.asInjected
  extract_lets d0 d1 d2
  have h3 : Keeps z d1 := by
    dsimp only [d1]
    apply hpath
    exact Keeps.plain h
  clear_value d1
  exact Keeps.plain h3

theorem State.fireInject_keeps {z s : State} (h : Keeps z s) (unit kind : Nat) (path : State → State) (hpath : ∀ a0, Keeps z a0 →
    Keeps z (path a0)) :
    Keeps z (s.fireInject unit kind path) := by
  unfold State.fireInject
  with_reducible apply State.asInjected_keeps
  · exact h
  · intro x0 h1
    apply hpath
    exact State.raise_keeps (State.bump_keeps (Keeps.plain h1) ..) ..

theorem State.enterTransit_keeps {z s : State} (h : Keeps z s) (m : Move) : Keeps z (s.enterTransit m) := by
  unfold State.enterTransit
  extract_lets d0
  exact Keeps.ite h (State.swapPage_keeps h ..)

theorem State.sealIdle_keeps {z s : State} (h : Keeps z s) (it : Item) : Keeps z (s.sealIdle it) := by
  unfold State.sealIdle
  exact State.dropItem_keeps (State.recordSeal_keeps h ..) ..

theorem State.journal_keeps {z s : State} (h : Keeps z s) (m : Move) : Keeps z (s.journal m) := by
  unfold State.journal
  exact State.writeJournal_keeps (State.modMove_keeps h ..) ..

theorem State.takeSpace_keeps {z s : State} (h : Keeps z s) (m : Move) : Keeps z (s.takeSpace m) := by
  unfold State.takeSpace
  extract_lets d0 d1 d2 d3 d4
  refine Keeps.ite ?_ ?_
  · exact h
  · refine Keeps.ite ?_ ?_
    · exact State.sealIdle_keeps (State.endMove_keeps h ..) ..
    · refine Keeps.ite ?_ ?_
      · exact State.endMove_keeps h ..
      · refine Keeps.ite ?_ ?_
        · split
          · exact h
          · exact State.journal_keeps (State.takeSlot_keeps h ..) ..
        · split
          · exact h
          · exact State.journal_keeps (State.takeRun_keeps h ..) ..

theorem State.blockFlows_keeps {z s : State} (h : Keeps z s) (id lpn : Nat) (dist write : Bool) (e' : Page) (blks : List Nat) (bib
    port : Option Nat) :
    Keeps z (s.blockFlows id lpn dist write e' blks bib port) := by
  unfold State.blockFlows
  exact Keeps.foldl _ h fun t0 x1 h2 => Keeps.ite (State.addFlow_keeps h2 ..) (State.addFlow_keeps h2 ..)

theorem State.moveFlows_keeps {z s : State} (h : Keeps z s) (m : Move) (step : Nat) : Keeps z (s.moveFlows m step) := by
  unfold State.moveFlows
  extract_lets d0 d1 d2
  have h3 : Keeps z d1 := State.modMove_keeps h ..
  clear_value d1
  refine Keeps.ite ?_ ?_
  · dsimp only [d2]
    exact State.blockFlows_keeps h3 ..
  · refine Keeps.ite ?_ ?_
    · dsimp only [d2]
      exact State.blockFlows_keeps h3 ..
    · refine Keeps.ite ?_ ?_
      · dsimp only [d2]
        exact State.blockFlows_keeps h3 ..
      · exact h3

theorem State.writeCopy_keeps {z s : State} (h : Keeps z s) (e' : Page) (b : Nat) (dist : Bool) (bytes : List Byte) :
    Keeps z (s.writeCopy e' b dist bytes) := by
  unfold State.writeCopy
  exact Keeps.ite (State.writeDist_keeps h ..) (State.writeSprint_keeps h ..)

theorem State.checkCopy_keeps {z s : State} (h : Keeps z s) (lpn : Nat) (dist : Bool) (fuel : Nat) (bad : List Nat) :
    Keeps z (s.checkCopy lpn dist fuel bad) := by
  induction fuel generalizing s bad with
  | zero => exact h
  | succ f ih =>
    unfold State.checkCopy
    dsimp only
    split
    · exact h
    · rename_i b c _
      have g := State.checkFail_keeps h lpn b dist c
      split
      · rename_i good s1 e
        rw [e] at g
        exact ih (State.writeCopy_keeps g _ _ _ _) _
      · rename_i s1 e
        rw [e] at g
        exact g

theorem State.stepMove_keeps {z s : State} (h : Keeps z s) (id : Nat) : Keeps z (s.stepMove id) := by
  unfold State.stepMove
  split
  · exact h
  · refine Keeps.ite ?_ ?_
    · exact h
    · refine Keeps.ite ?_ ?_
      · exact Keeps.ite h (State.moveFlows_keeps (State.enterTransit_keeps h ..) ..)
      · refine Keeps.ite ?_ ?_
        · extract_lets d0
          have h1 : Keeps z d0 := State.checkCopy_keeps h ..
          clear_value d0
          exact Keeps.ite (State.moveFlows_keeps h1 ..) h1
        · exact State.moveFlows_keeps h ..

theorem State.stepMoves_keeps {z s : State} (h : Keeps z s) : Keeps z s.stepMoves := by
  unfold State.stepMoves
  exact Keeps.foldl _ h fun t0 x1 h2 => Keeps.foldl _ h2 fun t3 x4 h5 => State.stepMove_keeps h5 ..

theorem State.startMove_keeps {z s : State} (h : Keeps z s) (it : Item) : Keeps z (s.startMove it) := by
  unfold State.startMove
  extract_lets e n v inj m s1 r s2 s3 s4 waits
  refine Keeps.ite (State.dropItem_keeps h _) (Keeps.ite (State.dropItem_keeps h _) (Keeps.ite (State.sealIdle_keeps h _)
    (Keeps.ite (State.dropItem_keeps h _) ?_)))
  have g1 : Keeps z s1 := State.modItem_keeps (State.newId_keeps h) _ _
  clear_value s1
  have g2 : Keeps z s2 := Keeps.plain g1
  have g3 : Keeps z s3 := Keeps.ite g2 (State.fireInject_keeps g2 _ _ _ fun _ ht => ht)
  have g4 : Keeps z s4 := State.takeSpace_keeps g3 _
  clear_value s2 s3 s4
  split
  · rename_i m4 _
    have g5 : Keeps z (s4.endMove m4) := State.endMove_keeps g4 _
    exact Keeps.ite (Keeps.ite (State.raiseMove_keeps g5 _ _) g5) g4
  · exact g4

theorem State.startBypass_keeps {z s : State} (h : Keeps z s) (it : Item) (r : Req) : Keeps z (s.startBypass it r) := by
  unfold State.startBypass
  extract_lets d0 d1 d2
  have h3 : Keeps z d2 := State.enqueueN_keeps h ..
  clear_value d2
  exact State.modItem_keeps (State.modReq_keeps h3 ..) ..

theorem State.itemReads_keeps {z s : State} (h : Keeps z s) (it : Item) : Keeps z (s.itemReads it) := by
  unfold State.itemReads
  extract_lets d0 d1
  split
  · dsimp only [d1]
    exact State.blockFlows_keeps h ..
  · dsimp only [d1]
    exact State.blockFlows_keeps h ..
  · split
    · refine Keeps.ite ?_ ?_
      · dsimp only [d1]
        exact State.blockFlows_keeps h ..
      · exact h
    · exact h
  · refine Keeps.foldl _ ?_ ?_
    · exact h
    · intro t2 x3 h4
      dsimp only [d1]
      exact State.blockFlows_keeps h4 ..
  · exact h

theorem State.startItem_keeps {z s : State} (h : Keeps z s) (it : Item) : Keeps z (s.startItem it) := by
  unfold State.startItem
  refine Keeps.ite ?_ ?_
  · exact State.startMove_keeps h ..
  · split
    · exact State.startBypass_keeps h ..
    · exact State.itemReads_keeps (State.modItem_keeps h ..) ..

theorem State.startNext_keeps {z s : State} (h : Keeps z s) (e fuel : Nat) (cands : List Item) :
    Keeps z (s.startNext e fuel cands) := by
  induction fuel generalizing s cands with
  | zero => exact h
  | succ f ih =>
    unfold State.startNext
    split
    · exact h
    · exact Keeps.ite (ih h _) (Keeps.ite (State.startItem_keeps h _) (ih (Keeps.ite h (State.itemHeld_keeps h _)) _))

theorem State.engineTakes_keeps {z s : State} (h : Keeps z s) (e' : Nat) : Keeps z (s.engineTakes e') := by
  unfold State.engineTakes
  refine Keeps.ite ?_ ?_
  · exact h
  · extract_lets d0
    exact State.startNext_keeps h ..

theorem State.restartMove_keeps {z s : State} (h : Keeps z s) (m : Move) (why : Nat) : Keeps z (s.restartMove m why) := by
  unfold State.restartMove
  extract_lets d0 d1 d2
  have h3 : Keeps z d0 := State.bump_keeps (State.raisePage_keeps h ..) ..
  clear_value d0
  have h4 : Keeps z d1 := State.freeDest_keeps (State.returnPrior_keeps h3 ..) ..
  clear_value d1
  exact State.modItem_keeps (State.dropFlows_keeps (Keeps.plain h4) ..) ..

theorem State.unloadEngine_keeps {z s : State} (h : Keeps z s) (e' : Nat) : Keeps z (s.unloadEngine e') := by
  unfold State.unloadEngine
  extract_lets d0 d1 d2 d3 d4
  have h5 : Keeps z d1 := Keeps.foldl _ h fun t6 x7 h8 => State.restartMove_keeps h8 ..
  clear_value d1
  have h9 : Keeps z d2 := Keeps.foldl _ h5 fun t10 x11 h12 => State.dropFlows_keeps h12 ..
  clear_value d2
  exact Keeps.plain h9

theorem State.fenceRelay_keeps {z s : State} (h : Keeps z s) (e' : Nat) : Keeps z (s.fenceRelay e') := by
  unfold State.fenceRelay
  extract_lets d0 d1
  have h2 : Keeps z d0 := State.modRelay_keeps (State.dropInject_keeps h ..) ..
  clear_value d0
  have h3 : Keeps z d1 := State.raise_keeps h2 ..
  clear_value d1
  exact State.placeItems_keeps (State.unloadEngine_keeps h3 ..) ..

theorem State.noteSpoiled_keeps {z s : State} (h : Keeps z s) (m : Move) (codes : List Nat) : Keeps z (s.noteSpoiled m codes) := by
  unfold State.noteSpoiled
  split
  · exact Keeps.plain h
  · exact h

theorem State.freeOld_keeps {z s : State} (h : Keeps z s) (lpn : Nat) (e' : Page) (pooled : Bool) :
    Keeps z (s.freeOld lpn e' pooled) := by
  unfold State.freeOld
  split
  · exact State.release_keeps h ..
  · exact h

theorem State.switchTo_keeps {z s : State} (h : Keeps z s) (m : Move) : Keeps z (s.switchTo m) := by
  unfold State.switchTo
  extract_lets d0 d1 d2 d3 d4 d5 d6
  have h17 : Keeps z d4 := State.bump_keeps h ..
  clear_value d4
  split
  · extract_lets d18
    have h19 : Keeps z d18 := State.bump_keeps (State.noteSpoiled_keeps (State.writeSlot_keeps h17 ..) ..) ..
    clear_value d18
    exact State.endMove_keeps (State.swapPage_keeps h19 ..) ..
  · extract_lets d20 d21
    have h22 : Keeps z d20 := State.noteSpoiled_keeps (State.writeRun_keeps h17 ..) ..
    clear_value d20
    exact State.endMove_keeps (State.freeOld_keeps (State.swapPage_keeps h22 ..) ..) ..
  · extract_lets d23 d24 d25 d26 d27 d28 d29
    have h30 : Keeps z d25 := State.noteSpoiled_keeps (State.writeRun_keeps h17 ..) ..
    clear_value d25
    have h31 : Keeps z d28 := Keeps.ite (State.bump_keeps h30 ..) (Keeps.ite (State.bump_keeps h30 ..) h30)
    clear_value d28
    have h32 : Keeps z d29 := State.swapPage_keeps h31 ..
    clear_value d29
    exact State.endMove_keeps (Keeps.ite (State.freeOld_keeps h32 ..) h32) ..
  · exact h

theorem State.closeSeal_keeps {z s : State} (h : Keeps z s) (m : Move) (sl : Nat) : Keeps z (s.closeSeal m sl) := by
  unfold State.closeSeal
  extract_lets d0 d1 d2 d3 d4 d5 d6 d7 d8 d9 d10 d11 d12 d13
  have h14 : Keeps z d7 := State.bump_keeps (State.noteSpoiled_keeps (State.writeSlot_keeps h ..) ..) ..
  clear_value d7
  have h15 : Keeps z d11 := State.blockFlows_keeps (State.newId_keeps (State.endMove_keeps (State.release_keeps (State.swapPage_keeps
    h14 ..) ..) ..) ..) ..
  clear_value d11
  have h16 : Keeps z d13 := Keeps.ite (State.recordEscapes_keeps h15 ..) h15
  clear_value d13
  exact Keeps.ite (State.recordSeal_keeps (State.bump_keeps h16 ..) ..) h15

theorem State.destFault_keeps {z s : State} (h : Keeps z s) (m : Move) (b check : Nat) : Keeps z (s.destFault m b check) := by
  unfold State.destFault
  extract_lets d0 d1 d2 d3
  have h4 : Keeps z d2 := State.undoMove_keeps (State.checkEvent_keeps h ..) ..
  clear_value d2
  split
  · exact State.checkFail_keeps h4 ..
  · exact h4

theorem State.retire_keeps {z s : State} (h : Keeps z s) (n v : Nat) : Keeps z (s.retire n v) := by
  unfold State.retire
  extract_lets d0 d1
  exact Keeps.ite (State.raise_keeps (Keeps.plain h) ..) h

theorem State.reseal_keeps {z s : State} (h : Keeps z s) (n : Nat) : Keeps z (s.reseal n) := by
  unfold State.reseal
  exact Keeps.foldl _ h fun t0 x1 h2 => State.addItem_keeps h2 ..

theorem State.newVersion_keeps {z s : State} (h : Keeps z s) (n slot : Nat) (set : List Byte) :
    Keeps z (s.newVersion n slot set) := by
  unfold State.newVersion
  extract_lets d0 d1 d2 d3 d4
  have h5 : Keeps z d3 := Keeps.plain h
  clear_value d3
  have h6 : Keeps z d4 := State.writeSet_keeps (State.raise_keeps (State.bump_keeps h5 ..) ..) ..
  clear_value d4
  exact Keeps.ite (State.reseal_keeps h6 ..) h6

theorem State.checkBuild_keeps {z s : State} (h : Keeps z s) (n : Nat) : Keeps z (s.checkBuild n) := by
  unfold State.checkBuild
  exact Keeps.foldl _ h fun t0 x1 h2 => State.checkCopy_keeps h2 ..

theorem State.stepRepair_keeps {z s : State} (h : Keeps z s) (it : Item) : Keeps z (s.stepRepair it) := by
  unfold State.stepRepair
  refine Keeps.ite ?_ ?_
  · exact h
  · extract_lets d0 d1 d2
    have h3 : Keeps z d2 := State.dropItem_keeps h ..
    clear_value d2
    exact Keeps.ite h3 (State.bump_keeps (State.blockFlows_keeps (State.writeCopy_keeps h3 ..) ..) ..)

theorem State.settle_keeps {z s : State} (h : Keeps z s) : Keeps z s.settle := by
  unfold State.settle
  extract_lets d0
  have h1 : Keeps z d0 := State.stepMoves_keeps (State.checkRecords_keeps h ..) ..
  clear_value d0
  exact State.pump_keeps (State.advanceBuilds_keeps (State.guardExits_keeps (State.resettle_keeps (Keeps.foldl _ h1 fun t2 x3 h4 =>
    State.stepRepair_keeps h4 ..) ..) ..) ..) ..

end Sys2Proof.Machine
end

