-- ==== Sys2Proof/Laws/KeepsJobs.lean ====
section
/-! SUPPORT. Keeps for DMA, legs and jobs: one lemma per operation. -/

set_option Elab.async false

namespace Sys2Proof.Machine

theorem State.wakeLink_keeps {z s : State} (h : Keeps z s) (p : Nat) (l : LinkId) : Keeps z (s.wakeLink p l) := by
  unfold State.wakeLink
  exact Keeps.ite (State.modLink_keeps h ..) h

theorem State.cacheXlate_keeps {z s : State} (h : Keeps z s) (p : Nat) (l : LinkId) (x : Xlate) : Keeps z (s.cacheXlate p l x) := by
  unfold State.cacheXlate
  exact State.modLink_keeps h ..

theorem State.modDma_keeps {z s : State} (h : Keeps z s) (p : Nat) (l : LinkId) (id : Nat) (f : DmaRead → DmaRead) :
    Keeps z (s.modDma p l id f) := by
  unfold State.modDma
  exact State.modLink_keeps h ..

theorem State.issueRead_keeps {z s : State} (h : Keeps z s) (p : Nat) (l : LinkId) (d : DmaRead) : Keeps z (s.issueRead p l d) := by
  unfold State.issueRead
  extract_lets d0
  refine Keeps.ite ?_ ?_
  · exact h
  · refine Keeps.ite ?_ ?_
    · exact State.emit_keeps (State.modDma_keeps (State.wakeLink_keeps h ..) ..) ..
    · split
      · exact State.emit_keeps (State.modLink_keeps (State.modDma_keeps (State.wakeLink_keeps h ..) ..) ..) ..
      · exact State.modDma_keeps h ..
      · exact Keeps.ite h (State.emit_keeps (State.modDma_keeps (State.wakeLink_keeps h ..) ..) ..)

theorem State.pumpDma_keeps {z s : State} (h : Keeps z s) (p : Nat) (l : LinkId) : Keeps z (s.pumpDma p l) := by
  unfold State.pumpDma
  exact Keeps.foldl _ h fun t0 x1 h2 => State.issueRead_keeps h2 ..

theorem State.fetchPiece_keeps {z s : State} (h : Keeps z s) (p : Nat) (l : LinkId) (o : DmaOwner) (a n : Nat) :
    Keeps z (s.fetchPiece p l o a n).2 := by
  unfold State.fetchPiece
  split
  · split
    · exact h
    · exact h
    · exact h
    · exact h
  · extract_lets d0
    dsimp only
    exact State.issueRead_keeps (State.modLink_keeps (State.newId_keeps h ..) ..) ..

theorem State.fetchHost_keeps {z s : State} (h : Keeps z s) (p : Nat) (l : LinkId) (o : DmaOwner) (addr len : Nat) :
    Keeps z (s.fetchHost p l o addr len).2 := by
  unfold State.fetchHost
  refine Keeps.foldl_snd _ ?_ ?_
  · exact h
  · intro t0 x1 h2
    extract_lets d3
    have h4 : Keeps z d3.2 := State.fetchPiece_keeps h2 ..
    clear_value d3
    exact h4

theorem State.dropReads_keeps {z s : State} (h : Keeps z s) (p : Nat) (l : LinkId) (o : DmaOwner) : Keeps z (s.dropReads p l o) := by
  unfold State.dropReads
  exact State.modLink_keeps h ..

theorem State.modJob_keeps {z s : State} (h : Keeps z s) (id : Nat) (f : Job → Job) : Keeps z (s.modJob id f) := by
  unfold State.modJob
  exact Keeps.plain h

theorem State.windowPiece_keeps {z s : State} (h : Keeps z s) (j : Job) (a n : Nat) : Keeps z (s.windowPiece j a n).2 := by
  unfold State.windowPiece
  split
  · split
    · exact h
    · exact h
  · dsimp only
    exact State.modJob_keeps (State.hostReq_keeps h ..) ..

theorem State.windowRead_keeps {z s : State} (h : Keeps z s) (j : Job) (addr len : Nat) : Keeps z (s.windowRead j addr len).2 := by
  unfold State.windowRead
  refine Keeps.foldl_snd _ ?_ ?_
  · exact h
  · intro t0 x1 h2
    extract_lets d3
    have h4 : Keeps z d3.2 := State.windowPiece_keeps h2 ..
    clear_value d3
    exact h4

theorem State.fetchJob_keeps {z s : State} (h : Keeps z s) (j : Job) (addr len : Nat) : Keeps z (s.fetchJob j addr len).2 := by
  unfold State.fetchJob
  split
  · split
    · exact State.windowRead_keeps h ..
    · exact h
  · exact State.fetchHost_keeps h ..

theorem State.dropLegs_keeps {z s : State} (h : Keeps z s) (f : Leg → Bool) : Keeps z (s.dropLegs f) := by
  unfold State.dropLegs
  exact Keeps.foldl _ (Keeps.plain h) fun t0 x1 h2 => State.dropFlows_keeps h2 ..

theorem State.dropCopyItems_keeps {z s : State} (h : Keeps z s) (id : Nat) : Keeps z (s.dropCopyItems id) := by
  unfold State.dropCopyItems
  exact Keeps.foldl _ h fun t0 x1 h2 => State.dropItem_keeps (State.dropFlows_keeps h2 ..) ..

theorem State.dropJobReads_keeps {z s : State} (h : Keeps z s) (j : Job) : Keeps z (s.dropJobReads j) := by
  unfold State.dropJobReads
  exact State.modJob_keeps (State.dropReads_keeps h ..) ..

theorem State.dropJobWork_keeps {z s : State} (h : Keeps z s) (j : Job) : Keeps z (s.dropJobWork j) := by
  unfold State.dropJobWork
  extract_lets d0 d1
  have h2 : Keeps z d0 := State.dropCopyItems_keeps (State.dropLegs_keeps (State.dropJobReads_keeps h ..) ..) ..
  clear_value d0
  exact Keeps.plain h2

theorem State.dropJob_keeps {z s : State} (h : Keeps z s) (j : Job) : Keeps z (s.dropJob j) := by
  unfold State.dropJob
  extract_lets d0 d1
  have h2 : Keeps z d0 := State.dropJobWork_keeps h ..
  clear_value d0
  exact Keeps.plain h2

theorem State.finish_keeps {z s : State} (h : Keeps z s) (j : Job) (status result : Nat) (writes : List HostWrite) :
    Keeps z (s.finish j status result writes) := by
  unfold State.finish
  extract_lets d0 d1
  have h2 : Keeps z d1 := State.modJob_keeps (State.dropCopyItems_keeps h ..) ..
  clear_value d1
  exact Keeps.ite (Keeps.ite (State.bump_keeps (State.bump_keeps h2 ..) ..) (State.bump_keeps h2 ..)) h2

theorem State.cannotWrite_keeps {z s : State} (h : Keeps z s) (j : Job) : Keeps z (s.cannotWrite j) := by
  unfold State.cannotWrite
  exact State.modJob_keeps h ..

theorem State.windowWrite_keeps {z s : State} (h : Keeps z s) (j : Job) (addr : Nat) (data : List Byte) :
    Keeps z (s.windowWrite j addr data) := by
  unfold State.windowWrite
  extract_lets d0 d1
  have h3 : Keeps z d1 := Keeps.foldl _ h fun t4 x5 h6 => State.hostReq_keeps h6 ..
  clear_value d1
  exact State.modJob_keeps h3 ..

theorem State.deliver_keeps {z s : State} (h : Keeps z s) (j : Job) (status result : Nat) (outs : List (Nat × List Byte)) :
    Keeps z (s.deliver j status result outs) := by
  unfold State.deliver
  exact Keeps.ite (Keeps.ite (Keeps.foldl _ (State.finish_keeps h ..) fun t0 x1 h2 => State.windowWrite_keeps h2 ..)
    (State.finish_keeps h ..)) (State.finish_keeps h ..)

theorem State.stopQueue_keeps {z s : State} (h : Keeps z s) (j : Job) : Keeps z (s.stopQueue j) := by
  unfold State.stopQueue
  exact State.dropJob_keeps (State.raiseWith_keeps (State.modQueue_keeps h ..) ..) ..

theorem State.writeAccess_keeps {z s : State} (h : Keeps z s) (j : Job) (addr len : Nat) : Keeps z (s.writeAccess j addr len).2 := by
  unfold State.writeAccess
  extract_lets d0
  split
  · exact h
  · split
    · dsimp only
      exact State.wakeLink_keeps h ..
    · split
      · dsimp only
        exact State.modLink_keeps (State.wakeLink_keeps h ..) ..
      · exact h
      · split
        · exact h
        · dsimp only
          exact State.emit_keeps (State.modJob_keeps (State.wakeLink_keeps h ..) ..) ..

theorem State.emitWrite_keeps {z s : State} (h : Keeps z s) (p : Nat) (l : LinkId) (addr : Nat) (data : List Byte) (relaxed : Bool) :
    Keeps z (s.emitWrite p l addr data relaxed) := by
  unfold State.emitWrite
  extract_lets d0
  exact Keeps.foldl _ h fun t1 x2 h3 => State.emit_keeps h3 ..

theorem State.checkCompletion_keeps {z s : State} (h : Keeps z s) (j : Job) : Keeps z (s.checkCompletion j) := by
  unfold State.checkCompletion
  refine Keeps.ite ?_ ?_
  · exact State.stopQueue_keeps h ..
  · split
    · refine Keeps.of_snd (by assumption) ?_
      exact State.writeAccess_keeps h ..
    · with_reducible apply State.stopQueue_keeps
      refine Keeps.of_snd (by assumption) ?_
      exact State.writeAccess_keeps h ..
    · with_reducible apply State.modJob_keeps
      refine Keeps.of_snd (by assumption) ?_
      exact State.writeAccess_keeps h ..

theorem State.writeRecord_keeps {z s : State} (h : Keeps z s) (j : Job) (status : Nat) : Keeps z (s.writeRecord j status) := by
  unfold State.writeRecord
  split
  · refine Keeps.of_snd (by assumption) ?_
    exact State.writeAccess_keeps h ..
  · with_reducible apply State.stopQueue_keeps
    refine Keeps.of_snd (by assumption) ?_
    exact State.writeAccess_keeps h ..
  · extract_lets d0 d1
    have h2 : Keeps z d0 := by
      dsimp only [d0]
      with_reducible apply State.emit_keeps
      with_reducible apply State.emit_keeps
      refine Keeps.of_snd (by assumption) ?_
      exact State.writeAccess_keeps h ..
    clear_value d0
    have h3 : Keeps z d1 := Keeps.ite (State.fire_keeps h2 ..) h2
    clear_value d1
    exact State.dropJob_keeps h3 ..

theorem State.readyWrites_keeps {z s : State} (h : Keeps z s) (j : Job) : Keeps z (s.readyWrites j).2 := by
  unfold State.readyWrites
  refine Keeps.foldl_snd _ ?_ ?_
  · exact h
  · intro t0 x1 h2
    split
    · exact h2
    · split
      · dsimp only
        with_reducible apply State.modJob_keeps
        refine Keeps.of_snd (by assumption) ?_
        exact State.writeAccess_keeps h2 ..
      · dsimp only
        refine Keeps.of_snd (by assumption) ?_
        exact State.writeAccess_keeps h2 ..
      · dsimp only
        refine Keeps.of_snd (by assumption) ?_
        exact State.writeAccess_keeps h2 ..

theorem State.writeResults_keeps {z s : State} (h : Keeps z s) (j : Job) : Keeps z (s.writeResults j) := by
  unfold State.writeResults
  split
  · with_reducible apply State.cannotWrite_keeps
    refine Keeps.of_snd (by assumption) ?_
    exact State.readyWrites_keeps h ..
  · split
    · refine Keeps.of_snd (by assumption) ?_
      exact State.readyWrites_keeps h ..
    · refine Keeps.ite ?_ ?_
      · refine Keeps.foldl _ ?_ ?_
        · with_reducible apply State.modJob_keeps
          refine Keeps.of_snd (by assumption) ?_
          exact State.readyWrites_keeps h ..
        · intro t0 x1 h2
          exact State.emitWrite_keeps h2 ..
      · refine Keeps.of_snd (by assumption) ?_
        exact State.readyWrites_keeps h ..

theorem State.unready_keeps {z s : State} (h : Keeps z s) (p : Nat) (l : LinkId) (addr size : Nat) :
    Keeps z (s.unready p l addr size) := by
  unfold State.unready
  extract_lets d0 d1 d2
  exact Keeps.plain h

theorem State.writeOut_keeps {z s : State} (h : Keeps z s) (id : Nat) : Keeps z (s.writeOut id) := by
  unfold State.writeOut
  split
  · exact h
  · extract_lets d0
    have h1 : Keeps z d0 := State.writeResults_keeps h ..
    clear_value d0
    split
    · exact h1
    · split
      · exact Keeps.ite (State.writeRecord_keeps h1 ..) h1
      · exact h1

theorem State.addLeg_keeps {z s : State} (h : Keeps z s) (j : Job) (head : Nat) (c : Nat × Nat × Nat) : Keeps z (s.addLeg j head c) :=
  Keeps.same (s := s.newId) (State.newId_keeps h)

theorem State.cutLegs_keeps {z s : State} (h : Keeps z s) (j : Job) : Keeps z (s.cutLegs j) := by
  unfold State.cutLegs
  exact Keeps.foldl _ h fun t0 x1 h2 => Keeps.foldl _ h2 fun t3 x4 h5 => State.addLeg_keeps h5 ..

theorem State.modLeg_keeps {z s : State} (h : Keeps z s) (id : Nat) (f : Leg → Leg) : Keeps z (s.modLeg id f) := by
  unfold State.modLeg
  exact Keeps.plain h

theorem State.dispatchFirst_keeps {z s : State} (h : Keeps z s) (fuel : Nat) (cands : List Leg) :
    Keeps z (s.dispatchFirst fuel cands) := by
  induction fuel generalizing s cands with
  | zero => exact h
  | succ f ih =>
    unfold State.dispatchFirst
    split
    · exact h
    · dsimp only
      refine Keeps.ite (ih (Keeps.ite h (State.modLeg_keeps (State.bump_keeps h _ _) _ _)) _) ?_
      split
      · exact ih h _
      · split
        · exact ih h _
        · exact State.modLeg_keeps h _ _

theorem State.dispatchLeg_keeps {z s : State} (h : Keeps z s) : Keeps z s.dispatchLeg := by
  unfold State.dispatchLeg
  refine Keeps.ite ?_ ?_
  · exact h
  · extract_lets d0
    exact State.dispatchFirst_keeps h ..

theorem State.legBlock_keeps {z s : State} (h : Keeps z s) (lpn off n : Nat) : Keeps z (s.legBlock lpn off n).2.2 := by
  unfold State.legBlock
  extract_lets d0 d1 d2
  split
  · exact h
  · split
    · exact h
    · split
      · exact h
      · split
        · dsimp only
          refine Keeps.of_snd (by assumption) ?_
          exact State.checkFail_keeps h ..
        · dsimp only
          refine Keeps.of_snd (by assumption) ?_
          exact State.checkFail_keeps h ..

theorem State.legSpan_keeps {z s : State} (h : Keeps z s) (lpn off n : Nat) : Keeps z (s.legSpan lpn off n).2.2 := by
  unfold State.legSpan
  refine Keeps.foldl_third _ ?_ ?_
  · exact h
  · intro t0 x1 h2
    split
    · exact h2
    · split
      · dsimp only
        refine Keeps.of_third (by assumption) ?_
        exact State.legBlock_keeps h2 ..
      · dsimp only
        refine Keeps.of_third (by assumption) ?_
        exact State.legBlock_keeps h2 ..

theorem State.legFlow_keeps {z s : State} (h : Keeps z s) (l : Leg) (lpn : Nat) (x : Nat × Nat) : Keeps z (s.legFlow l lpn x) := by
  unfold State.legFlow
  extract_lets d0 d1 d2 d3 d4
  exact Keeps.ite h (Keeps.ite (State.addFlow_keeps h ..) (State.addFlow_keeps h ..))

theorem State.legPage_keeps {z s : State} (h : Keeps z s) (j : Job) (l : Leg) : Keeps z (s.legPage j l) := by
  unfold State.legPage
  extract_lets d0 d1 d2 d3 d4 d5
  refine Keeps.ite ?_ ?_
  · exact State.modLeg_keeps h ..
  · split
    · extract_lets d14 d15 d16 d17 d18 d19 d20 d21
      have h22 : Keeps z d15 := State.touchUse_keeps h ..
      clear_value d15
      have h23 : Keeps z d17 := Keeps.ite h22 (State.setUse_keeps h22 ..)
      clear_value d17
      have h24 : Keeps z d18 := Keeps.foldl _ h23 fun t25 x26 h27 => State.legFlow_keeps h27 ..
      clear_value d18
      split
      · with_reducible apply State.modJob_keeps
        with_reducible apply State.modLeg_keeps
        refine Keeps.of_third (by assumption) ?_
        exact State.legSpan_keeps h24 ..
      · with_reducible apply State.modLeg_keeps
        refine Keeps.of_third (by assumption) ?_
        exact State.legSpan_keeps h24 ..
    · exact State.modLeg_keeps h ..
    · exact h

theorem State.legFault_keeps {z s : State} (h : Keeps z s) (l : Leg) (lpn b : Nat) : Keeps z (s.legFault l lpn b) := by
  unfold State.legFault
  split
  · exact h
  · exact State.modLeg_keeps h ..

theorem State.legAgain_keeps {z s : State} (h : Keeps z s) (l : Leg) (lpn b : Nat) : Keeps z (s.legAgain l lpn b) := by
  unfold State.legAgain
  extract_lets d0
  exact Keeps.ite (State.legFault_keeps h ..) (Keeps.ite h (State.blockFlows_keeps h ..))

theorem State.legBad_keeps {z s : State} (h : Keeps z s) (id lpn b : Nat) (dist : Bool) : Keeps z (s.legBad id lpn b dist) := by
  unfold State.legBad
  split
  · exact h
  · extract_lets d0
    refine Keeps.ite ?_ ?_
    · exact State.legAgain_keeps (State.checkEvent_keeps h ..) ..
    · split
      · with_reducible apply State.modJob_keeps
        refine Keeps.of_snd (by assumption) ?_
        exact State.checkFail_keeps h ..
      · with_reducible apply State.legFault_keeps
        refine Keeps.of_snd (by assumption) ?_
        exact State.checkFail_keeps h ..

theorem State.legLost_keeps {z s : State} (h : Keeps z s) (id lpn b : Nat) : Keeps z (s.legLost id lpn b) := by
  unfold State.legLost
  split
  · exact h
  · exact State.legAgain_keeps h ..

theorem State.closeStride_keeps {z s : State} (h : Keeps z s) (j0 : Job) : Keeps z (s.closeStride j0) := by
  unfold State.closeStride
  extract_lets d0 d1 d2 d3 d4 d5
  have h6 : Keeps z d4 := State.modJob_keeps h ..
  clear_value d4
  exact Keeps.ite (State.deliver_keeps h6 ..) (Keeps.ite (State.finish_keeps h6 ..) (Keeps.ite (State.finish_keeps h6 ..)
    (State.deliver_keeps h6 ..)))

theorem State.checkStride_keeps {z s : State} (h : Keeps z s) (j : Job) : Keeps z (s.checkStride j) := by
  unfold State.checkStride
  extract_lets d0 d1 d2 d3
  have h4 : Keeps z d2 := State.modJob_keeps (State.dropLegs_keeps h ..) ..
  clear_value d2
  exact Keeps.ite (State.closeStride_keeps h4 ..) (Keeps.ite (State.finish_keeps h4 ..) h4)

theorem State.legDone_keeps {z s : State} (h : Keeps z s) (j : Job) (l : Leg) : Keeps z (s.legDone j l) := by
  unfold State.legDone
  extract_lets d0 d1 d2 d3
  have h4 : Keeps z d1 := State.modLeg_keeps h ..
  clear_value d1
  have h5 : Keeps z d3 := Keeps.plain h4
  clear_value d3
  exact Keeps.ite h5 (State.sample_keeps h5 ..)

theorem State.legFailed_keeps {z s : State} (h : Keeps z s) (l : Leg) : Keeps z (s.legFailed l) := by
  unfold State.legFailed
  split
  · exact h
  · extract_lets d0 d1
    have h2 : Keeps z d0 := State.modLeg_keeps (State.dropFlows_keeps h ..) ..
    clear_value d0
    exact Keeps.ite (State.dropLegs_keeps h2 ..) (Keeps.ite (State.modJob_keeps (State.dropLegs_keeps h2 ..) ..) (State.modJob_keeps
      (State.bump_keeps h2 ..) ..))

theorem State.fenceStride_keeps {z s : State} (h : Keeps z s) (e' : Nat) : Keeps z (s.fenceStride e') := by
  unfold State.fenceStride
  extract_lets d0 d1
  have h2 : Keeps z d0 := State.modStride_keeps (State.dropInject_keeps h ..) ..
  clear_value d0
  have h3 : Keeps z d1 := State.raise_keeps h2 ..
  clear_value d1
  exact Keeps.foldl _ h3 fun t4 x5 h6 => State.legFailed_keeps h6 ..

theorem State.finishParity_keeps {z s : State} (h : Keeps z s) (j : Job) (head : Nat) : Keeps z (s.finishParity j head) := by
  unfold State.finishParity
  extract_lets d0 d1 d2
  have h4 : Keeps z d2 := Keeps.plain h
  clear_value d2
  exact Keeps.foldl _ h4 fun t5 x6 h7 => State.modLeg_keeps (State.modJob_keeps (State.bump_keeps h7 ..) ..) ..

theorem State.walk_keeps {z s : State} (h : Keeps z s) (j : Job) (fuel addr need : Nat) (es : List Nat) :
    Keeps z (s.walk j fuel addr need es).2 := by
  induction fuel generalizing s addr need es with
  | zero => cases need <;> exact h
  | succ f ih =>
    cases need with
    | zero => exact h
    | succ need =>
      unfold State.walk
      refine Keeps.ite_snd h ?_
      have g := State.fetchJob_keeps h j addr 4096
      split
      · exact Keeps.of_snd ‹_› g
      · exact Keeps.of_snd ‹_› g
      · dsimp only
        exact Keeps.ite_snd (Keeps.of_snd ‹_› g) (ih (Keeps.of_snd ‹_› g) _ _ _)

theorem State.need_keeps {z s : State} (h : Keeps z s) (j : Job) (addr len : Nat) (k : List Byte → State → State) (hk : ∀ a0 a1,
    Keeps z a1 → Keeps z (k a0 a1)) :
    Keeps z (s.need j addr len k) := by
  unfold State.need
  split
  · apply hk
    refine Keeps.of_snd (by assumption) ?_
    exact State.fetchJob_keeps h ..
  · refine Keeps.of_snd (by assumption) ?_
    exact State.fetchJob_keeps h ..
  · with_reducible apply State.finish_keeps
    refine Keeps.of_snd (by assumption) ?_
    exact State.fetchJob_keeps h ..

theorem State.startLegs_keeps {z s : State} (h : Keeps z s) (j : Job) (query record : List Byte) (from_ : Nat) (tokens entries : List
    Nat) :
    Keeps z (s.startLegs j query record from_ tokens entries) := by
  unfold State.startLegs
  extract_lets d0
  exact State.cutLegs_keeps (State.dropJobReads_keeps (State.modJob_keeps h ..) ..) ..

theorem State.prepList_keeps {z s : State} (h : Keeps z s) (j : Job) (record : List Byte) (from_ : Nat) (tokens : List Nat) :
    Keeps z (s.prepList j record from_ tokens) := by
  unfold State.prepList
  with_reducible apply State.need_keeps
  · exact h
  · intro x0 x1 h2
    split
    · with_reducible apply State.startLegs_keeps
      refine Keeps.of_snd (by assumption) ?_
      exact State.walk_keeps h2 ..
    · refine Keeps.of_snd (by assumption) ?_
      exact State.walk_keeps h2 ..
    · with_reducible apply State.finish_keeps
      refine Keeps.of_snd (by assumption) ?_
      exact State.walk_keeps h2 ..
    · with_reducible apply State.finish_keeps
      refine Keeps.of_snd (by assumption) ?_
      exact State.walk_keeps h2 ..

theorem State.prepIndex_keeps {z s : State} (h : Keeps z s) (j : Job) (record : List Byte) (from_ : Nat) :
    Keeps z (s.prepIndex j record from_) := by
  unfold State.prepIndex
  extract_lets d0
  with_reducible apply State.need_keeps
  · exact h
  · intro x1 x2 h3
    exact State.prepList_keeps h3 ..

theorem State.prepResume_keeps {z s : State} (h : Keeps z s) (j : Job) : Keeps z (s.prepResume j) := by
  unfold State.prepResume
  with_reducible apply State.need_keeps
  · exact h
  · intro x0 x1 h2
    exact Keeps.ite (State.prepIndex_keeps h2 ..) (State.finish_keeps h2 ..)

theorem State.prepStride_keeps {z s : State} (h : Keeps z s) (j : Job) : Keeps z (s.prepStride j) := by
  unfold State.prepStride
  exact Keeps.ite (State.finish_keeps h ..) (Keeps.ite (Keeps.ite (State.deliver_keeps h ..) (State.prepList_keeps h ..)) (Keeps.ite
    (State.prepResume_keeps h ..) (State.prepIndex_keeps h ..)))

theorem State.setTail_keeps {z s : State} (h : Keeps z s) (p q value : Nat) : Keeps z (s.setTail p q value) := by
  unfold State.setTail
  extract_lets d0
  exact Keeps.ite (State.modQueue_keeps h ..) (State.modQueue_keeps h ..)

theorem State.ringBells_keeps {z s : State} (h : Keeps z s) (p : Nat) : Keeps z (s.ringBells p) := by
  unfold State.ringBells
  exact Keeps.foldl _ h fun t0 x1 h2 => Keeps.ite h2 (State.modPort_keeps (State.setTail_keeps h2 ..) ..)

theorem State.doorbell_keeps {z s : State} (h : Keeps z s) (p : Nat) (l : LinkId) (q value : Nat) :
    Keeps z (s.doorbell p l q value) := by
  unfold State.doorbell
  exact Keeps.ite (State.modPort_keeps h ..) (State.setTail_keeps h ..)

theorem State.readRing_keeps {z s : State} (h : Keeps z s) (p q : Nat) : Keeps z (s.readRing p q) := by
  unfold State.readRing
  extract_lets d0 d1
  exact Keeps.ite (State.fetchHost_keeps h ..) h

theorem State.newJob_keeps {z s : State} (h : Keeps z s) (p q : Nat) (desc : List Byte) : Keeps z (s.newJob p q desc) := by
  unfold State.newJob
  extract_lets d0 d1 d2 d3 d4 d5
  have h6 : Keeps z d3 := State.modQueue_keeps (State.newId_keeps h ..) ..
  clear_value d3
  have h7 : Keeps z d5 := Keeps.plain h6
  clear_value d5
  exact Keeps.ite (State.finish_keeps h7 ..) (Keeps.ite (State.finish_keeps h7 ..) h7)

theorem State.takeRing_keeps {z s : State} (h : Keeps z s) (p q : Nat) : Keeps z (s.takeRing p q) := by
  unfold State.takeRing
  extract_lets d0
  split
  · exact h
  · split
    · exact Keeps.ite (State.newJob_keeps (State.dropReads_keeps h ..) ..) h
    · exact State.dropReads_keeps h ..
    · exact h

theorem State.startItems_keeps {z s : State} (h : Keeps z s) (j : Job) (kind : ItemKind) (wants : Page → Bool) :
    Keeps z (s.startItems j kind wants) := by
  unfold State.startItems
  extract_lets d0 d1 d2
  have h3 : Keeps z d2 := State.modJob_keeps h ..
  clear_value d2
  exact Keeps.foldl _ h3 fun t4 x5 h6 => Keeps.ite h6 (State.addItem_keeps h6 ..)

theorem State.copyStops_keeps {z s : State} (h : Keeps z s) (j : Job) (reason : Nat) (outs : List (Nat × List Byte)) :
    Keeps z (s.copyStops j reason outs) := by
  unfold State.copyStops
  extract_lets d0
  exact State.deliver_keeps (State.modJob_keeps h ..) ..

theorem State.queueCopy_keeps {z s : State} (h : Keeps z s) (j : Job) (lpn : Nat) : Keeps z (s.queueCopy j lpn) := by
  unfold State.queueCopy
  exact State.addCopyItem_keeps (State.modJob_keeps h ..) ..

theorem State.copyPage_keeps {z s : State} (h : Keeps z s) (j : Job) (write : Bool) (data : List Byte) :
    Keeps z (s.copyPage j write data) := by
  unfold State.copyPage
  extract_lets d0
  have h1 : Keeps z d0 := Keeps.foldl _ h fun t2 x3 h4 => State.hostReq_keeps h4 ..
  clear_value d0
  exact State.modJob_keeps h1 ..

theorem State.copyInNext_keeps {z s : State} (h : Keeps z s) (j : Job) : Keeps z (s.copyInNext j) := by
  unfold State.copyInNext
  refine Keeps.ite ?_ ?_
  · exact State.finish_keeps h ..
  · split
    · exact State.copyStops_keeps h ..
    · exact h
    · with_reducible apply State.need_keeps
      · exact h
      · intro x0 x1 h2
        exact State.queueCopy_keeps h2 ..

theorem State.copyInPage_keeps {z s : State} (h : Keeps z s) (j : Job) : Keeps z (s.copyInPage j) := by
  unfold State.copyInPage
  with_reducible apply State.need_keeps
  · exact h
  · intro x0 x1 h2
    exact State.copyPage_keeps (State.dropJobReads_keeps h2 ..) ..

theorem State.copyOutNext_keeps {z s : State} (h : Keeps z s) (j : Job) : Keeps z (s.copyOutNext j) := by
  unfold State.copyOutNext
  refine Keeps.ite ?_ ?_
  · exact State.deliver_keeps h ..
  · extract_lets d0
    split
    · exact State.copyStops_keeps h ..
    · exact Keeps.ite (State.copyStops_keeps h ..) (State.queueCopy_keeps h ..)
    · exact h

theorem State.copyStep_keeps {z s : State} (h : Keeps z s) (j : Job) : Keeps z (s.copyStep j) := by
  unfold State.copyStep
  refine Keeps.ite ?_ ?_
  · exact h
  · refine Keeps.ite ?_ ?_
    · exact State.copyStops_keeps h ..
    · extract_lets d0 d1
      have h2 : Keeps z d1 := State.modJob_keeps (State.dropCopyItems_keeps h ..) ..
      clear_value d1
      exact Keeps.ite (State.copyInNext_keeps h2 ..) (State.copyOutNext_keeps h2 ..)

theorem State.discardImage_keeps {z s : State} (h : Keeps z s) (j : Job) (lpn : Nat) : Keeps z (s.discardImage j lpn) := by
  unfold State.discardImage
  extract_lets d0 d1 d2
  have h3 : Keeps z d0 := State.modPort_keeps (State.bump_keeps h ..) ..
  clear_value d0
  have h4 : Keeps z d2 := Keeps.ite h3 (State.raiseWith_keeps (Keeps.plain h3) ..)
  clear_value d2
  exact State.finish_keeps h4 ..

theorem State.copyInImage_keeps {z s : State} (h : Keeps z s) (j : Job) : Keeps z (s.copyInImage j) := by
  unfold State.copyInImage
  with_reducible apply State.need_keeps
  · exact h
  · intro x0 x1 h2
    split
    · exact State.copyStops_keeps h2 ..
    · exact h2
    · exact Keeps.ite (State.discardImage_keeps h2 ..) (State.queueCopy_keeps h2 ..)

theorem State.loadImage_keeps {z s : State} (h : Keeps z s) (j : Job) (it : Item) (img : List Byte) :
    Keeps z (s.loadImage j it img) := by
  unfold State.loadImage
  extract_lets d0 d1 d2 d3 d4
  refine Keeps.ite ?_ ?_
  · exact State.finish_keeps h ..
  · refine Keeps.ite ?_ ?_
    · exact h
    · split
      · exact h
      · extract_lets d7 d8
        have h9 : Keeps z d8 := State.swapPage_keeps (State.writeSlot_keeps (State.takeSlot_keeps h ..) ..) ..
        clear_value d8
        exact State.blockFlows_keeps (State.modJob_keeps h9 ..) ..

theorem State.imageBlock_keeps {z s : State} (h : Keeps z s) (lpn b : Nat) : Keeps z (s.imageBlock lpn b).2.2 := by
  unfold State.imageBlock
  extract_lets d0 d1 d2
  split
  · exact h
  · split
    · dsimp only
      refine Keeps.of_snd (by assumption) ?_
      exact State.checkFail_keeps h ..
    · dsimp only
      refine Keeps.of_snd (by assumption) ?_
      exact State.checkFail_keeps h ..

theorem State.imageBlocks_keeps {z s : State} (h : Keeps z s) (lpn : Nat) : Keeps z (s.imageBlocks lpn).2.2 := by
  unfold State.imageBlocks
  refine Keeps.foldl_third _ h ?_
  rintro ⟨a, b, t⟩ x ht
  cases a with
  | none => exact ht
  | some bs =>
    have g := State.imageBlock_keeps ht lpn x
    dsimp only
    split
    · exact Keeps.of_third ‹_› g
    · exact Keeps.of_third ‹_› g

theorem State.copyOutImage_keeps {z s : State} (h : Keeps z s) (j : Job) : Keeps z (s.copyOutImage j) := by
  unfold State.copyOutImage
  split
  · exact State.copyStops_keeps h ..
  · exact h
  · unfold State.imageBar
    extract_lets d0
    exact Keeps.ite (State.copyStops_keeps h ..) (Keeps.ite (State.copyStops_keeps h ..) (Keeps.ite (State.finish_keeps h ..)
      (State.queueCopy_keeps h ..)))

theorem State.imageBar_keeps {z s k : State} (h : Keeps z s) (g : Keeps z k) (j : Job) (lpn : Nat) : Keeps z (s.imageBar j lpn k) :=
  Keeps.ite (State.copyStops_keeps h ..) (Keeps.ite (State.copyStops_keeps h ..) (Keeps.ite (State.finish_keeps h ..) g))

theorem State.emitImage_keeps {z s : State} (h : Keeps z s) (j : Job) (lpn : Nat) : Keeps z (s.emitImage j lpn) := by
  have g := State.imageBlocks_keeps h lpn
  refine State.imageBar_keeps h ?_ j lpn
  split
  · rename_i s1 e
    rw [e] at g
    exact State.copyStops_keeps g ..
  · rename_i bs rep s1 e
    rw [e] at g
    exact State.deliver_keeps (State.modJob_keeps g ..) ..

theorem State.advanceCopy_keeps {z s : State} (h : Keeps z s) (j : Job) : Keeps z (s.advanceCopy j) := by
  unfold State.advanceCopy
  split
  · exact h
  · refine Keeps.ite ?_ ?_
    · exact h
    · split
      · exact State.copyInPage_keeps h ..
      · with_reducible apply State.need_keeps
        · exact h
        · intro x0 x1 h2
          exact State.loadImage_keeps h2 ..
      · exact State.copyPage_keeps h ..
      · exact Keeps.ite h (State.emitImage_keeps h ..)

theorem State.copyRuns_keeps {z s : State} (h : Keeps z s) (j : Job) : Keeps z (s.copyRuns j) := by
  unfold State.copyRuns
  refine Keeps.ite ?_ ?_
  · exact State.copyStep_keeps h ..
  · split
    · exact Keeps.ite h (State.finish_keeps h ..)
    · exact State.finish_keeps h ..

theorem State.setFrozen_keeps {z s : State} (h : Keeps z s) (p : Nat) (slots : List Nat) (v : Bool) :
    Keeps z (s.setFrozen p slots v) := by
  unfold State.setFrozen
  exact Keeps.foldl _ h fun t0 x1 h2 => State.swapWin_keeps h2 ..

theorem State.catchPme_keeps {z s : State} (h : Keeps z s) (j : Job) : Keeps z (s.catchPme j) := by
  unfold State.catchPme
  extract_lets d0
  exact Keeps.ite (State.emit_keeps (State.modLink_keeps h ..) ..) h

theorem State.endPass_keeps {z s : State} (h : Keeps z s) (j : Job) (status result : Nat) : Keeps z (s.endPass j status result) := by
  unfold State.endPass
  exact State.catchPme_keeps (State.finish_keeps h ..) ..

theorem State.matchPass_keeps {z s : State} (h : Keeps z s) (b c : Job) : Keeps z (s.matchPass b c) := by
  unfold State.matchPass
  extract_lets d0 d1 d2 d3
  have h4 : Keeps z d2 := State.setFrozen_keeps h ..
  clear_value d2
  exact Keeps.ite (Keeps.plain h4) (State.endPass_keeps (State.endPass_keeps h ..) ..)

theorem State.offerPass_keeps {z s : State} (h : Keeps z s) (j : Job) (slots : List Nat) : Keeps z (s.offerPass j slots) := by
  unfold State.offerPass
  refine Keeps.ite ?_ ?_
  · exact State.endPass_keeps h ..
  · refine Keeps.ite ?_ ?_
    · exact State.endPass_keeps h ..
    · extract_lets d0 d1
      have h2 : Keeps z d1 := State.dropJobReads_keeps (State.modJob_keeps h ..) ..
      clear_value d1
      split
      · exact h2
      · exact Keeps.ite (State.matchPass_keeps h2 ..) (State.matchPass_keeps h2 ..)

theorem State.startPass_keeps {z s : State} (h : Keeps z s) (j : Job) : Keeps z (s.startPass j) := by
  unfold State.startPass
  with_reducible apply State.need_keeps
  · exact h
  · intro x0 x1 h2
    exact State.offerPass_keeps h2 ..

theorem State.ownExtent_keeps {z s : State} (h : Keeps z s) (h' p : Nat) : Keeps z (s.ownExtent h' p) := by
  unfold State.ownExtent
  exact Keeps.foldl _ h fun t0 x1 h2 => State.swapIf_keeps h2 ..

theorem State.passSlot_keeps {z s : State} (h : Keeps z s) (x : Pass) (a b : Nat) : Keeps z (s.passSlot x a b) := by
  unfold State.passSlot
  extract_lets d0 d1 d2
  have h3 : Keeps z d2 := State.swapWin_keeps h ..
  clear_value d2
  exact State.ownExtent_keeps (State.swapWin_keeps h3 ..) ..

theorem State.swapPass_keeps {z s : State} (h : Keeps z s) (x : Pass) : Keeps z (s.swapPass x) := by
  unfold State.swapPass
  extract_lets d0 d1 d2
  have h3 : Keeps z d0 := Keeps.foldl _ h fun t4 x5 h6 => State.passSlot_keeps h6 ..
  clear_value d0
  have h7 : Keeps z d2 := Keeps.plain h3
  clear_value d2
  split
  · exact State.endPass_keeps (State.endPass_keeps h7 ..) ..
  · exact h7

theorem State.dropPass_keeps {z s : State} (h : Keeps z s) (x : Pass) (lost : Nat) : Keeps z (s.dropPass x lost) := by
  unfold State.dropPass
  extract_lets d0 d1 d2
  have h3 : Keeps z d0 := State.setFrozen_keeps h ..
  clear_value d0
  have h4 : Keeps z d2 := Keeps.plain h3
  clear_value d2
  split
  · exact State.endPass_keeps h4 ..
  · exact h4

theorem State.losePasses_keeps {z s : State} (h : Keeps z s) (p : Nat) : Keeps z (s.losePasses p) := by
  unfold State.losePasses
  extract_lets d0
  have h1 : Keeps z d0 := Keeps.foldl _ h fun t2 x3 h4 => State.dropPass_keeps h4 ..
  clear_value d0
  exact Keeps.foldl _ h1 fun t5 x6 h7 => State.dropJob_keeps h7 ..

theorem State.startBuild_keeps {z s : State} (h : Keeps z s) (j : Job) : Keeps z (s.startBuild j) := by
  unfold State.startBuild
  split
  · extract_lets d0
    exact State.finish_keeps (State.modJob_keeps h ..) ..
  · exact h
  · extract_lets d1
    exact Keeps.ite (State.finish_keeps h ..) (State.requestBuild_keeps (State.modJob_keeps h ..) ..)

theorem State.buildJobs_keeps {z s : State} (h : Keeps z s) (n slot : Nat) : Keeps z (s.buildJobs n slot) := by
  unfold State.buildJobs
  exact Keeps.foldl _ h fun t0 x1 h2 => State.finish_keeps h2 ..

theorem State.advanceReading_keeps {z s : State} (h : Keeps z s) (j : Job) : Keeps z (s.advanceReading j) := by
  unfold State.advanceReading
  split
  · exact State.prepStride_keeps h ..
  · exact State.prepStride_keeps h ..
  · exact State.startItems_keeps h ..
  · exact State.startItems_keeps h ..
  · exact Keeps.ite (State.copyInNext_keeps h ..) (State.copyInImage_keeps h ..)
  · exact Keeps.ite (State.copyOutNext_keeps h ..) (State.copyOutImage_keeps h ..)
  · exact State.startPass_keeps h ..
  · exact State.startPass_keeps h ..
  · exact State.startBuild_keeps h ..
  · exact State.modJob_keeps h ..

theorem State.advanceRunning_keeps {z s : State} (h : Keeps z s) (j : Job) : Keeps z (s.advanceRunning j) := by
  unfold State.advanceRunning
  split
  · exact State.checkStride_keeps h ..
  · exact State.checkStride_keeps h ..
  · exact Keeps.ite (State.finish_keeps h ..) h
  · exact Keeps.ite (State.finish_keeps h ..) h
  · exact State.copyRuns_keeps h ..
  · exact State.copyStep_keeps h ..
  · exact h

theorem State.advanceJob_keeps {z s : State} (h : Keeps z s) (id : Nat) : Keeps z (s.advanceJob id) := by
  unfold State.advanceJob
  split
  · exact h
  · refine Keeps.ite ?_ ?_
    · exact h
    · refine Keeps.ite ?_ ?_
      · exact State.checkCompletion_keeps h ..
      · split
        · exact h
        · exact State.advanceReading_keeps h ..
        · exact State.advanceCopy_keeps h ..
        · exact State.advanceRunning_keeps h ..
        · exact Keeps.ite (State.finish_keeps h ..) h
        · exact State.writeOut_keeps h ..

theorem State.advanceJobs_keeps {z s : State} (h : Keeps z s) : Keeps z s.advanceJobs := by
  unfold State.advanceJobs
  exact Keeps.foldl _ h fun t0 x1 h2 => State.advanceJob_keeps (State.advanceJob_keeps (State.advanceJob_keeps h2 ..) ..) ..

theorem State.takeRings_keeps {z s : State} (h : Keeps z s) (p : Nat) : Keeps z (s.takeRings p) := by
  unfold State.takeRings
  exact Keeps.foldl _ h fun t0 x1 h2 => State.takeRing_keeps h2 ..

theorem State.widenUrgent_keeps {z s : State} (h : Keeps z s) (p : Nat) : Keeps z (s.widenUrgent p) := by
  unfold State.widenUrgent
  exact Keeps.ite (State.modLink_keeps h ..) h

theorem State.round_keeps {z s : State} (h : Keeps z s) : Keeps z s.round := by
  unfold State.round
  extract_lets d0 d1
  have h2 : Keeps z d0 := State.settle_keeps h ..
  clear_value d0
  have h3 : Keeps z d1 := Keeps.foldl _ h2 fun t4 x5 h6 => State.takeRings_keeps (State.pumpDma_keeps (State.pumpDma_keeps
    (State.ringBells_keeps (State.widenUrgent_keeps h6 ..) ..) ..) ..) ..
  clear_value d1
  exact State.advanceJobs_keeps h3 ..

theorem State.rounds_keeps {z s : State} (h : Keeps z s) (n : Nat) : Keeps z (State.rounds n s) := by
  induction n generalizing s with
  | zero => exact State.settle_keeps h
  | succ n ih => exact ih (State.round_keeps h)

theorem State.proceed_keeps {z s : State} (h : Keeps z s) : Keeps z s.proceed := by
  unfold State.proceed
  exact State.rounds_keeps h ..

theorem State.startJob_keeps {z s : State} (h : Keeps z s) (id : Nat) (fits : Job → Bool) : Keeps z (s.startJob id fits) := by
  unfold State.startJob
  split
  · exact h
  · exact Keeps.ite (State.proceed_keeps (State.modJob_keeps h ..) ..) h

theorem State.abortJobs_keeps {z s : State} (h : Keeps z s) (js : List Job) : Keeps z (s.abortJobs js) := by
  unfold State.abortJobs
  exact Keeps.foldl _ h fun t0 x1 h2 => State.modJob_keeps (State.dropJobWork_keeps h2 ..) ..

end Sys2Proof.Machine
end

