-- ==== Sys2Proof/Laws/KeepsPorts.lean ====
section
/-! SUPPORT. Keeps for configuration space, ports, FALSE_START and tiers: one lemma per operation. -/

set_option Elab.async false

namespace Sys2Proof.Machine

theorem State.setCfg_keeps {z s : State} (h : Keeps z s) (p : Nat) (l : LinkId) (off v : Nat) : Keeps z (s.setCfg p l off v) := by
  unfold State.setCfg
  split
  · exact State.modLink_keeps h ..
  · exact h

theorem State.disableQueues_keeps {z s : State} (h : Keeps z s) (p : Nat) (l : LinkId) : Keeps z (s.disableQueues p l) := by
  unfold State.disableQueues
  exact Keeps.foldl _ h fun t0 x1 h2 => State.modQueue_keeps h2 ..

theorem State.dropLinkReqs_keeps {z s : State} (h : Keeps z s) (p : Nat) (l : LinkId) : Keeps z (s.dropLinkReqs p l) := by
  unfold State.dropLinkReqs
  extract_lets d0 d1 d2
  exact Keeps.plain h

theorem State.thaw_keeps {z s : State} (h : Keeps z s) (p : Nat) : Keeps z (s.thaw p) := by
  unfold State.thaw
  exact State.modPort_keeps h ..

theorem State.dropInfield_keeps {z s : State} (h : Keeps z s) (p : Nat) (l : LinkId) : Keeps z (s.dropInfield p l) := by
  unfold State.dropInfield
  extract_lets d0 d1
  exact Keeps.plain h

theorem State.resetLink_keeps {z s : State} (h : Keeps z s) (p : Nat) (l : LinkId) (full : Bool) :
    Keeps z (s.resetLink p l full) := by
  unfold State.resetLink
  extract_lets d0 d1 d2 d3 d4
  have h5 : Keeps z d0 := State.losePasses_keeps h ..
  clear_value d0
  have h6 : Keeps z d1 := Keeps.foldl _ h5 fun t7 x8 h9 => State.dropJob_keeps h9 ..
  clear_value d1
  have h10 : Keeps z d2 := Keeps.foldl _ (State.dropLinkReqs_keeps h6 ..) fun t11 x12 h13 => State.modQueue_keeps h13 ..
  clear_value d2
  have h14 : Keeps z d3 := State.modPort_keeps h10 ..
  clear_value d3
  have h15 : Keeps z d4 := State.modLink_keeps h14 ..
  clear_value d4
  exact State.dropInfield_keeps (State.thaw_keeps h15 ..) ..

theorem State.resetPort_keeps {z s : State} (h : Keeps z s) (p : Nat) (full : Bool) : Keeps z (s.resetPort p full) := by
  unfold State.resetPort
  exact State.resetLink_keeps (State.resetLink_keeps h ..) ..

theorem State.trainPort_keeps {z s : State} (h : Keeps z s) (p : Nat) : Keeps z (s.trainPort p) := by
  unfold State.trainPort
  extract_lets d0 d1
  have h4 : Keeps z d1 := State.modPort_keeps h ..
  clear_value d1
  exact State.emit_keeps h4 ..

theorem State.upLink_keeps {z s : State} (h : Keeps z s) (p : Nat) (l : LinkId) (hostSpeed hostWidth : Nat) (partnerFlit ask68 :
    Bool) :
    Keeps z (s.upLink p l hostSpeed hostWidth partnerFlit ask68) := by
  unfold State.upLink
  extract_lets d0 d1 d2 d3
  exact Keeps.ite (State.raisePort_keeps (State.modLink_keeps h ..) ..) h

theorem State.freeze_keeps {z s : State} (h : Keeps z s) (p cause : Nat) : Keeps z (s.freeze p cause) := by
  unfold State.freeze
  refine Keeps.ite ?_ ?_
  · exact h
  · extract_lets d0
    have h1 : Keeps z d0 := State.modPort_keeps h ..
    clear_value d0
    exact State.losePasses_keeps (State.raisePort_keeps (State.bump_keeps h1 ..) ..) ..

theorem State.releasePort_keeps {z s : State} (h : Keeps z s) (p : Nat) : Keeps z (s.releasePort p) := by
  unfold State.releasePort
  extract_lets d0 d1 d2
  have h3 : Keeps z d0 := State.modLink_keeps (State.modLink_keeps h ..) ..
  clear_value d0
  have h4 : Keeps z d1 := State.abortJobs_keeps h3 ..
  clear_value d1
  have h5 : Keeps z d2 := State.disableQueues_keeps (State.disableQueues_keeps h4 ..) ..
  clear_value d2
  exact State.raisePort_keeps (State.thaw_keeps h5 ..) ..

theorem State.askRelease_keeps {z s : State} (h : Keeps z s) (p : Nat) : Keeps z (s.askRelease p) := by
  unfold State.askRelease
  exact Keeps.ite h (Keeps.ite (State.releasePort_keeps h ..) (State.modPort_keeps h ..))

theorem State.drainPort_keeps {z s : State} (h : Keeps z s) (p : Nat) : Keeps z (s.drainPort p) := by
  unfold State.drainPort
  refine Keeps.ite ?_ ?_
  · extract_lets d0
    have h1 : Keeps z d0 := State.modPort_keeps h ..
    clear_value d0
    exact Keeps.ite (State.releasePort_keeps h1 ..) h1
  · exact h

theorem State.lossOf_keeps {z s : State} (h : Keeps z s) (p : Nat) (l : LinkId) : Keeps z (s.lossOf p l) := by
  unfold State.lossOf
  extract_lets d0 d1
  have h2 : Keeps z d1 := State.raisePort_keeps (State.bump_keeps (State.modLink_keeps h ..) ..) ..
  clear_value d1
  exact Keeps.ite h (Keeps.ite h2 (State.freeze_keeps h2 ..))

theorem State.perst_keeps {z s : State} (h : Keeps z s) (p : Nat) : Keeps z (s.perst p) := by
  unfold State.perst
  extract_lets d0 d1 d2 d3
  exact State.modPort_keeps (State.resetPort_keeps h ..) ..

theorem State.assertPerst_keeps {z s : State} (h : Keeps z s) (p : Nat) : Keeps z (s.assertPerst p) := by
  unfold State.assertPerst
  extract_lets d0
  have h1 : Keeps z d0 := State.perst_keeps h ..
  clear_value d0
  exact Keeps.ite (State.emit_keeps h1 ..) h1

theorem State.releasePerst_keeps {z s : State} (h : Keeps z s) (p : Nat) : Keeps z (s.releasePerst p) := by
  unfold State.releasePerst
  extract_lets d0 d1
  have h4 : Keeps z d0 := State.modPort_keeps h ..
  clear_value d0
  have h5 : Keeps z d1 := Keeps.ite (State.emit_keeps h4 ..) h4
  clear_value d1
  exact Keeps.ite (State.trainPort_keeps h5 ..) h5

theorem State.assertWake_keeps {z s : State} (h : Keeps z s) (p : Nat) : Keeps z (s.assertWake p) := by
  unfold State.assertWake
  exact Keeps.ite h (State.emit_keeps (State.modPort_keeps h ..) ..)

theorem State.wakeLinkPme_keeps {z s : State} (h : Keeps z s) (p : Nat) (l : LinkId) : Keeps z (s.wakeLinkPme p l) := by
  unfold State.wakeLinkPme
  extract_lets d0 d1
  have h2 : Keeps z d1 := State.modLink_keeps h ..
  clear_value d1
  exact Keeps.ite h (Keeps.ite (State.emit_keeps h2 ..) (Keeps.ite (State.assertWake_keeps h2 ..) h))

theorem State.wakeAll_keeps {z s : State} (h : Keeps z s) : Keeps z s.wakeAll := by
  unfold State.wakeAll
  exact Keeps.foldl _ h fun t0 x1 h2 => State.wakeLinkPme_keeps (State.wakeLinkPme_keeps h2 ..) ..

theorem State.unmask_keeps {z s : State} (h : Keeps z s) (p : Nat) (l : LinkId) (vec : Nat) : Keeps z (s.unmask p l vec) := by
  unfold State.unmask
  extract_lets d0 d1 d2 d3
  have h4 : Keeps z d3 := State.modLink_keeps h ..
  clear_value d3
  exact Keeps.ite (State.emit_keeps h4 ..) h4

theorem State.unmaskAll_keeps {z s : State} (h : Keeps z s) (p : Nat) (l : LinkId) : Keeps z (s.unmaskAll p l) := by
  unfold State.unmaskAll
  exact Keeps.foldl _ h fun t0 x1 h2 => Keeps.ite h2 (State.unmask_keeps h2 ..)

theorem State.setAts_keeps {z s : State} (h : Keeps z s) (p : Nat) (l : LinkId) (en : Bool) : Keeps z (s.setAts p l en) := by
  unfold State.setAts
  exact State.unready_keeps (State.modLink_keeps h ..) ..

theorem State.setMsixCtl_keeps {z s : State} (h : Keeps z s) (p : Nat) (l : LinkId) (en mask : Bool) :
    Keeps z (s.setMsixCtl p l en mask) := by
  unfold State.setMsixCtl
  extract_lets d0
  have h1 : Keeps z d0 := State.modLink_keeps h ..
  clear_value d0
  exact Keeps.ite (State.unmaskAll_keeps h1 ..) h1

theorem State.toD0_keeps {z s : State} (h : Keeps z s) (p : Nat) (l : LinkId) : Keeps z (s.toD0 p l) := by
  unfold State.toD0
  refine Keeps.ite ?_ ?_
  · exact h
  · extract_lets d0 d1
    have h2 : Keeps z d0 := State.modLink_keeps h ..
    clear_value d0
    have h3 : Keeps z d1 := State.disableQueues_keeps (State.abortJobs_keeps h2 ..) ..
    clear_value d1
    exact Keeps.ite (State.unmaskAll_keeps h3 ..) h3

theorem State.toD3hot_keeps {z s : State} (h : Keeps z s) (p : Nat) (l : LinkId) : Keeps z (s.toD3hot p l) := by
  unfold State.toD3hot
  exact Keeps.ite (State.modLink_keeps h ..) h

theorem State.setPower_keeps {z s : State} (h : Keeps z s) (p : Nat) (l : LinkId) (v : Nat) : Keeps z (s.setPower p l v) := by
  unfold State.setPower
  exact Keeps.ite (State.toD0_keeps h ..) (Keeps.ite (State.toD3hot_keeps h ..) h)

theorem State.configWrite_keeps {z s : State} (h : Keeps z s) (p : Nat) (l : LinkId) (off v : Nat) :
    Keeps z (s.configWrite p l off v) := by
  unfold State.configWrite
  extract_lets d0
  split
  · exact State.modLink_keeps h ..
  · exact State.modLink_keeps h ..
  · exact State.modLink_keeps h ..
  · exact Keeps.ite (State.modLink_keeps h ..) h
  · exact Keeps.ite (State.modLink_keeps h ..) h
  · exact State.setPower_keeps (State.modLink_keeps h ..) ..
  · exact Keeps.ite (State.resetLink_keeps h ..) (State.setCfg_keeps h ..)
  · exact State.setCfg_keeps (State.modLink_keeps h ..) ..
  · exact State.setMsixCtl_keeps h ..
  · exact State.setCfg_keeps (State.setAts_keeps h ..) ..
  · exact Keeps.ite (State.askRelease_keeps h ..) h
  · exact State.setCfg_keeps h ..

theorem State.setEnable_keeps {z s : State} (h : Keeps z s) (p q : Nat) (en : Bool) : Keeps z (s.setEnable p q en) := by
  unfold State.setEnable
  extract_lets d0
  have h1 : Keeps z d0 := Keeps.ite h (State.dropReads_keeps h ..)
  clear_value d0
  exact State.modQueue_keeps h1 ..

theorem State.setQueueWord_keeps {z s : State} (h : Keeps z s) (p q : Nat) (off v : Nat) : Keeps z (s.setQueueWord p q off v) := by
  unfold State.setQueueWord
  extract_lets d0
  split
  · exact Keeps.ite h (State.modQueue_keeps h ..)
  · exact Keeps.ite h (State.modQueue_keeps h ..)
  · exact Keeps.ite h (State.modQueue_keeps h ..)
  · exact State.setEnable_keeps (State.modQueue_keeps h ..) ..
  · exact Keeps.ite h (State.modQueue_keeps h ..)
  · exact Keeps.ite h (State.modQueue_keeps h ..)
  · exact State.modQueue_keeps h ..
  · exact h

theorem State.setBar0Word_keeps {z s : State} (h : Keeps z s) (p : Nat) (l : LinkId) (off v : Nat) :
    Keeps z (s.setBar0Word p l off v) := by
  unfold State.setBar0Word
  refine Keeps.ite ?_ ?_
  · extract_lets d0 d1
    split
    · dsimp only [d1]
      exact State.modLink_keeps h ..
    · dsimp only [d1]
      exact State.modLink_keeps h ..
    · dsimp only [d1]
      exact State.modLink_keeps h ..
    · refine Keeps.ite ?_ ?_
      · dsimp only [d1]
        exact State.modLink_keeps h ..
      · exact State.unmask_keeps h ..
  · refine Keeps.ite ?_ ?_
    · extract_lets d2
      exact Keeps.ite (State.setQueueWord_keeps h ..) h
    · refine Keeps.ite ?_ ?_
      · extract_lets d3
        exact Keeps.ite (State.doorbell_keeps h ..) h
      · exact h

theorem State.bar0Write_keeps {z s : State} (h : Keeps z s) (p : Nat) (l : LinkId) (off width v : Nat) :
    Keeps z (s.bar0Write p l off width v) := by
  unfold State.bar0Write
  exact Keeps.ite h (Keeps.ite (State.setBar0Word_keeps h ..) (State.setBar0Word_keeps (State.setBar0Word_keeps h ..) ..))

theorem State.bar0Access_keeps {z s : State} (h : Keeps z s) (p : Nat) (l : LinkId) (write : Bool) (tag off : Nat) (width v : Nat) :
    Keeps z (s.bar0Access p l write tag off width v) := by
  unfold State.bar0Access
  refine Keeps.ite ?_ ?_
  · exact h
  · extract_lets d0
    have h1 : Keeps z d0 := State.wakeLink_keeps h ..
    clear_value d0
    exact Keeps.ite (Keeps.ite h1 (State.emit_keeps h1 ..)) (Keeps.ite (Keeps.ite h1 (State.emit_keeps h1 ..)) (Keeps.ite
      (State.bar0Write_keeps h1 ..) (State.emit_keeps h1 ..)))

theorem State.hdmCommit_keeps {z s : State} (h : Keeps z s) (p : Nat) (l : LinkId) (d base : Nat) (size ways : Nat) (gran skip pos :
    Nat) (commit : Bool) :
    Keeps z (s.hdmCommit p l d base size ways gran skip pos commit) := by
  unfold State.hdmCommit
  extract_lets d0 d1
  refine Keeps.ite ?_ ?_
  · exact h
  · refine Keeps.ite ?_ ?_
    · dsimp only [d0]
      exact State.modLink_keeps h ..
    · split
      · dsimp only [d0]
        exact State.modLink_keeps h ..
      · refine Keeps.ite ?_ ?_
        · dsimp only [d0]
          exact State.modLink_keeps h ..
        · dsimp only [d0]
          exact State.modLink_keeps h ..

theorem State.givePoison_keeps {z s : State} (h : Keeps z s) (p : Nat) (l : LinkId) : Keeps z (s.givePoison p l) := by
  unfold State.givePoison
  extract_lets d0
  exact State.modLink_keeps (State.mailboxDone_keeps h ..) ..

theorem State.clearPoison_keeps {z s : State} (h : Keeps z s) (p : Nat) (l : LinkId) (dpa : Nat) :
    Keeps z (s.clearPoison p l dpa) := by
  unfold State.clearPoison
  extract_lets d0 d1 d2 d3
  exact Keeps.ite (State.mailboxDone_keeps h ..) (Keeps.plain h)

theorem State.serveClear_keeps {z s : State} (h : Keeps z s) (c : ClearWait) : Keeps z (s.serveClear c) := by
  unfold State.serveClear
  exact Keeps.ite (State.mailboxDone_keeps (State.vaultRelease_keeps (State.clearPage_keeps (Keeps.plain h) ..) ..) ..) h

theorem State.serveClears_keeps {z s : State} (h : Keeps z s) : Keeps z s.serveClears := by
  unfold State.serveClears
  exact Keeps.foldl _ h fun t0 x1 h2 => State.serveClear_keeps h2 ..

theorem State.onward_keeps {z s : State} (h : Keeps z s) : Keeps z s.onward := by
  unfold State.onward
  exact State.proceed_keeps (State.serveClears_keeps h ..) ..

theorem State.leaveGo_keeps {z s : State} (h : Keeps z s) : Keeps z s.leaveGo := by
  unfold State.leaveGo
  exact Keeps.ite (Keeps.plain h) h

theorem State.setReady_keeps {z s : State} (h : Keeps z s) (v : Bool) : Keeps z (s.setReady v) := by
  unfold State.setReady
  exact Keeps.ite h (State.emit_keeps (Keeps.plain h) ..)

theorem State.setField_keeps {z s : State} (h : Keeps z s) (v : Bool) : Keeps z (s.setField v) := by
  unfold State.setField
  extract_lets d0 d1 d2
  have h4 : Keeps z d0 := Keeps.ite h (State.emit_keeps h ..)
  clear_value d0
  exact Keeps.ite (Keeps.plain h4) (Keeps.plain h4)

theorem State.closePorts_keeps {z s : State} (h : Keeps z s) : Keeps z s.closePorts := by
  unfold State.closePorts
  extract_lets d0 d1
  have h4 : Keeps z d1 := Keeps.plain h
  clear_value d1
  exact Keeps.foldl _ h4 fun t5 x6 h7 => Keeps.ite (State.emit_keeps (State.modPort_keeps h7 ..) ..) h7

theorem State.releaseWakes_keeps {z s : State} (h : Keeps z s) : Keeps z s.releaseWakes := by
  unfold State.releaseWakes
  exact Keeps.foldl _ h fun t0 x1 h2 => Keeps.ite (State.emit_keeps (State.modPort_keeps h2 ..) ..) h2

theorem State.endPasses_keeps {z s : State} (h : Keeps z s) : Keeps z s.endPasses := by
  unfold State.endPasses
  extract_lets d0 d1
  have h2 : Keeps z d0 := Keeps.foldl _ h fun t3 x4 h5 => State.setFrozen_keeps h5 ..
  clear_value d0
  exact Keeps.plain h2

theorem State.dropWork_keeps {z s : State} (h : Keeps z s) : Keeps z s.dropWork := by
  unfold State.dropWork
  extract_lets d0 d1 d2 d3 d4 d5 d6
  have h7 : Keeps z d0 := State.endPasses_keeps h ..
  clear_value d0
  exact Keeps.sized h7

theorem State.drainQueues_keeps {z s : State} (h : Keeps z s) (powered : Bool) : Keeps z (s.drainQueues powered) :=
  Keeps.sized h

theorem State.holdChannels_keeps {z s : State} (h : Keeps z s) : Keeps z s.holdChannels := by
  unfold State.holdChannels
  extract_lets d0 d1
  refine Keeps.sized ?_ (f := by simp [d0, d1])
  exact h

theorem State.falseStart_keeps {z s : State} (h : Keeps z s) (cause : Nat) : Keeps z (s.falseStart cause) := by
  unfold State.falseStart
  extract_lets powered s1 r s2 s3
  refine Keeps.ite h ?_
  have g1 : Keeps z s1 := State.leaveGo_keeps h
  clear_value s1
  have g2 : Keeps z s2 := Keeps.sized g1
  have g3 : Keeps z s3 := State.holdChannels_keeps (State.drainQueues_keeps (State.setReady_keeps
    (State.releaseWakes_keeps (State.closePorts_keeps (State.dropWork_keeps g2))) _) _)
  clear_value s2 s3
  exact Keeps.ite (State.setField_keeps g3 _) g3

theorem State.reread_keeps {z s : State} (h : Keeps z s) (ids : List Nat) : Keeps z (s.reread ids) := by
  unfold State.reread
  extract_lets d0 d1
  exact Keeps.plain h

theorem State.rereadWhere_keeps {z s : State} (h : Keeps z s) (f : Req → Bool) : Keeps z (s.rereadWhere f) := by
  unfold State.rereadWhere
  exact State.reread_keeps h ..

theorem State.dropRuns_keeps {z s : State} (h : Keeps z s) (c : Nat) : Keeps z (s.dropRuns c) := by
  unfold State.dropRuns
  exact Keeps.plain h

theorem State.itemBad_keeps {z s : State} (h : Keeps z s) (it : Item) (lpn b : Nat) (dist : Bool) :
    Keeps z (s.itemBad it lpn b dist) := by
  unfold State.itemBad
  refine Keeps.ite ?_ ?_
  · exact State.dropItem_keeps (State.losePage_keeps (State.checkEvent_keeps h ..) ..) ..
  · extract_lets d0 d1
    have h2 : Keeps z d0.2 := State.checkFail_keeps h ..
    clear_value d0
    have h3 : Keeps z d1 := by
      dsimp only [d1]
      split
      · exact State.modJob_keeps h2 ..
      · exact h2
    clear_value d1
    exact Keeps.ite (State.dropItem_keeps h3 ..) h3

theorem State.workBad_keeps {z s : State} (h : Keeps z s) (id lpn b : Nat) (dist : Bool) : Keeps z (s.workBad id lpn b dist) := by
  unfold State.workBad
  split
  · exact State.modMove_keeps h ..
  · split
    · exact State.itemBad_keeps h ..
    · exact State.legBad_keeps h ..

theorem State.worksLost_keeps {z s : State} (h : Keeps z s) (os : List QOwner) : Keeps z (s.worksLost os) := by
  unfold State.worksLost
  refine Keeps.foldl _ ?_ ?_
  · exact h
  · intro t0 x1 h2
    split
    · exact State.legLost_keeps h2 ..
    · exact h2

theorem State.checkMirror_keeps {z s : State} (h : Keeps z s) (c : Nat) : Keeps z (s.checkMirror c) := by
  unfold State.checkMirror
  exact Keeps.ite (State.falseStart_keeps (State.raise_keeps h ..) ..) h

theorem State.evacuatePages_keeps {z s : State} (h : Keeps z s) (c : Nat) : Keeps z (s.evacuatePages c) := by
  unfold State.evacuatePages
  exact Keeps.foldl _ h fun t0 x1 h2 => State.raiseMove_keeps h2 ..

theorem State.evacuate_keeps {z s : State} (h : Keeps z s) (c reason : Nat) : Keeps z (s.evacuate c reason) := by
  unfold State.evacuate
  refine Keeps.ite ?_ ?_
  · extract_lets d0
    have h1 : Keeps z d0 := State.recapacity_keeps (State.modChan_keeps h ..) ..
    clear_value d0
    exact State.evacuatePages_keeps (State.raise_keeps h1 ..) ..
  · exact h

theorem State.chanOut_keeps {z s : State} (h : Keeps z s) (c : Nat) : Keeps z (s.chanOut c) := by
  unfold State.chanOut
  extract_lets d0
  have h1 : Keeps z d0 := State.dropInject_keeps (State.dropRuns_keeps (State.rereadWhere_keeps h ..) ..) ..
  clear_value d0
  exact State.respare_keeps (State.modChan_keeps (State.clearUnit_keeps h1 ..) ..) ..

theorem State.evacDrained_keeps {z s : State} (h : Keeps z s) (c : Nat) : Keeps z (s.evacDrained c) := by
  unfold State.evacDrained
  refine Keeps.ite ?_ ?_
  · exact h
  · refine Keeps.ite ?_ ?_
    · exact State.evacuatePages_keeps h ..
    · extract_lets d0
      have h1 : Keeps z d0 := Keeps.foldl _ h fun t2 x3 h4 => State.swapIf_keeps h4 ..
      clear_value d0
      exact State.raise_keeps (State.chanOut_keeps h1 ..) ..

theorem State.loseChannelPages_keeps {z s : State} (h : Keeps z s) (c : Nat) : Keeps z (s.loseChannelPages c).1 := by
  unfold State.loseChannelPages
  refine Keeps.foldl_fst _ ?_ ?_
  · exact h
  · intro t0 x1 h2
    extract_lets d3
    split
    · dsimp only
      exact State.poisonPage_keeps h2 ..
    · dsimp only
      exact State.swapIf_keeps h2 ..

theorem State.unreadable_keeps {z s : State} (h : Keeps z s) (c reason : Nat) : Keeps z (s.unreadable c reason) := by
  unfold State.unreadable
  refine Keeps.ite ?_ ?_
  · exact h
  · extract_lets d0 d1 d2 d3 d4 d5
    have h6 : Keeps z d1 := State.modChan_keeps (State.chanOut_keeps h ..) ..
    clear_value d1
    have h7 : Keeps z d2 := State.raise_keeps h6 ..
    clear_value d2
    have h8 : Keeps z d3 := Keeps.foldl _ h7 fun t9 x10 h11 => State.undoMove_keeps h11 ..
    clear_value d3
    have h12 : Keeps z d4.1 := State.loseChannelPages_keeps h8 ..
    clear_value d4
    have h13 : Keeps z d5 := State.worksLost_keeps (State.dropRuns_keeps h12 ..) ..
    clear_value d5
    exact State.checkMirror_keeps (State.recapacity_keeps (State.raise_keeps h13 ..) ..) ..

theorem State.checkStack_keeps {z s : State} (h : Keeps z s) (st : Nat) : Keeps z (s.checkStack st) := by
  unfold State.checkStack
  exact Keeps.ite (State.falseStart_keeps (State.raise_keeps h ..) ..) h

theorem State.demotePc_keeps {z s : State} (h : Keeps z s) (st pc : Nat) : Keeps z (s.demotePc st pc) := by
  unfold State.demotePc
  refine Keeps.foldl _ ?_ ?_
  · exact h
  · intro t0 x1 h2
    extract_lets d3
    exact Keeps.ite h2 (State.raiseMove_keeps h2 ..)

theorem State.drainPc_keeps {z s : State} (h : Keeps z s) (st pc reason : Nat) : Keeps z (s.drainPc st pc reason) := by
  unfold State.drainPc
  exact Keeps.ite (State.demotePc_keeps (State.raise_keeps (State.modPc_keeps h ..) ..) ..) h

theorem State.dropClean_keeps {z s : State} (h : Keeps z s) (st pc : Nat) : Keeps z (s.dropClean st pc) := by
  unfold State.dropClean
  refine Keeps.foldl _ ?_ ?_
  · exact h
  · intro t0 x1 h2
    extract_lets d3 d4
    exact Keeps.ite h2 (State.freeSlot_keeps (State.swapPage_keeps h2 ..) ..)

theorem State.pcGone_keeps {z s : State} (h : Keeps z s) (st pc : Nat) : Keeps z (s.pcGone st pc) := by
  unfold State.pcGone
  extract_lets d0
  have h1 : Keeps z d0 := State.clearUnit_keeps (State.dropInject_keeps (State.rereadWhere_keeps h ..) ..) ..
  clear_value d0
  exact State.modPc_keeps h1 ..

theorem State.pcDrained_keeps {z s : State} (h : Keeps z s) (st pc : Nat) : Keeps z (s.pcDrained st pc) := by
  unfold State.pcDrained
  refine Keeps.ite ?_ ?_
  · exact h
  · refine Keeps.ite ?_ ?_
    · exact State.demotePc_keeps h ..
    · extract_lets d0
      exact State.checkStack_keeps (State.raise_keeps (State.worksLost_keeps (State.dropClean_keeps (State.pcGone_keeps h ..) ..) ..)
        ..) ..

theorem State.pcLost_keeps {z s : State} (h : Keeps z s) (st pc reason : Nat) : Keeps z (s.pcLost st pc reason) := by
  unfold State.pcLost
  refine Keeps.ite ?_ ?_
  · exact h
  · extract_lets d0 d1 d2 d3 d4
    have h5 : Keeps z d1 := State.raise_keeps (State.pcGone_keeps h ..) ..
    clear_value d1
    have h6 : Keeps z d2 := Keeps.foldl _ h5 fun t7 x8 h9 => State.undoMove_keeps h9 ..
    clear_value d2
    have h10 : Keeps z d4 := State.dropClean_keeps (Keeps.foldl _ h6 fun t11 x12 h13 => State.poisonPage_keeps h13 ..) ..
    clear_value d4
    exact State.checkStack_keeps (State.raise_keeps (State.worksLost_keeps h10 ..) ..) ..

theorem State.mapOut_keeps {z s : State} (h : Keeps z s) (u : DramUnit) (reason : Nat) : Keeps z (s.mapOut u reason) := by
  unfold State.mapOut
  split
  · exact State.evacuate_keeps h ..
  · exact State.drainPc_keeps h ..

theorem State.countError_keeps {z s : State} (h : Keeps z s) (u : DramUnit) (unc : Bool) : Keeps z (s.countError u unc) := by
  unfold State.countError
  extract_lets d0
  have h1 : Keeps z d0 := by
    dsimp only [d0]
    split
    · exact State.bump_keeps (State.modChan_keeps h ..) ..
    · exact State.bump_keeps (State.modPc_keeps h ..) ..
  exact Keeps.ite (State.mapOut_keeps h1 ..) (Keeps.ite (State.mapOut_keeps h1 ..) h1)

theorem State.pollChan_keeps {z s : State} (h : Keeps z s) (c : Nat) (t' : Option Int) : Keeps z (s.pollChan c t') := by
  unfold State.pollChan
  split
  · exact State.modChan_keeps h ..
  · extract_lets d0 d1
    have h2 : Keeps z d1 := State.modChan_keeps h ..
    clear_value d1
    exact Keeps.ite h2 (State.raise_keeps h2 ..)

theorem State.pollStack_keeps {z s : State} (h : Keeps z s) (st : Nat) (v : Int) : Keeps z (s.pollStack st v) := by
  unfold State.pollStack
  extract_lets d0 d1 d2
  have h3 : Keeps z d2 := Keeps.plain h
  clear_value d2
  exact Keeps.ite h3 (State.raise_keeps h3 ..)

end Sys2Proof.Machine
end

