-- ==== Sys2Proof/Laws/KeepsStart.lean ====
section
/-! SUPPORT. Keeps for choices, cores, replies and starts: one lemma per operation. -/

set_option Elab.async false

namespace Sys2Proof.Machine

theorem State.demoteOne_keeps {z s : State} (h : Keeps z s) (lpn : Nat) (chan : Option Nat) : Keeps z (s.demoteOne lpn chan) := by
  unfold State.demoteOne
  extract_lets d0 d1
  refine Keeps.ite ?_ ?_
  · exact h
  · refine Keeps.ite ?_ ?_
    · dsimp only [d1]
      exact Keeps.ite (State.addFirmware_keeps h ..) (State.raiseMove_keeps h ..)
    · refine Keeps.ite ?_ ?_
      · dsimp only [d1]
        exact Keeps.ite (State.addFirmware_keeps h ..) (State.raiseMove_keeps h ..)
      · exact h

theorem State.demoteList_keeps {z s : State} (h : Keeps z s) (lpns : List Nat) : Keeps z (s.demoteList lpns) := by
  unfold State.demoteList
  exact Keeps.foldl _ h fun t0 x1 h2 => State.demoteOne_keeps h2 ..

theorem State.demoteBuiltIn_keeps {z s : State} (h : Keeps z s) (lpns : List Nat) : Keeps z (s.demoteBuiltIn lpns) := by
  unfold State.demoteBuiltIn
  exact State.demoteList_keeps h ..

theorem State.promoteOne_keeps {z s : State} (h : Keeps z s) (lpn : Nat) : Keeps z (s.promoteOne lpn) := by
  unfold State.promoteOne
  exact Keeps.ite (State.addFirmware_keeps h ..) h

theorem State.promoteDue_keeps {z s : State} (h : Keeps z s) (lpns : List Nat) : Keeps z (s.promoteDue lpns) := by
  unfold State.promoteDue
  exact Keeps.foldl _ h fun t0 x1 h2 => State.promoteOne_keeps h2 ..

theorem State.compactList_keeps {z s : State} (h : Keeps z s) (lpns : List Nat) : Keeps z (s.compactList lpns) := by
  unfold State.compactList
  exact Keeps.foldl _ h fun t0 x1 h2 => Keeps.ite (State.raiseMove_keeps h2 ..) h2

theorem State.reclaim_keeps {z s : State} (h : Keeps z s) (lpn : Nat) : Keeps z (s.reclaim lpn) := by
  unfold State.reclaim
  extract_lets d0 d1
  exact Keeps.ite h (State.release_keeps (State.swapPage_keeps h ..) ..)

theorem State.builtIn_keeps {z s : State} (h : Keeps z s) (h' : HookCall) : Keeps z (s.builtIn h') := by
  unfold State.builtIn
  exact Keeps.ite h (Keeps.ite (State.demoteBuiltIn_keeps h ..) (Keeps.ite (Keeps.foldl _ h fun t0 x1 h2 => State.demoteOne_keeps h2
    ..) (Keeps.ite (State.promoteDue_keeps h ..) h)))

theorem State.nameChannel_keeps {z s : State} (h : Keeps z s) (lpn c : Nat) : Keeps z (s.nameChannel lpn c) := by
  unfold State.nameChannel
  refine Keeps.ite ?_ ?_
  · extract_lets d0 d1
    exact Keeps.plain h
  · exact State.demoteOne_keeps h ..

theorem State.windowFlows_keeps {z s : State} (h : Keeps z s) (n pos : Nat) (write : Bool) : Keeps z (s.windowFlows n pos write) := by
  unfold State.windowFlows
  extract_lets d0 d1 d2
  refine Keeps.ite ?_ ?_
  · dsimp only [d2]
    exact State.addFlow_keeps (State.addFlow_keeps h ..) ..
  · dsimp only [d2]
    exact State.addFlow_keeps h ..

/-- One core replaced, and values of the dictionary that the tables do not hold. -/
theorem Keeps.core {z s : State} (h : Keeps z s) (n : Nat) (c : Core) (hc : Form s → CoreForm c) :
    Keeps z { s with cores := updAt s.cores n fun _ => c } :=
  Keeps.upd rfl (fun f => { f with cores := cores_upd n (fun _ _ => hc f) f.cores }) h

theorem State.coreGoes_keeps {z s : State} (h : Keeps z s) (n : Nat) (c : Core) (hc : Form s → CoreForm c) :
    Keeps z (s.coreGoes n c) := by
  have g := Keeps.core h n c hc
  unfold State.coreGoes
  exact Keeps.ite g (Keeps.ite (State.windowFlows_keeps g _ _ _) (Keeps.ite (State.windowFlows_keeps g _ _ _) g))

theorem State.callHook_keeps {z s : State} (h : Keeps z s) (hook : Nat) (lpns : List Nat) (base : Nat) :
    Keeps z (s.callHook hook lpns base) := by
  unfold State.callHook
  refine Keeps.ite h (State.coreGoes_keeps (Keeps.plain h) _ _ fun f => Core.hookEnter_form ?_ _ _ _)
  have hc := core_form (s := s) ⟨f.1, f.2, f.3, f.4, f.5, f.6, f.7, f.8, f.9, f.10, f.11, f.12, ⟨f.13.1, f.13.2, f.13.3, f.13.4,
    f.13.5, f.13.6⟩, f.14, f.15⟩ 3
  exact ⟨hc.sram, hc.scratch, Memory.writeN_wf _ _ _ hc.policySram, hc.globals, hc.windows, hc.top⟩

theorem State.startPolicy_keeps {z s : State} (h : Keeps z s) : Keeps z s.startPolicy := by
  have g : ∀ st : Nat, Keeps z { s with dict := { s.dict with policyState := st, hook := none } } := fun st => Keeps.plain h
  unfold State.startPolicy
  refine Keeps.ite (State.callHook_keeps ?_ _ _ _) (g _)
  refine Keeps.upd rfl (fun f => { f with cores := cores_upd 3 (fun c hc => ?_) f.cores }) (g _)
  exact ⟨hc.sram, hc.scratch, policyMemory_wf _, hc.globals, hc.windows, hc.top⟩

theorem State.forgive_keeps {z s : State} (h : Keeps z s) : Keeps z s.forgive := by
  unfold State.forgive
  exact Keeps.plain h

theorem State.policyFault_keeps {z s : State} (h : Keeps z s) : Keeps z s.policyFault := by
  unfold State.policyFault
  extract_lets ts d s0 s2 d2
  have g0 : Keeps z s0 := Keeps.plain h
  have c0 : Form s0 → CoreForm (s.core 3) := fun f => core_form (s := s0) f 3
  clear_value s0
  have g2 : Keeps z s2 := by
    dsimp only [s2]
    split
    · exact State.builtIn_keeps (State.raise_keeps (State.bump_keeps (State.coreGoes_keeps g0 _ _ fun f =>
        Core.hookEnd_form (c0 f) _) _ _) _ _ _ _) _
    · exact State.raise_keeps (State.bump_keeps g0 _ _) _ _ _ _
  clear_value s2
  exact Keeps.ite (State.raise_keeps (Keeps.plain g2) _ _ _ _) g2

theorem State.hookOver_keeps {z s : State} (h : Keeps z s) (c : HookCall) (value : Nat) : Keeps z (s.hookOver c value) :=
  State.coreGoes_keeps (s := { s with dict := { s.dict with hook := none } }) (Keeps.plain h) _ _ fun f =>
    Core.hookEnd_form (Core.setG_form (core_form f 3) _ _) _

theorem State.hookReply_keeps {z s : State} (h : Keeps z s) (value : Nat) : Keeps z (s.hookReply value) := by
  unfold State.hookReply
  split
  · exact h
  · extract_lets d0 d1
    have h2 : Keeps z d0 := State.hookOver_keeps h ..
    clear_value d0
    split
    · exact Keeps.ite h2 (State.policyFault_keeps h ..)
    · exact Keeps.ite (State.builtIn_keeps h2 ..) (Keeps.ite (Keeps.ite (State.demoteList_keeps h2 ..) h2) (State.policyFault_keeps h
        ..))
    · exact Keeps.ite (State.builtIn_keeps h2 ..) (Keeps.ite (Keeps.ite (State.nameChannel_keeps h2 ..) h2) (State.policyFault_keeps
        h ..))
    · exact Keeps.ite (State.builtIn_keeps h2 ..) (Keeps.ite (Keeps.ite (Keeps.foldl _ h2 fun t3 x4 h5 => State.promoteOne_keeps h5
        ..) h2) (State.policyFault_keeps h ..))
    · exact h2

theorem State.coreHalted_keeps {z s : State} (h : Keeps z s) (n : Nat) : Keeps z (s.coreHalted n) := by
  unfold State.coreHalted
  extract_lets d0
  have h1 : Keeps z d0 := State.raise_keeps h ..
  clear_value d0
  exact Keeps.ite (State.falseStart_keeps h1 ..) (Keeps.ite (State.policyFault_keeps h1 ..) h1)

theorem State.putCore_keeps {z s : State} (h : Keeps z s) (n : Nat) (c : Core) (hc : Form s → CoreForm c) :
    Keeps z (s.putCore n c) := by
  have g := State.coreGoes_keeps h n c hc
  unfold State.putCore
  extract_lets old s1 s2
  have g2 : Keeps z s2 := Keeps.ite (State.bump_keeps g _ _) g
  exact Keeps.ite (State.coreHalted_keeps g2 _) g2

theorem State.trace_keeps {z s : State} (h : Keeps z s) (n kind : Nat) (squashed : Bool) (value : Nat) :
    Keeps z (s.trace n kind squashed value) := by
  unfold State.trace
  exact Keeps.ite (State.emit_keeps h ..) h

theorem State.traceStep_keeps {z s : State} (h : Keeps z s) (n : Nat) (old c : Core) : Keeps z (s.traceStep n old c) := by
  unfold State.traceStep
  split
  · exact State.trace_keeps h ..
  · exact Keeps.ite (State.trace_keeps h ..) h

theorem State.stepCore_keeps {z s : State} (h : Keeps z s) (n : Nat) (f : Core → Core) (hf : ∀ c, CoreForm c → CoreForm (f c)) :
    Keeps z (s.stepCore n f) := by
  have g := State.traceStep_keeps (State.putCore_keeps h n (f (s.core n)) fun w => hf _ (core_form w n)) n (s.core n) (f (s.core n))
  unfold State.stepCore
  exact Keeps.ite h (Keeps.ite (State.policyFault_keeps g) g)

theorem State.runCore_keeps {z s : State} (h : Keeps z s) (n : Nat) (f : Core → Core) (hf : ∀ c, CoreForm c → CoreForm (f c)) :
    Keeps z (s.runCore n f) :=
  Keeps.ite (State.stepCore_keeps h n f hf) h

theorem State.restartCore_keeps {z s : State} (h : Keeps z s) (n : Nat) : Keeps z (s.restartCore n) := by
  have g : Keeps z (State.bump { s with cores := updAt s.cores n fun c => c.restart (Config.azmorEntry n) } (0x8010 + n) 2) :=
    State.bump_keeps (Keeps.upd rfl (fun f => { f with cores := cores_upd n (fun c hc => Core.restart_form hc _) f.cores }) h) _ _
  unfold State.restartCore
  exact Keeps.ite h (Keeps.ite (State.startPolicy_keeps g) g)

theorem State.haltCore_keeps {z s : State} (h : Keeps z s) (n : Nat) : Keeps z (s.haltCore n) :=
  Keeps.ite (State.coreHalted_keeps (Keeps.upd rfl (fun f => { f with
    cores := cores_upd n (fun _ hc => Core.halt_form hc) f.cores }) h) _) h

theorem State.cacheSrc_keeps {z s : State} (h : Keeps z s) (src seq : Nat) (frame : List Byte) :
    Keeps z (s.cacheSrc src seq frame) := by
  unfold State.cacheSrc
  exact Keeps.plain h

theorem State.modSession_keeps {z s : State} (h : Keeps z s) (id : Nat) (f : Session → Session) : Keeps z (s.modSession id f) := by
  unfold State.modSession
  exact Keeps.plain h

theorem State.countRefusal_keeps {z s : State} (h : Keeps z s) (abort : Nat) : Keeps z (s.countRefusal abort) := by
  unfold State.countRefusal
  exact Keeps.ite (State.bump_keeps h ..) h

theorem State.reply_keeps {z s : State} (h : Keeps z s) (d : Door) (op : Nat) (back : Option ReplyTo) (index sub : Nat) (type offset
    : Nat) (flags abort : Nat) (data : List Byte) :
    Keeps z (s.reply d op back index sub type offset flags abort data) := by
  unfold State.reply
  split
  · exact State.mailboxDone_keeps h ..
  · extract_lets d0
    exact State.cacheSrc_keeps (State.emit_keeps (State.countRefusal_keeps h ..) ..) ..
  · split
    · exact h
    · extract_lets d1
      exact State.modSession_keeps (State.emit_keeps (State.countRefusal_keeps h ..) ..) ..
  · exact State.emit_keeps (State.countRefusal_keeps h ..) ..

theorem State.takeModule_keeps {z s : State} (h : Keeps z s) (image : List Byte) : Keeps z (s.takeModule image) := by
  have g : Keeps z (if s.dict.hook.isSome then s.policyFault else s) := Keeps.ite (State.policyFault_keeps h) h
  unfold State.takeModule
  dsimp only
  generalize (if s.dict.hook.isSome then s.policyFault else s) = t at g ⊢
  refine Keeps.ite (State.startPolicy_keeps (State.bump_keeps ?_ _ _)) (Keeps.plain h)
  exact Keeps.upd rfl (fun f => { f with table := ⟨f.table.1, f.table.2, f.table.3, f.table.4, f.table.5, f.table.6⟩, cores := cores_upd 3 (fun c hc => Core.restart_form hc _) f.cores }) g

theorem State.takeStored_keeps {z s : State} (h : Keeps z s) (index sub : Nat) (v : List Byte) :
    Keeps z (s.takeStored index sub v) := by
  unfold State.takeStored
  split
  · exact State.setNum_keeps (Keeps.plain h) _ _ _
  · exact State.takeModule_keeps h _
  · exact h.trans ⟨rfl, rfl, List.prefix_refl _, List.prefix_append _ _, rfl, rfl, rfl, rfl, rfl, rfl, fun f =>
      form_same f rfl rfl rfl rfl rfl rfl rfl rfl rfl rfl id rfl rfl rfl (.inl rfl) (.inl rfl)⟩

theorem State.storeDone_keeps {z s : State} (h : Keeps z s) (index sub : Nat) : Keeps z (s.storeDone index sub) := by
  unfold State.storeDone
  split
  · exact h
  · extract_lets d0 d1
    have h2 : Keeps z d1 := State.takeStored_keeps (Keeps.plain h) ..
    clear_value d1
    exact Keeps.ite h2 (State.reply_keeps h2 ..)

theorem State.storesDone_keeps {z s : State} (h : Keeps z s) : Keeps z s.storesDone := by
  unfold State.storesDone
  exact Keeps.foldl _ h fun t0 x1 h2 => State.storeDone_keeps h2 ..

/-- What a filter keeps still rises. -/
theorem rises_filter {α : Type} {m : List (Nat × α)} (h : Rises m) (f : Nat × α → Bool) : Rises (m.filter f) :=
  List.Pairwise.filter f h

/-- The values of the persistent objects, as a store takes them. -/
theorem persistent_rises {s : State} (w : TableForm s.dict) : Rises s.persistent.1 ∧ Rises s.persistent.2 :=
  ⟨rises_filter w.1 _, rises_filter w.2 _⟩

theorem State.startStore_keeps {z s : State} (h : Keeps z s) : Keeps z s.startStore := by
  unfold State.startStore
  refine Keeps.ite (Keeps.plain h (r := fun w => ?_)) (Keeps.plain h (r := fun w => ?_))
  · exact ⟨w.1, w.2, (persistent_rises w).1, (persistent_rises w).2, w.5, w.6⟩
  · exact ⟨w.1, w.2, w.3, w.4, (persistent_rises w).1, (persistent_rises w).2⟩

theorem State.endStore_keeps {z s : State} (h : Keeps z s) : Keeps z s.endStore := by
  unfold State.endStore
  extract_lets d0 d1 d2 d3
  exact Keeps.ite (Keeps.plain h) (Keeps.plain h)

theorem State.completeStores_keeps {z s : State} (h : Keeps z s) : Keeps z s.completeStores := by
  unfold State.completeStores
  extract_lets d0 d1
  have h2 : Keeps z d0 := State.storesDone_keeps h ..
  clear_value d0
  have h3 : Keeps z d1 := Keeps.ite (State.endStore_keeps h2 ..) h2
  clear_value d1
  exact Keeps.ite (State.endStore_keeps (State.startStore_keeps h3 ..) ..) h3

/-- Values put in one by one keep a table rising. -/
theorem rises_puts {α : Type} [DecidableEq α] (d : Nat → α) (l : List (Nat × α)) {m : List (Nat × α)} (h : Rises m) :
    Rises (l.foldl (fun m x => mput m (d x.1) x.1 x.2) m) := by
  induction l generalizing m with
  | nil => exact h
  | cons x r ih => exact ih (mput_rises _ _ _ _ h)

theorem load_table {d : DictSt} (w : TableForm d) (ns : List (Nat × Nat)) (bs : List (Nat × List Byte)) : TableForm (d.load ns bs) :=
  ⟨rises_puts dfltOf _ (rises_filter w.1 _), rises_puts (fun _ => []) _ (rises_filter w.2 _), w.3, w.4, w.5, w.6⟩

theorem State.load_keeps {z s : State} (h : Keeps z s) (crcA crcB : Bool) : Keeps z (s.load crcA crcB) := by
  have g : ∀ (a b : Flash) (ns : List (Nat × Nat)) (bs : List (Nat × List Byte)), a.nums = s.dict.flashA.nums →
      a.blobs = s.dict.flashA.blobs → b.nums = s.dict.flashB.nums → b.blobs = s.dict.flashB.blobs →
      Keeps z { s with dict := DictSt.load { s.dict with flashA := a, flashB := b } ns bs } := fun a b ns bs ha ha' hb hb' =>
    Keeps.same h (r := fun w => load_table (d := { s.dict with flashA := a, flashB := b })
      ⟨w.1, w.2, ha ▸ w.3, ha' ▸ w.4, hb ▸ w.5, hb' ▸ w.6⟩ _ _)
  unfold State.load
  exact Keeps.ite (g _ _ _ _ rfl rfl rfl rfl) (Keeps.ite (g _ _ _ _ rfl rfl rfl rfl) (g _ _ _ _ rfl rfl rfl rfl))

theorem State.restore_keeps {z s : State} (h : Keeps z s) (crcA crcB : Bool) : Keeps z (s.restore crcA crcB) := by
  unfold State.restore
  extract_lets d0 d1 d2
  have h3 : Keeps z d0 := State.load_keeps h ..
  clear_value d0
  exact Keeps.ite h3 (State.raise_keeps h3 ..)

theorem State.portsDown_keeps {z s : State} (h : Keeps z s) : Keeps z s.portsDown := by
  unfold State.portsDown
  extract_lets d0 d1
  have h2 : Keeps z d0 := Keeps.foldl _ h fun t3 x4 h5 => State.resetPort_keeps h5 ..
  clear_value d0
  exact Keeps.foldl _ h2 fun t6 x7 h8 => State.modPort_keeps h8 ..

theorem State.lockMux_keeps {z s : State} (h : Keeps z s) : Keeps z s.lockMux := by
  unfold State.lockMux
  exact Keeps.ite (State.emit_keeps (Keeps.plain h) ..) h

theorem atStart_table {d : DictSt} (w : TableForm d) : TableForm d.atStart :=
  ⟨rises_filter w.1 _, rises_filter w.2 _, w.3, w.4,
    w.5, w.6⟩

theorem State.beginStart_keeps {z s : State} (h : Keeps z s) (kind : Nat) :
    Keeps z (s.beginStart kind) := by
  unfold State.beginStart
  extract_lets s1 status chans fresh r m t q s2
  have g1 : Keeps z s1 := State.lockMux_keeps (State.releaseWakes_keeps (State.portsDown_keeps (State.dropWork_keeps h)))
  clear_value s1
  have g2 : Keeps z s2 := Keeps.upd rfl (fun f => ⟨rfl, f.dist, f.pages, f.windows, rfl, by simpa [chans] using f.chans,
    by simpa using f.ports, rfl, f.relays, f.strides, f.cores, ring_reset, atStart_table f.table, (by decide : (1 : Nat) ≤ 5),
    Nat.zero_le _⟩) g1
  exact Keeps.ite (State.setNum_keeps g2 _ _ _) g2

theorem State.failTraining_keeps {z s : State} (h : Keeps z s) (c reason : Nat) : Keeps z (s.failTraining c reason) := by
  unfold State.failTraining
  exact State.raise_keeps (State.modChan_keeps (State.dropRuns_keeps h ..) ..) ..

theorem State.trainChan_keeps {z s : State} (h : Keeps z s) (warm : Bool) (ref : Option DimmConfig) (rate c : Nat) (t' : ChanTrain) :
    Keeps z (s.trainChan warm ref rate c t') := by
  unfold State.trainChan
  refine Keeps.ite ?_ ?_
  · exact h
  · extract_lets d0 d1 d2 d3 d4
    have h5 : Keeps z d4 := State.modChan_keeps h ..
    clear_value d4
    exact Keeps.ite (State.failTraining_keeps h5 ..) (Keeps.ite h5 (State.failTraining_keeps h5 ..))

theorem State.unwind_keeps {z s : State} (h : Keeps z s) (m : Move) : Keeps z (s.unwind m) := by
  unfold State.unwind
  extract_lets d0
  have h1 : Keeps z d0 := State.returnPrior_keeps h ..
  clear_value d0
  split
  · exact State.freeRun_keeps h1 ..
  · exact h1

theorem State.markPoisoned_keeps {z s : State} (h : Keeps z s) (lpn : Nat) : Keeps z (s.markPoisoned lpn) := by
  unfold State.markPoisoned
  extract_lets d0 d1
  exact State.forgetSeal_keeps (State.setPage_keeps h ..) ..

theorem State.loseSprint_keeps {z s : State} (h : Keeps z s) : Keeps z s.loseSprint.1 := by
  unfold State.loseSprint
  refine Keeps.foldl_fst _ ?_ ?_
  · exact h
  · intro t0 x1 h2
    split
    · dsimp only
      exact State.markPoisoned_keeps h2 ..
    · dsimp only
      exact State.setPage_keeps h2 ..

theorem State.loseChannel_keeps {z s : State} (h : Keeps z s) (c : Nat) : Keeps z (s.loseChannel c) := by
  unfold State.loseChannel
  extract_lets d0
  exact Keeps.ite h (State.raise_keeps (Keeps.foldl _ h fun t1 x2 h3 => State.markPoisoned_keeps h3 ..) ..)

theorem State.finishRelease_keeps {z s : State} (h : Keeps z s) (h' : Nat) : Keeps z (s.finishRelease h') := by
  unfold State.finishRelease
  extract_lets d0 d1
  have h2 : Keeps z d0 := Keeps.foldl _ h fun t3 x4 h5 => State.forgetSeal_keeps (State.setPage_keeps h5 ..) ..
  clear_value d0
  exact State.vaultRelease_keeps (Keeps.plain h2) ..

theorem State.rebuildRuns_keeps {z s : State} (h : Keeps z s) : Keeps z s.rebuildRuns := by
  unfold State.rebuildRuns
  exact Keeps.plain h

theorem State.coldMaps_keeps {z s : State} (h : Keeps z s) : Keeps z s.coldMaps :=
  Keeps.upd rfl (fun f => { f with dist := rfl, pages := rfl, windows := rfl }) h

theorem State.warmMaps_keeps {z s : State} (h : Keeps z s) (lost : List Nat) : Keeps z (s.warmMaps lost) := by
  unfold State.warmMaps
  extract_lets d0 d1 d2 d3 d4 d5 d6 d7
  have h8 : Keeps z d0 := Keeps.foldl _ h fun t9 x10 h11 => State.unwind_keeps h11 ..
  clear_value d0
  have h12 : Keeps z d2 := Keeps.plain h8
  clear_value d2
  have h13 : Keeps z d3.1 := State.loseSprint_keeps h12 ..
  clear_value d3
  have h14 : Keeps z d4 := Keeps.foldl _ h13 fun t15 x16 h17 => State.loseChannel_keeps h17 ..
  clear_value d4
  have h18 : Keeps z d5.1 := by
    dsimp only [d5]
    refine Keeps.foldl_fst _ ?_ ?_
    · exact h14
    · intro t19 x20 h21
      unfold State.applyLost
      extract_lets d22 d23 d24
      have h26 : Keeps z d22 := h21
      clear_value d22
      split
      · exact h21
      · dsimp only
        clear_value d23
        split
        · dsimp only [d24]
          split
          · exact h21
          · dsimp only
            exact State.markPoisoned_keeps h26 ..
        · dsimp only [d24]
          split
          · exact h21
          · dsimp only
            exact State.markPoisoned_keeps h26 ..
        · split
          · dsimp only
            exact State.ownExtent_keeps (State.setWin_keeps h26 ..) ..
          · exact h21
        · exact h21
        · exact h21
  clear_value d5
  have h27 : Keeps z d6 := Keeps.foldl _ h18 fun t28 x29 h30 => State.finishRelease_keeps h30 ..
  clear_value d6
  have h31 : Keeps z d7 := State.rebuildRuns_keeps h27 ..
  clear_value d7
  exact Keeps.ite (State.raise_keeps h31 ..) h31

theorem State.distanceStep_keeps {z s : State} (h : Keeps z s) (lost : List Nat) : Keeps z (s.distanceStep lost) := by
  unfold State.distanceStep
  extract_lets d0 d1 d2 d3 d4 d5
  have h6 : Keeps z d0 := Keeps.ite (State.warmMaps_keeps h ..) (State.coldMaps_keeps h ..)
  clear_value d0
  have h7 : Keeps z d3 := Keeps.plain h6
  clear_value d3
  have h8 : Keeps z d4 := State.recapacity_keeps (State.formPools_keeps h7 ..) ..
  clear_value d4
  exact Keeps.ite (Keeps.plain h8) (State.setField_keeps h8 ..)

theorem State.trained_keeps {z s : State} (h : Keeps z s) (ts : List ChanTrain) : Keeps z (s.trained ts) := by
  unfold State.trained
  extract_lets d0 d1 d2 d3 d4 d5 d6 d7 d8
  have h9 : Keeps z d2 := Keeps.foldl _ h fun t10 x11 h12 => State.trainChan_keeps h12 ..
  clear_value d2
  have h13 : Keeps z d7 := Keeps.plain h9
  clear_value d7
  clear_value d8
  split
  · exact State.falseStart_keeps (State.raise_keeps h13 ..) ..
  · exact Keeps.ite (State.falseStart_keeps h13 ..) (State.distanceStep_keeps h13 ..)

theorem State.releasePorts_keeps {z s : State} (h : Keeps z s) (perst : BitVec 4) : Keeps z (s.releasePorts perst) := by
  unfold State.releasePorts
  extract_lets d0 d1
  have h2 : Keeps z d1 := Keeps.plain h
  clear_value d1
  exact Keeps.foldl _ h2 fun t3 x4 h5 => Keeps.ite h5 (Keeps.ite (State.modPort_keeps h5 ..) (State.releasePerst_keeps h5 ..))

theorem State.resumeEvacuations_keeps {z s : State} (h : Keeps z s) : Keeps z s.resumeEvacuations := by
  unfold State.resumeEvacuations
  exact Keeps.foldl _ h fun t0 x1 h2 => Keeps.ite (State.evacuatePages_keeps h2 ..) h2

theorem State.enterGo_keeps {z s : State} (h : Keeps z s) : Keeps z s.enterGo := by
  unfold State.enterGo
  extract_lets d0 d1 d2 d3 d4 d5
  have h6 : Keeps z d5 := Keeps.sized h
  clear_value d5
  exact State.resumeEvacuations_keeps (State.raise_keeps (State.setReady_keeps h6 ..) ..) ..

theorem State.sprintReady_keeps {z s : State} (h : Keeps z s) (pcBad : List (Nat × Nat)) (perst : BitVec 4) :
    Keeps z (s.sprintReady pcBad perst) := by
  have g1 : Keeps z { s with tier := { s.tier with
    sprint := [], pcs := [], slotsBuilt := true, slotsUsed := [], slotPtr := List.replicate 8 0 } } :=
    Keeps.upd rfl (fun f => { f with sprint := rfl }) h
  unfold State.sprintReady
  dsimp only at g1 ⊢
  generalize State.mk _ _ _ _ _ _ _ _ _ _ _ _ _ _ _ _ _ _ _ = s1 at g1 ⊢
  have g2 : Keeps z ((pcBad.filter fun x => s.stacks.contains x.1 && decide (x.2 < 32)).foldl
    (fun s x => (s.modPc x.1 x.2 fun y => { y with out := 2 }).raise 0x0481 (unitPc x.1 x.2) 2 0) s1) :=
    Keeps.foldl _ g1 fun t x ht => State.raise_keeps (State.modPc_keeps ht _ _ _) _ _ _ _
  split
  · exact State.falseStart_keeps (State.raise_keeps g2 _ _ _ _) _
  · exact State.enterGo_keeps (State.releasePorts_keeps g2 _)

theorem State.softStart_keeps {z s : State} (h : Keeps z s) (kind : Nat) : Keeps z (s.softStart kind) := by
  unfold State.softStart
  extract_lets s1 r s2
  have g1 : Keeps z s1 := State.beginStart_keeps (State.completeStores_keeps h) kind
  clear_value s1
  have g2 : Keeps z s2 := by
    refine Keeps.upd rfl (fun f => { f with cores := cores_start _ fun n => ?_ }) g1
    split
    · exact core_form f 0
    · exact Core.startAt_form coreReset_form n
  exact State.startPolicy_keeps (State.restore_keeps g2 _ _)

theorem State.demoteDirty_keeps {z s : State} (h : Keeps z s) : Keeps z s.demoteDirty := by
  unfold State.demoteDirty
  exact Keeps.ite h (Keeps.foldl _ h fun t0 x1 h2 => Keeps.ite h2 (State.raiseMove_keeps h2 ..))

theorem State.pauseEntry_keeps {z s : State} (h : Keeps z s) (restart : Bool) : Keeps z (s.pauseEntry restart) := by
  unfold State.pauseEntry
  have g1 : ∀ f g : Engine → Engine, Keeps z { s with
      run := { s.run with trans := .entering restart, reqStatus := 1 }
      test := { s.test with inject := none, lap := none }
      stride := { s.stride with engines := s.stride.engines.map f }
      relay := { s.relay with engines := s.relay.engines.map g } } := fun _ _ => Keeps.sized h
  exact State.demoteDirty_keeps (Keeps.foldl _ (Keeps.plain (g1 _ _)) fun t r ht =>
    State.writeDone_keeps (State.discardCount_keeps ht _) _)

theorem State.pauseDone_keeps {z s : State} (h : Keeps z s) (restart : Bool) : Keeps z (s.pauseDone restart) := by
  have g := State.holdChannels_keeps (State.drainQueues_keeps (State.portsDown_keeps
    (State.setReady_keeps (State.closePorts_keeps (State.leaveGo_keeps h)) false)) true)
  unfold State.pauseDone
  dsimp only
  generalize ((((s.leaveGo.closePorts.setReady false).portsDown).drainQueues true).holdChannels) = t at g ⊢
  have k : ∀ bs : List BuildReq, Keeps z (State.setField { t with
    reqs := [], xfers := []
    relay := { t.relay with items := [], builds := bs }
    run := { t.run with retention := true, trans := .none, reqStatus := 0, state := 3, distReady := false } } false) :=
    fun bs => by
      refine State.setField_keeps ?_ _
      exact Keeps.upd rfl (fun f => { f with runState := (by decide : (3 : Nat) ≤ 5) }) g
  exact Keeps.ite (State.softStart_keeps (k _) _) (State.raise_keeps (k _) _ _ _ _)

theorem State.pauseStep_keeps {z s : State} (h : Keeps z s) : Keeps z s.pauseStep := by
  unfold State.pauseStep
  split
  · exact Keeps.ite (State.demoteDirty_keeps h ..) (Keeps.ite (State.pauseDone_keeps h ..) h)
  · exact h

theorem State.pauseExit_keeps {z s : State} (h : Keeps z s) : Keeps z s.pauseExit := by
  have g := State.releaseWakes_keeps h
  unfold State.pauseExit
  generalize s.releaseWakes = t at g ⊢
  exact State.setField_keeps (Keeps.sized g) _

theorem State.holdReset_keeps {z s : State} (h : Keeps z s) : Keeps z s.holdReset := by
  unfold State.holdReset
  extract_lets s0 s1 s2 chan r d m t e q x
  have g0 : Keeps z s0 := Keeps.ite h (State.coldMaps_keeps h)
  have g1 : Keeps z s1 := State.setField_keeps (State.setReady_keeps (Keeps.ite (State.closePorts_keeps g0) g0) _) _
  have g2 : Keeps z s2 := State.lockMux_keeps (State.releaseWakes_keeps (State.portsDown_keeps (State.dropWork_keeps g1)))
  clear_value s0 s1 s2
  exact Keeps.upd rfl (fun w => ⟨rfl, w.dist, w.pages, w.windows, rfl, by simpa using w.chans, w.ports, w.bibs, rfl, rfl,
    ⟨rfl, fun c hc => by rw [List.eq_of_mem_replicate hc]; exact coreReset_form⟩, ring_reset,
    ⟨(atStart_table w.table).1, (atStart_table w.table).2, w.table.3, w.table.4, w.table.5, w.table.6⟩, Nat.zero_le _, Nat.zero_le _⟩) g2

theorem State.powerLoss_keeps {z s : State} (h : Keeps z s) : Keeps z s.powerLoss := by
  have g := State.coldMaps_keeps (State.holdReset_keeps h)
  unfold State.powerLoss
  dsimp only
  generalize s.holdReset.coldMaps = t at g ⊢
  exact Keeps.upd rfl (fun f => { f with chans := rfl, runState := (by decide : (5 : Nat) ≤ 5) }) g

theorem State.leaveReset_keeps {z s : State} (h : Keeps z s) (node : BitVec 4) (bankOk otherBankOk flashFound crcA crcB : Bool) :
    Keeps z (s.leaveReset node bankOk otherBankOk flashFound crcA crcB) := by
  unfold State.leaveReset
  extract_lets kind s1 first second use d p r s2 s3 s4
  have g1 : Keeps z s1 := State.beginStart_keeps h _
  clear_value s1 use
  have g2 : Keeps z s2 := by
    refine g1.trans ⟨rfl, rfl, List.prefix_refl _, ?_, rfl, rfl, rfl, rfl, rfl, rfl, fun f => ?_⟩
    · dsimp only [s2, d]
      split <;> exact List.prefix_refl _
    · refine ⟨f.sprint, f.dist, f.pages, f.windows, f.uses, f.chans, f.ports, f.bibs, f.relays, f.strides,
        cores_start (fun n => (s1.core n).startAt n) fun n => Core.startAt_form (core_form f n) n, f.ring, ?_, f.runState, f.throttle⟩
      have w := f.table
      dsimp only [s2, d]
      split <;> exact ⟨w.1, w.2, w.3, w.4, w.5, w.6⟩
  have g3 : Keeps z s3 := State.setNum_keeps g2 _ _ _
  clear_value s2 s3
  have g4 : Keeps z s4 := State.restore_keeps g3 _ _
  exact Keeps.ite (State.raise_keeps (State.falseStart_keeps (State.load_keeps g3 _ _) _) _ _ _ _)
    (State.startPolicy_keeps (Keeps.ite g4 (State.raise_keeps g4 _ _ _ _)))

end Sys2Proof.Machine
end

