-- ==== Sys2Proof/Laws/KeepsRelay.lean ====
section
/-! SUPPORT. Keeps for the commands of cores, DMA, relay engines, laps, links and power: one lemma per operation. -/

set_option Elab.async false

namespace Sys2Proof.Machine

theorem execCallw_keeps {s t : State} (n : Nat) (offset : BitVec 26) (e : execCallw n offset s = .next t) : Keeps s t := by
  unfold execCallw at e
  injection e with e
  subst e
  have h := Keeps.refl s
  with_reducible apply State.onward_keeps
  with_reducible apply State.runCore_keeps
  · exact h
  · intro c0 h1
    refine Core.callw_form ?_ ..
    exact h1

theorem execRetw_keeps {s t : State} (n : Nat) (e : execRetw n s = .next t) : Keeps s t := by
  unfold execRetw at e
  injection e with e
  subst e
  have h := Keeps.refl s
  with_reducible apply State.onward_keeps
  with_reducible apply State.runCore_keeps
  · exact h
  · intro c0 h1
    refine Core.retw_form ?_ ..
    exact h1

theorem State.service_keeps {z s : State} (h : Keeps z s) (number : Nat) : Keeps z (s.service number) := by
  have g : ∀ f : Core → Core, (∀ c, CoreForm c → CoreForm (f c)) → Keeps z { s with cores := updAt s.cores 3 f } := fun f hf =>
    Keeps.upd rfl (fun w => { w with cores := cores_upd 3 hf w.cores }) h
  unfold State.service
  dsimp only
  split
  · exact g _ fun c hc => Core.putModule_form hc _ _
  · exact Keeps.ite (g _ fun c hc => Core.putModule_form hc _ _) h
  · exact g _ fun c hc => Core.setG_form (Core.setG_form hc _ _) _ _
  · exact State.raiseWith_keeps h _ _ _ _ _ _ _ _
  · exact g _ fun c hc => Core.setG_form hc _ _

theorem State.moduleService_keeps {z s : State} (h : Keeps z s) (n : Nat) (old : Core) : Keeps z (s.moduleService n old) := by
  unfold State.moduleService
  extract_lets d0
  exact Keeps.ite (State.service_keeps h ..) h

theorem State.trapOf_keeps {z s : State} (h : Keeps z s) (n number : Nat) : Keeps z (s.trapOf n number) := by
  have g := State.runCore_keeps h n (fun c => c.trap s.ovfReach number) fun c hc => Core.trap_form hc _ _
  unfold State.trapOf
  exact Keeps.ite (State.service_keeps g _) g

theorem execTrap_keeps {s t : State} (n number : Nat) (e : execTrap n number s = .next t) : Keeps s t := by
  unfold execTrap at e
  injection e with e
  subst e
  have h := Keeps.refl s
  exact State.onward_keeps (State.trapOf_keeps h ..) ..

theorem execSavectx_keeps {s t : State} (n : Nat) (mask : BitVec 4) (e : execSavectx n mask s = .next t) : Keeps s t := by
  unfold execSavectx at e
  injection e with e
  subst e
  have h := Keeps.refl s
  with_reducible apply State.onward_keeps
  with_reducible apply State.runCore_keeps
  · exact h
  · intro c0 h1
    refine Core.savectx_form ?_ ..
    exact h1

theorem execLoadctx_keeps {s t : State} (n : Nat) (mask : BitVec 4) (e : execLoadctx n mask s = .next t) : Keeps s t := by
  unfold execLoadctx at e
  injection e with e
  subst e
  have h := Keeps.refl s
  with_reducible apply State.onward_keeps
  with_reducible apply State.runCore_keeps
  · exact h
  · intro c0 h1
    refine Core.loadctx_form ?_ ..
    exact h1

theorem execDropctx_keeps {s t : State} (n : Nat) (e : execDropctx n s = .next t) : Keeps s t := by
  unfold execDropctx at e
  injection e with e
  subst e
  have h := Keeps.refl s
  with_reducible apply State.onward_keeps
  with_reducible apply State.runCore_keeps
  · exact h
  · intro c0 h1
    refine Core.dropctx_form ?_ ..
    exact h1

theorem execReti_keeps {s t : State} (n : Nat) (e : execReti n s = .next t) : Keeps s t := by
  unfold execReti at e
  injection e with e
  subst e
  have h := Keeps.refl s
  with_reducible apply State.onward_keeps
  with_reducible apply State.runCore_keeps
  · exact h
  · intro c0 h1
    refine Core.reti_form ?_ ..
    exact h1

theorem execCutw_keeps {s t : State} (n reg : Nat) (e : execCutw n reg s = .next t) : Keeps s t := by
  unfold execCutw at e
  injection e with e
  subst e
  have h := Keeps.refl s
  with_reducible apply State.onward_keeps
  with_reducible apply State.runCore_keeps
  · exact h
  · intro c0 h1
    refine Core.cutw_form ?_ ..
    exact h1

theorem execHalt_keeps {s t : State} (n : Nat) (e : execHalt n s = .next t) : Keeps s t := by
  unfold execHalt at e
  injection e with e
  subst e
  have h := Keeps.refl s
  with_reducible apply State.onward_keeps
  with_reducible apply State.runCore_keeps
  · exact h
  · intro c0 h1
    refine Core.haltOp_form ?_ ..
    exact h1

theorem execTallyInstruction_keeps {s t : State} (n : Nat) (e : execTallyInstruction n s = .next t) : Keeps s t := by
  unfold execTallyInstruction at e
  injection e with e
  subst e
  have h := Keeps.refl s
  with_reducible apply State.onward_keeps
  with_reducible apply State.drawn_keeps
  with_reducible apply State.runCore_keeps
  · exact h
  · intro c0 h1
    refine Core.tallyOp_form ?_ ..
    exact h1

theorem execCsrAccess_keeps {s t : State} (n csr : Nat) (write : Bool) (reg : Nat) (e : execCsrAccess n csr write reg s = .next t) :
    Keeps s t := by
  unfold execCsrAccess at e
  injection e with e
  subst e
  have h := Keeps.refl s
  with_reducible apply State.onward_keeps
  with_reducible apply State.runCore_keeps
  · exact h
  · intro c0 h1
    refine Core.csrOp_form ?_ ..
    exact h1

theorem execIllegalInstruction_keeps {s t : State} (n : Nat) (e : execIllegalInstruction n s = .next t) : Keeps s t := by
  unfold execIllegalInstruction at e
  injection e with e
  subst e
  have h := Keeps.refl s
  with_reducible apply State.onward_keeps
  with_reducible apply State.runCore_keeps
  · exact h
  · intro c0 h1
    refine Core.trapAt_form ?_ ..
    exact h1

theorem execInterruptEntry_keeps {s t : State} (n line : Nat) (e : execInterruptEntry n line s = .next t) : Keeps s t := by
  unfold execInterruptEntry at e
  injection e with e
  subst e
  have h := Keeps.refl s
  with_reducible apply State.onward_keeps
  with_reducible apply State.stepCore_keeps
  · exact h
  · intro c0 h1
    refine Core.interrupt_form ?_ ..
    exact h1

theorem execSpill_keeps {s t : State} (n : Nat) (e : execSpill n s = .next t) : Keeps s t := by
  unfold execSpill at e
  injection e with e
  subst e
  have h := Keeps.refl s
  with_reducible apply State.onward_keeps
  with_reducible apply State.stepCore_keeps
  · exact h
  · intro c0 h1
    refine Core.spillStart_form ?_ ..
    exact h1

theorem State.spillEnds_keeps {z s : State} (h : Keeps z s) (n : Nat) : Keeps z (s.spillEnds n) := by
  have g := State.moduleService_keeps (State.stepCore_keeps h n Core.spillDone fun c hc => Core.spillDone_form hc) n (s.core n)
  unfold State.spillEnds
  exact Keeps.ite h (Keeps.ite (State.bump_keeps g _ _) g)

theorem execSpillDone_keeps {s t : State} (n : Nat) (e : execSpillDone n s = .next t) : Keeps s t := by
  unfold execSpillDone at e
  injection e with e
  subst e
  have h := Keeps.refl s
  exact State.onward_keeps (State.spillEnds_keeps h ..) ..

theorem execFillDone_keeps {s t : State} (n : Nat) (uncorrectable : Bool) (e : execFillDone n uncorrectable s = .next t) :
    Keeps s t := by
  unfold execFillDone at e
  injection e with e
  subst e
  have h := Keeps.refl s
  refine Keeps.ite ?_ ?_
  · exact h
  · with_reducible apply State.onward_keeps
    with_reducible apply State.stepCore_keeps
    · exact h
    · intro c0 h1
      refine Core.fillDone_form ?_ ..
      exact h1

theorem State.watchdog_keeps {z s : State} (h : Keeps z s) (n : Nat) : Keeps z (s.watchdog n) :=
  have g : Keeps z { s with cores := updAt s.cores n fun c => { c with heartbeat := false } } :=
    Keeps.upd rfl (fun f => { f with cores := cores_upd n (fun _ hc =>
      ⟨hc.sram, hc.scratch, hc.policySram, hc.globals, hc.windows, hc.top⟩) f.cores }) h
  Keeps.ite (State.haltCore_keeps g _) h

theorem execCoreWatchdog_keeps {s t : State} (n : Nat) (e : execCoreWatchdog n s = .next t) : Keeps s t := by
  unfold execCoreWatchdog at e
  injection e with e
  subst e
  have h := Keeps.refl s
  exact State.onward_keeps (State.watchdog_keeps h ..) ..

theorem execCoreRestart_keeps {s t : State} (n : Nat) (e : execCoreRestart n s = .next t) : Keeps s t := by
  unfold execCoreRestart at e
  injection e with e
  subst e
  have h := Keeps.refl s
  exact State.onward_keeps (State.restartCore_keeps h ..) ..

theorem State.wrongPath_keeps {z s : State} (h : Keeps z s) (n : Nat) (inRegion fills : Bool) :
    Keeps z (s.wrongPath n inRegion fills) := by
  unfold State.wrongPath
  refine Keeps.ite h ?_
  have g : Keeps z { s.drawn with cores := updAt s.cores n fun c => c.wrongPath inRegion fills } :=
    Keeps.upd (s := s.drawn) rfl (fun f => { f with cores := cores_upd n (fun c hc => Core.wrongPath_form hc _ _) f.cores })
      (State.drawn_keeps h)
  exact State.trace_keeps (Keeps.ite (State.bump_keeps g _ _) g) _ _ _ _

theorem execWrongPathFetch_keeps {s t : State} (n : Nat) (inRegion fills : Bool) (e : execWrongPathFetch n inRegion fills s = .next
    t) :
    Keeps s t := by
  unfold execWrongPathFetch at e
  injection e with e
  subst e
  have h := Keeps.refl s
  exact State.wrongPath_keeps h ..

theorem execLoadStore_keeps {s t : State} (n : Nat) (store : Bool) (addr width reg : Nat) (e : execLoadStore n store addr width reg s
    = .next t) :
    Keeps s t := by
  unfold execLoadStore at e
  injection e with e
  subst e
  have h := Keeps.refl s
  with_reducible apply State.onward_keeps
  with_reducible apply State.drawn_keeps
  with_reducible apply State.runCore_keeps
  · exact h
  · intro c0 h1
    refine Core.loadStore_form ?_ ..
    exact h1

theorem State.answered_keeps {z s : State} (h : Keeps z s) (p : Nat) (l : LinkId) (addr size : Nat) :
    Keeps z (s.answered p l addr size) := by
  unfold State.answered
  extract_lets d0 d1 d2 d3
  have h4 : Keeps z d2 := State.modLink_keeps h ..
  clear_value d2
  exact Keeps.plain h4

theorem execAtsTranslationCompletion_keeps {s t : State} (p : Nat) (l : LinkId) (addr size : Nat) (r w : Bool) (e :
    execAtsTranslationCompletion p l addr size r w s = .next t) :
    Keeps s t := by
  unfold execAtsTranslationCompletion at e
  injection e with e
  subst e
  have h := Keeps.refl s
  refine Keeps.ite ?_ ?_
  · exact h
  · extract_lets d0
    have h1 : Keeps s d0 := State.onward_keeps (State.cacheXlate_keeps (State.answered_keeps (State.wakeLink_keeps h ..) ..) ..) ..
    clear_value d0
    exact Keeps.ite h1 (State.modLink_keeps h1 ..)

theorem State.endRead_keeps {z s : State} (h : Keeps z s) (p : Nat) (l : LinkId) (id : Nat) (ph : DmaRead → DmaPhase) :
    Keeps z (s.endRead p l id ph) := by
  unfold State.endRead
  exact State.onward_keeps (State.modDma_keeps h ..) ..

theorem execDmaReadCompletion_keeps {s t : State} (p : Nat) (l : LinkId) (id : Nat) (status : DmaStatus) (data : List Byte) (e :
    execDmaReadCompletion p l id status data s = .next t) :
    Keeps s t := by
  unfold execDmaReadCompletion at e
  injection e with e
  subst e
  have h := Keeps.refl s
  exact State.endRead_keeps (State.wakeLink_keeps h ..) ..

theorem execDmaCompletionTimeout_keeps {s t : State} (p : Nat) (l : LinkId) (id : Nat) (e : execDmaCompletionTimeout p l id s = .next
    t) :
    Keeps s t := by
  unfold execDmaCompletionTimeout at e
  injection e with e
  subst e
  have h := Keeps.refl s
  exact State.endRead_keeps h ..

theorem execInvalidationRequest_keeps {s t : State} (p : Nat) (l : LinkId) (tag addr size : Nat) (e : execInvalidationRequest p l tag
    addr size s = .next t) :
    Keeps s t := by
  unfold execInvalidationRequest at e
  injection e with e
  subst e
  have h := Keeps.refl s
  exact Keeps.ite h (State.modLink_keeps (State.unready_keeps (State.wakeLink_keeps h ..) ..) ..)

theorem execInvalidationCompletion_keeps {s t : State} (p : Nat) (l : LinkId) (tag : Nat) (e : execInvalidationCompletion p l tag s =
    .next t) :
    Keeps s t := by
  unfold execInvalidationCompletion at e
  injection e with e
  subst e
  have h := Keeps.refl s
  split
  · exact Keeps.ite h (State.onward_keeps (State.emit_keeps (State.modLink_keeps (State.wakeLink_keeps h ..) ..) ..) ..)
  · exact h

theorem State.dropReqItems_keeps {z s : State} (h : Keeps z s) (id : Nat) : Keeps z (s.dropReqItems id) := by
  unfold State.dropReqItems
  exact Keeps.plain h

theorem State.jobRepaired_keeps {z s : State} (h : Keeps z s) (r : Req) : Keeps z (s.jobRepaired r) := by
  unfold State.jobRepaired
  split
  · exact State.modJob_keeps h ..
  · exact State.modJob_keeps h ..
  · exact h

theorem State.readLost_keeps {z s : State} (h : Keeps z s) (dist : Bool) (check : Nat) (r : Req) :
    Keeps z (s.readLost dist check r) := by
  unfold State.readLost
  refine Keeps.ite ?_ ?_
  · exact State.reread_keeps (State.checkEvent_keeps h ..) ..
  · split
    · with_reducible apply State.jobRepaired_keeps
      with_reducible apply State.modReq_keeps
      refine Keeps.of_snd (by assumption) ?_
      exact State.checkFail_keeps h ..
    · with_reducible apply State.readDone_keeps
      with_reducible apply State.dropReqItems_keeps
      refine Keeps.of_snd (by assumption) ?_
      exact State.checkFail_keeps h ..

theorem State.sprintArrived_keeps {z s : State} (h : Keeps z s) (u : DramUnit) (r : Req) : Keeps z (s.sprintArrived u r) := by
  unfold State.sprintArrived
  exact Keeps.ite h (Keeps.ite (State.addItem_keeps (State.setStage_keeps h ..) ..) (Keeps.ite (State.addItem_keeps
    (State.setStage_keeps h ..) ..) (State.readDone_keeps h ..)))

theorem State.serveRead_keeps {z s : State} (h : Keeps z s) (it : Item) (dist : Bool) : Keeps z (s.serveRead it dist) := by
  unfold State.serveRead
  split
  · exact State.dropItem_keeps h ..
  · extract_lets d0
    have h1 : Keeps z d0 := by
      dsimp only [d0]
      split
      · exact h
      · exact State.readLost_keeps h ..
    clear_value d0
    split
    · exact State.dropItem_keeps h1 ..
    · exact Keeps.ite (State.readDone_keeps (State.dropItem_keeps h1 ..) ..) (State.dropItem_keeps h1 ..)

theorem execItemStart_keeps {s t : State} (e' : Nat) (e : execItemStart e' s = .next t) : Keeps s t := by
  unfold execItemStart at e
  injection e with e
  subst e
  have h := Keeps.refl s
  exact Keeps.ite (State.onward_keeps (State.engineTakes_keeps h ..) ..) h

theorem execExpandDone_keeps {s t : State} (item : Nat) (e : execExpandDone item s = .next t) : Keeps s t := by
  unfold execExpandDone at e
  injection e with e
  subst e
  have h := Keeps.refl s
  split
  · exact State.onward_keeps (State.serveRead_keeps h ..) ..
  · exact h

theorem State.xtsWrite_keeps {z s : State} (h : Keeps z s) (r : Req) : Keeps z (s.xtsWrite r) := by
  unfold State.xtsWrite
  extract_lets d0
  exact Keeps.ite (State.sprintWrite_keeps h ..) (State.setStage_keeps h ..)

theorem State.xtsEnd_keeps {z s : State} (h : Keeps z s) (it : Item) : Keeps z (s.xtsEnd it) := by
  unfold State.xtsEnd
  extract_lets d0
  have h2 : Keeps z d0 := State.dropItem_keeps h ..
  clear_value d0
  split
  · exact h2
  · refine Keeps.ite ?_ ?_
    · exact State.lockedVault_keeps h2 ..
    · refine Keeps.ite ?_ ?_
      · exact State.xtsWrite_keeps h2 ..
      · extract_lets d3
        exact State.readDone_keeps h2 ..

theorem execXtsDone_keeps {s t : State} (item : Nat) (e : execXtsDone item s = .next t) : Keeps s t := by
  unfold execXtsDone at e
  injection e with e
  subst e
  have h := Keeps.refl s
  split
  · exact State.onward_keeps (State.xtsEnd_keeps h ..) ..
  · exact h

theorem State.bypassEnd_keeps {z s : State} (h : Keeps z s) (it : Item) : Keeps z (s.bypassEnd it) := by
  unfold State.bypassEnd
  split
  · exact State.dropItem_keeps h ..
  · refine Keeps.ite ?_ ?_
    · exact h
    · extract_lets d0 d1
      have h2 : Keeps z d0 := State.touchUse_keeps (State.bump_keeps h ..) ..
      clear_value d0
      exact State.serveRead_keeps (State.setUse_keeps h2 ..) ..

theorem execBypassDone_keeps {s t : State} (item : Nat) (e : execBypassDone item s = .next t) : Keeps s t := by
  unfold execBypassDone at e
  injection e with e
  subst e
  have h := Keeps.refl s
  split
  · exact State.onward_keeps (State.bypassEnd_keeps h ..) ..
  · exact h

theorem State.rawBlock_keeps {z s : State} (h : Keeps z s) (lpn b : Nat) (stored : List Byte) :
    Keeps z (s.rawBlock lpn b stored) := by
  unfold State.rawBlock
  extract_lets d0 d1 d2 d3 d4
  exact State.markBlock_keeps (State.swapPage_keeps (State.writeSprint_keeps h ..) ..) ..

theorem State.unsealed_keeps {z s : State} (h : Keeps z s) (it : Item) (stored : List Byte) : Keeps z (s.unsealed it stored) := by
  unfold State.unsealed
  extract_lets d0
  have h1 : Keeps z d0 := State.bump_keeps (State.rawBlock_keeps h ..) ..
  clear_value d0
  exact State.blockFlows_keeps h1 ..

theorem State.unsealEnd_keeps {z s : State} (h : Keeps z s) (it : Item) : Keeps z (s.unsealEnd it) := by
  unfold State.unsealEnd
  extract_lets d0 d1 d2
  have h3 : Keeps z d1 := State.dropItem_keeps h ..
  clear_value d1
  refine Keeps.ite ?_ ?_
  · exact h
  · refine Keeps.ite ?_ ?_
    · exact h3
    · split
      · exact State.unsealed_keeps h3 ..
      · split
        · with_reducible apply State.unsealed_keeps
          refine Keeps.of_snd (by assumption) ?_
          exact State.checkFail_keeps h3 ..
        · refine Keeps.of_snd (by assumption) ?_
          exact State.checkFail_keeps h3 ..

theorem execUnsealDone_keeps {s t : State} (item : Nat) (e : execUnsealDone item s = .next t) : Keeps s t := by
  unfold execUnsealDone at e
  injection e with e
  subst e
  have h := Keeps.refl s
  split
  · exact State.onward_keeps (State.unsealEnd_keeps h ..) ..
  · exact h

theorem State.rerun_keeps {z s : State} (h : Keeps z s) (it : Item) : Keeps z (s.rerun it) := by
  unfold State.rerun
  extract_lets d0 d1
  have h6 : Keeps z d1 := by
    dsimp only [d1]
    split
    · exact Keeps.ite (State.restartMove_keeps h ..) h
    · exact h
  clear_value d1
  refine Keeps.ite ?_ ?_
  · exact State.modItem_keeps (State.dropFlows_keeps h6 ..) ..
  · split
    · refine Keeps.ite ?_ ?_
      · extract_lets d7 d8 d9 d10
        have h11 : Keeps z d7 := State.undoMove_keeps h ..
        clear_value d7
        have h12 : Keeps z d9 := State.newId_keeps h11 ..
        clear_value d9
        exact Keeps.plain h12
      · exact h
    · split
      · exact Keeps.ite (State.setStage_keeps (State.dropItem_keeps (State.checkFail_keeps h ..) ..) ..) (State.dropItem_keeps
          (State.readLost_keeps h ..) ..)
      · exact State.modItem_keeps (State.dropFlows_keeps h ..) ..

theorem State.lastFailure_keeps {z s : State} (h : Keeps z s) (e' : Nat) : Keeps z (s.lastFailure e') := by
  unfold State.lastFailure
  extract_lets d0
  exact Keeps.foldl _ (State.raise_keeps (State.dropInject_keeps h ..) ..) fun t1 x2 h3 => State.rerun_keeps h3 ..

theorem State.relayFails_keeps {z s : State} (h : Keeps z s) (e' : Nat) : Keeps z (s.relayFails e') := by
  unfold State.relayFails
  exact Keeps.ite h (Keeps.ite (State.lastFailure_keeps h ..) (State.fenceRelay_keeps h ..))

theorem execRelayEngineFailure_keeps {s t : State} (e' : Nat) (e : execRelayEngineFailure e' s = .next t) : Keeps s t := by
  unfold execRelayEngineFailure at e
  injection e with e
  subst e
  have h := Keeps.refl s
  exact State.onward_keeps (State.relayFails_keeps h ..) ..

theorem execLastRelayEngineFailure_keeps {s t : State} (e' : Nat) (e : execLastRelayEngineFailure e' s = .next t) : Keeps s t := by
  unfold execLastRelayEngineFailure at e
  injection e with e
  subst e
  have h := Keeps.refl s
  exact Keeps.ite (State.onward_keeps (State.lastFailure_keeps h ..) ..) h

theorem State.finishMove_keeps {z s : State} (h : Keeps z s) (m : Move) (done : State → State) (hdone : ∀ a0, Keeps z a0 → Keeps z
    (done a0)) :
    Keeps z (s.finishMove m done) := by
  unfold State.finishMove
  refine Keeps.ite ?_ ?_
  · with_reducible apply State.asInjected_keeps
    · exact h
    · intro x0 h1
      exact State.relayFails_keeps h1 ..
  · refine Keeps.ite ?_ ?_
    · extract_lets d2
      with_reducible apply State.asInjected_keeps
      · exact h
      · intro x3 h4
        exact State.destFault_keeps h4 ..
    · split
      · exact State.destFault_keeps h ..
      · apply hdone
        exact h

theorem State.raiseAgain_keeps {z s : State} (h : Keeps z s) (m : Move) : Keeps z (s.raiseAgain m) := by
  unfold State.raiseAgain
  exact State.addItem_keeps (State.abandon_keeps h ..) ..

theorem State.moveEnds_keeps {z s : State} (h : Keeps z s) (m : Move) : Keeps z (s.moveEnds m) := by
  unfold State.moveEnds
  refine Keeps.ite ?_ ?_
  · exact h
  · with_reducible apply State.finishMove_keeps
    · exact h
    · intro x0 h1
      exact Keeps.ite (State.abandon_keeps h1 ..) (Keeps.ite (State.raiseAgain_keeps h1 ..) (State.switchTo_keeps h1 ..))

theorem execMoveSwitch_keeps {s t : State} (move : Nat) (e : execMoveSwitch move s = .next t) : Keeps s t := by
  unfold execMoveSwitch at e
  injection e with e
  subst e
  have h := Keeps.refl s
  split
  · exact Keeps.ite (State.onward_keeps (State.moveEnds_keeps h ..) ..) h
  · exact h

theorem State.sealEnds_keeps {z s : State} (h : Keeps z s) (m : Move) : Keeps z (s.sealEnds m) := by
  unfold State.sealEnds
  split
  · refine Keeps.ite ?_ ?_
    · exact h
    · with_reducible apply State.finishMove_keeps
      · exact h
      · intro x0 h1
        exact Keeps.ite (State.closeSeal_keeps h1 ..) (State.raiseAgain_keeps h1 ..)
  · exact h

theorem execSealClose_keeps {s t : State} (move : Nat) (e : execSealClose move s = .next t) : Keeps s t := by
  unfold execSealClose at e
  injection e with e
  subst e
  have h := Keeps.refl s
  split
  · exact Keeps.ite (State.onward_keeps (State.sealEnds_keeps h ..) ..) h
  · exact h

theorem State.sealLate_keeps {z s : State} (h : Keeps z s) (m : Move) : Keeps z (s.sealLate m) := by
  unfold State.sealLate
  exact Keeps.ite h (State.raiseAgain_keeps h ..)

theorem execSealCloseLimit_keeps {s t : State} (move : Nat) (e : execSealCloseLimit move s = .next t) : Keeps s t := by
  unfold execSealCloseLimit at e
  injection e with e
  subst e
  have h := Keeps.refl s
  split
  · exact Keeps.ite (State.onward_keeps (State.sealLate_keeps h ..) ..) h
  · exact h

theorem State.sealIdleEnds_keeps {z s : State} (h : Keeps z s) (lpn : Nat) : Keeps z (s.sealIdleEnds lpn) := by
  unfold State.sealIdleEnds
  exact Keeps.ite (State.addItem_keeps h ..) h

theorem execSealIdleTimer_keeps {s t : State} (lpn : Nat) (e : execSealIdleTimer lpn s = .next t) : Keeps s t := by
  unfold execSealIdleTimer at e
  injection e with e
  subst e
  have h := Keeps.refl s
  exact State.onward_keeps (State.sealIdleEnds_keeps h ..) ..

theorem State.freeTicket_keeps {z s : State} (h : Keeps z s) (ticket : Nat) : Keeps z (s.freeTicket ticket) := by
  unfold State.freeTicket
  split
  · exact h
  · extract_lets d0 d1 d2
    exact Keeps.ite h (State.freeSpace_keeps (Keeps.plain h) ..)

theorem execSpaceFreed_keeps {s t : State} (ticket : Nat) (e : execSpaceFreed ticket s = .next t) : Keeps s t := by
  unfold execSpaceFreed at e
  injection e with e
  subst e
  have h := Keeps.refl s
  exact State.onward_keeps (State.freeTicket_keeps h ..) ..

theorem State.buildEnds_keeps {z s : State} (h : Keeps z s) (it : Item) : Keeps z (s.buildEnds it) := by
  unfold State.buildEnds
  refine Keeps.ite ?_ ?_
  · exact h
  · extract_lets d0 d1 d2 d3 d4 d5 d6
    have h7 : Keeps z d1 := State.checkBuild_keeps h ..
    clear_value d1
    have h8 : Keeps z d4 := State.dropItem_keeps (State.newVersion_keeps h7 ..) ..
    clear_value d4
    have h9 : Keeps z d6 := Keeps.plain h8
    clear_value d6
    exact State.buildJobs_keeps (State.reseal_keeps h9 ..) ..

theorem execBuildDone_keeps {s t : State} (item : Nat) (e : execBuildDone item s = .next t) : Keeps s t := by
  unfold execBuildDone at e
  injection e with e
  subst e
  have h := Keeps.refl s
  split
  · exact State.onward_keeps (State.buildEnds_keeps h ..) ..
  · exact h

theorem execVersionRetired_keeps {s t : State} (region slot : Nat) (e : execVersionRetired region slot s = .next t) : Keeps s t := by
  unfold execVersionRetired at e
  injection e with e
  subst e
  have h := Keeps.refl s
  exact State.onward_keeps (State.retire_keeps h ..) ..

theorem execRebuildRequest_keeps {s t : State} (region : Nat) (e : execRebuildRequest region s = .next t) : Keeps s t := by
  unfold execRebuildRequest at e
  injection e with e
  subst e
  have h := Keeps.refl s
  exact Keeps.ite (State.onward_keeps (State.requestBuild_keeps h ..) ..) h

theorem State.dropPromotion_keeps {z s : State} (h : Keeps z s) (lpn : Nat) : Keeps z (s.dropPromotion lpn) := by
  unfold State.dropPromotion
  exact Keeps.plain h

theorem State.bypassAll_keeps {z s : State} (h : Keeps z s) (lpn : Nat) : Keeps z (s.bypassAll lpn) := by
  unfold State.bypassAll
  exact Keeps.foldl _ h fun t0 x1 h2 => State.bypassRead_keeps h2 ..

theorem State.slotWait_keeps {z s : State} (h : Keeps z s) (id : Nat) : Keeps z (s.slotWait id) := by
  unfold State.slotWait
  split
  · exact h
  · extract_lets d0 d1 d2
    have h3 : Keeps z d2 := by
      dsimp only [d2]
      clear_value d0
      split
      · exact State.undoMove_keeps h ..
      · exact h
    clear_value d2
    exact Keeps.ite h (State.bypassAll_keeps (State.dropPromotion_keeps h3 ..) ..)

theorem execPromoteSlotWait_keeps {s t : State} (req : Nat) (e : execPromoteSlotWait req s = .next t) : Keeps s t := by
  unfold execPromoteSlotWait at e
  injection e with e
  subst e
  have h := Keeps.refl s
  exact State.onward_keeps (State.slotWait_keeps h ..) ..

theorem State.grant_keeps {z s : State} (h : Keeps z s) (id : Nat) : Keeps z (s.grant id) := by
  unfold State.grant
  extract_lets d0
  have h1 : Keeps z d0 := by
    dsimp only [d0]
    split
    · exact Keeps.ite (State.dispatch_keeps (State.setStage_keeps h ..) ..) h
    · exact h
  clear_value d0
  exact Keeps.foldl _ h1 fun t2 x3 h4 => State.takeSpace_keeps h4 ..

theorem execSlotCreditGrant_keeps {s t : State} (req : Nat) (e : execSlotCreditGrant req s = .next t) : Keeps s t := by
  unfold execSlotCreditGrant at e
  injection e with e
  subst e
  have h := Keeps.refl s
  exact Keeps.ite (State.onward_keeps (State.grant_keeps h ..) ..) h

theorem State.unbacked_keeps {z s : State} (h : Keeps z s) (lpn : Nat) : Keeps z (s.unbacked lpn) := by
  unfold State.unbacked
  exact State.bump_keeps (State.raisePage_keeps (State.losePage_keeps h ..) ..) ..

theorem State.backingEnds_keeps {z s : State} (h : Keeps z s) (id : Nat) : Keeps z (s.backingEnds id) := by
  unfold State.backingEnds
  refine Keeps.ite ?_ ?_
  · exact h
  · split
    · exact Keeps.ite (State.writeDone_keeps (State.unbacked_keeps h ..) ..) h
    · exact State.unbacked_keeps h ..
    · exact h

theorem execBackingTimeout_keeps {s t : State} (req : Nat) (e : execBackingTimeout req s = .next t) : Keeps s t := by
  unfold execBackingTimeout at e
  injection e with e
  subst e
  have h := Keeps.refl s
  exact State.onward_keeps (State.backingEnds_keeps h ..) ..

theorem execDemotionChoice_keeps {s t : State} (lpns : List Nat) (e : execDemotionChoice lpns s = .next t) : Keeps s t := by
  unfold execDemotionChoice at e
  injection e with e
  subst e
  have h := Keeps.refl s
  exact Keeps.ite h (Keeps.ite (State.onward_keeps (State.compactList_keeps (State.demoteBuiltIn_keeps h ..) ..) ..) (Keeps.ite
    (State.onward_keeps (State.demoteBuiltIn_keeps h ..) ..) h))

theorem execSlotReclaim_keeps {s t : State} (lpn : Nat) (e : execSlotReclaim lpn s = .next t) : Keeps s t := by
  unfold execSlotReclaim at e
  injection e with e
  subst e
  have h := Keeps.refl s
  exact Keeps.ite (State.onward_keeps (State.reclaim_keeps h ..) ..) h

theorem mwfFrom_again {f : PageUse → PageUse} (lo : Option Nat) (m : List (Nat × PageUse)) (h : mwfFrom PageUse.zero lo m = true) :
    mwfFrom PageUse.zero lo ((m.map fun x => (x.1, f x.2)).filter fun x => x.2 != PageUse.zero) = true := by
  induction m generalizing lo with
  | nil => rfl
  | cons y r ih =>
    obtain ⟨a, u⟩ := y
    rw [mwfFrom_cons] at h
    simp only [Bool.and_eq_true, decide_eq_true_eq] at h
    have g := ih (some a) h.2
    simp only [List.map_cons, List.filter_cons]
    split
    · rw [mwfFrom_cons]
      simp_all
    · exact mwfFrom_lower _ lo a _ g h.1.1

theorem State.epochEnds_keeps {z s : State} (h : Keeps z s) : Keeps z s.epochEnds := by
  have g : Keeps z (if s.core1Runs ∧ !s.policyPromotes then s.promoteDue (s.map.uses.map (·.1)) else s) :=
    Keeps.ite (State.promoteDue_keeps h _) h
  unfold State.epochEnds
  generalize (if s.core1Runs ∧ !s.policyPromotes then s.promoteDue (s.map.uses.map (·.1)) else s) = t at g ⊢
  exact Keeps.upd rfl (fun f => { f with
    table := ⟨f.table.1, f.table.2, f.table.3, f.table.4, f.table.5, f.table.6⟩
    uses := mwfFrom_again (f := fun u => { u with accesses := 0, bypasses := 0 }) none _ f.uses }) g

theorem execCounterEpoch_keeps {s t : State} (e : execCounterEpoch s = .next t) : Keeps s t := by
  unfold execCounterEpoch at e
  injection e with e
  subst e
  have h := Keeps.refl s
  exact Keeps.ite (State.onward_keeps (State.epochEnds_keeps h ..) ..) h

theorem State.settleMove_keeps {z s : State} (h : Keeps z s) (lpn : Nat) : Keeps z (s.settleMove lpn) := by
  unfold State.settleMove
  extract_lets d0 d1
  have h2 : Keeps z d0 := Keeps.ite (State.reclaim_keeps h ..) h
  clear_value d0
  exact Keeps.ite h2 (Keeps.ite (State.raiseMove_keeps h2 ..) (Keeps.ite (State.raiseMove_keeps h2 ..) h2))

theorem execProvisionSettleMove_keeps {s t : State} (lpn : Nat) (e : execProvisionSettleMove lpn s = .next t) : Keeps s t := by
  unfold execProvisionSettleMove at e
  injection e with e
  subst e
  have h := Keeps.refl s
  exact Keeps.ite (State.onward_keeps (State.resettle_keeps (State.settleMove_keeps h ..) ..) ..) (State.onward_keeps
    (State.resettle_keeps h ..) ..)

theorem execPolicyHookCall_keeps {s t : State} (hook : Nat) (lpns : List Nat) (base : Nat) (e : execPolicyHookCall hook lpns base s =
    .next t) :
    Keeps s t := by
  unfold execPolicyHookCall at e
  injection e with e
  subst e
  have h := Keeps.refl s
  exact Keeps.ite (State.callHook_keeps h ..) h

theorem execPolicyHookReply_keeps {s t : State} (value : Nat) (e : execPolicyHookReply value s = .next t) : Keeps s t := by
  unfold execPolicyHookReply at e
  injection e with e
  subst e
  have h := Keeps.refl s
  exact State.onward_keeps (State.hookReply_keeps h ..) ..

theorem execPolicyHookDeadline_keeps {s t : State} (e : execPolicyHookDeadline s = .next t) : Keeps s t := by
  unfold execPolicyHookDeadline at e
  injection e with e
  subst e
  have h := Keeps.refl s
  exact Keeps.ite (State.onward_keeps (State.policyFault_keeps h ..) ..) h

theorem State.modLapEng_keeps {z s : State} (h : Keeps z s) (e' : Nat) (f : Engine → Engine) : Keeps z (s.modLapEng e' f) := by
  unfold State.modLapEng
  exact Keeps.ite (State.modStride_keeps h ..) (State.modRelay_keeps h ..)

theorem State.lapStart_keeps {z s : State} (h : Keeps z s) (e' : Nat) (forced aged : Bool) : Keeps z (s.lapStart e' forced aged) := by
  unfold State.lapStart
  exact State.modLapEng_keeps (Keeps.plain h) ..

theorem State.lapNow_keeps {z s : State} (h : Keeps z s) (e' : Nat) (aged : Bool) : Keeps z (s.lapNow e' aged) := by
  unfold State.lapNow
  exact Keeps.ite (State.lapStart_keeps h ..) h

theorem State.lapDue_keeps {z s : State} (h : Keeps z s) : Keeps z s.lapDue := by
  unfold State.lapDue
  refine Keeps.ite ?_ ?_
  · exact h
  · refine Keeps.ite ?_ ?_
    · exact State.bump_keeps h ..
    · split
      · exact State.lapStart_keeps h ..
      · exact h

theorem State.lapDrained_keeps {z s : State} (h : Keeps z s) : Keeps z s.lapDrained := by
  unfold State.lapDrained
  split
  · exact Keeps.ite h (Keeps.plain h)
  · exact h

theorem State.lapEnd_keeps {z s : State} (h : Keeps z s) (e' : Nat) : Keeps z (s.lapEnd e') := by
  unfold State.lapEnd
  exact State.modLapEng_keeps (Keeps.plain h) ..

theorem State.lapTimeout_keeps {z s : State} (h : Keeps z s) : Keeps z s.lapTimeout := by
  unfold State.lapTimeout
  split
  · exact Keeps.ite h (State.bump_keeps (State.lapEnd_keeps h ..) ..)
  · exact h

theorem State.lapFence_keeps {z s : State} (h : Keeps z s) (e' : Nat) : Keeps z (s.lapFence e') := by
  unfold State.lapFence
  exact Keeps.ite (State.fenceStride_keeps h ..) (State.relayFails_keeps h ..)

theorem State.lapFailed_keeps {z s : State} (h : Keeps z s) (e' : Nat) (aged : Bool) : Keeps z (s.lapFailed e' aged) := by
  unfold State.lapFailed
  exact State.wakeAll_keeps (State.raise_keeps (State.bump_keeps h ..) ..) ..

theorem State.lapAdvance_keeps {z s : State} (h : Keeps z s) (l : Lap) : Keeps z (s.lapAdvance l) := by
  unfold State.lapAdvance
  exact Keeps.ite h (Keeps.plain h)

theorem State.lapDone_keeps {z s : State} (h : Keeps z s) (pass : Bool) : Keeps z (s.lapDone pass) := by
  unfold State.lapDone
  split
  · refine Keeps.ite ?_ ?_
    · exact h
    · extract_lets d0 d1 d2 d3
      have h4 : Keeps z d1 := State.modLapEng_keeps (State.lapEnd_keeps h ..) ..
      clear_value d1
      have h5 : Keeps z d3 := by
        dsimp only [d3]
        refine Keeps.ite ?_ ?_
        · with_reducible apply State.fireInject_keeps
          · exact h4
          · intro x6 h7
            dsimp only [d2]
            exact State.lapFence_keeps (State.lapFailed_keeps h7 ..) ..
        · refine Keeps.ite ?_ ?_
          · exact State.bump_keeps h4 ..
          · dsimp only [d2]
            exact State.lapFence_keeps (State.lapFailed_keeps h4 ..) ..
      clear_value d3
      exact State.lapAdvance_keeps h5 ..
  · exact h

theorem State.readmit_keeps {z s : State} (h : Keeps z s) (e' : Nat) (pass : Bool) : Keeps z (s.readmit e' pass) := by
  unfold State.readmit
  refine Keeps.ite ?_ ?_
  · extract_lets d0
    have h1 : Keeps z d0 := State.modLapEng_keeps h ..
    clear_value d0
    exact Keeps.ite (State.raise_keeps (State.bump_keeps h1 ..) ..) (State.lapFailed_keeps h1 ..)
  · exact h

theorem State.tapStep_keeps {z s : State} (h : Keeps z s) (t' : Tap) : Keeps z (s.tapStep t') := by
  unfold State.tapStep
  refine Keeps.ite ?_ ?_
  · exact h
  · extract_lets d0 d1 d2
    have h3 : Keeps z d0 := State.drawn_keeps h ..
    clear_value d0
    have h4 : Keeps z d2 := Keeps.plain h3
    clear_value d2
    split
    · exact State.emit_keeps h4 ..
    · exact h4

theorem State.viaConfig_keeps {z s : State} (h : Keeps z s) (p : Nat) (l : LinkId) (f : State → State) (hf : ∀ a0, Keeps z a0 → Keeps
    z (f a0)) :
    Keeps z (s.viaConfig p l f) := by
  unfold State.viaConfig
  refine Keeps.ite ?_ ?_
  · with_reducible apply State.onward_keeps
    apply hf
    exact State.wakeLink_keeps h ..
  · exact h

theorem State.viaBar0_keeps {z s : State} (h : Keeps z s) (p : Nat) (l : LinkId) (f : State → State) (hf : ∀ a0, Keeps z a0 → Keeps z
    (f a0)) :
    Keeps z (s.viaBar0 p l f) := by
  unfold State.viaBar0
  refine Keeps.ite ?_ ?_
  · with_reducible apply State.onward_keeps
    apply hf
    exact State.wakeLink_keeps h ..
  · exact h

theorem execConfigWrite_keeps {s t : State} (p : Nat) (l : LinkId) (off value : Nat) (e : execConfigWrite p l off value s = .next t) :
    Keeps s t := by
  unfold execConfigWrite at e
  injection e with e
  subst e
  have h := Keeps.refl s
  with_reducible apply State.viaConfig_keeps
  · exact h
  · intro x0 h1
    exact State.configWrite_keeps h1 ..

theorem execAtsEnableClear_keeps {s t : State} (p : Nat) (l : LinkId) (e : execAtsEnableClear p l s = .next t) : Keeps s t := by
  unfold execAtsEnableClear at e
  injection e with e
  subst e
  have h := Keeps.refl s
  with_reducible apply State.viaConfig_keeps
  · exact h
  · intro x0 h1
    exact State.setAts_keeps h1 ..

theorem execMsixUnmask_keeps {s t : State} (p : Nat) (l : LinkId) (vec : Nat) (e : execMsixUnmask p l vec s = .next t) :
    Keeps s t := by
  unfold execMsixUnmask at e
  injection e with e
  subst e
  have h := Keeps.refl s
  with_reducible apply State.viaBar0_keeps
  · exact h
  · intro x0 h1
    exact State.unmask_keeps h1 ..

theorem execMsixEnableClear_keeps {s t : State} (p : Nat) (l : LinkId) (e : execMsixEnableClear p l s = .next t) : Keeps s t := by
  unfold execMsixEnableClear at e
  injection e with e
  subst e
  have h := Keeps.refl s
  with_reducible apply State.viaConfig_keeps
  · exact h
  · intro x0 h1
    exact State.setMsixCtl_keeps h1 ..

theorem execFunctionLevelReset_keeps {s t : State} (p : Nat) (l : LinkId) (e : execFunctionLevelReset p l s = .next t) :
    Keeps s t := by
  unfold execFunctionLevelReset at e
  injection e with e
  subst e
  have h := Keeps.refl s
  with_reducible apply State.viaConfig_keeps
  · exact h
  · intro x0 h1
    exact State.resetLink_keeps h1 ..

theorem execHotReset_keeps {s t : State} (p : Nat) (l : LinkId) (e : execHotReset p l s = .next t) : Keeps s t := by
  unfold execHotReset at e
  injection e with e
  subst e
  have h := Keeps.refl s
  with_reducible apply State.viaConfig_keeps
  · exact h
  · intro x0 h1
    exact State.modLink_keeps (State.resetLink_keeps h1 ..) ..

theorem execPerstAssert_keeps {s t : State} (p : Nat) (e : execPerstAssert p s = .next t) : Keeps s t := by
  unfold execPerstAssert at e
  injection e with e
  subst e
  have h := Keeps.refl s
  exact Keeps.ite (State.onward_keeps (State.assertPerst_keeps h ..) ..) h

theorem execPerstRelease_keeps {s t : State} (p : Nat) (e : execPerstRelease p s = .next t) : Keeps s t := by
  unfold execPerstRelease at e
  injection e with e
  subst e
  have h := Keeps.refl s
  exact Keeps.ite (State.onward_keeps (State.releasePerst_keeps h ..) ..) h

theorem execD3hotEntry_keeps {s t : State} (p : Nat) (l : LinkId) (e : execD3hotEntry p l s = .next t) : Keeps s t := by
  unfold execD3hotEntry at e
  injection e with e
  subst e
  have h := Keeps.refl s
  with_reducible apply State.viaConfig_keeps
  · exact h
  · intro x0 h1
    exact State.toD3hot_keeps h1 ..

theorem execD0Return_keeps {s t : State} (p : Nat) (l : LinkId) (e : execD0Return p l s = .next t) : Keeps s t := by
  unfold execD0Return at e
  injection e with e
  subst e
  have h := Keeps.refl s
  with_reducible apply State.viaConfig_keeps
  · exact h
  · intro x0 h1
    exact State.toD0_keeps h1 ..

theorem execPmeTurnOff_keeps {s t : State} (p : Nat) (l : LinkId) (e : execPmeTurnOff p l s = .next t) : Keeps s t := by
  unfold execPmeTurnOff at e
  injection e with e
  subst e
  have h := Keeps.refl s
  exact Keeps.ite (State.modLink_keeps (State.emit_keeps h ..) ..) h

theorem execLinkUp_keeps {s t : State} (p : Nat) (l : LinkId) (hostSpeed hostWidth : Nat) (partnerFlit ask68 : Bool) (e : execLinkUp
    p l hostSpeed hostWidth partnerFlit ask68 s = .next t) :
    Keeps s t := by
  unfold execLinkUp at e
  injection e with e
  subst e
  have h := Keeps.refl s
  exact State.onward_keeps (State.upLink_keeps h ..) ..

theorem execLinkLoss_keeps {s t : State} (p : Nat) (l : LinkId) (e : execLinkLoss p l s = .next t) : Keeps s t := by
  unfold execLinkLoss at e
  injection e with e
  subst e
  have h := Keeps.refl s
  exact State.onward_keeps (State.lossOf_keeps h ..) ..

theorem execFatalAerError_keeps {s t : State} (p : Nat) (l : LinkId) (e : execFatalAerError p l s = .next t) : Keeps s t := by
  unfold execFatalAerError at e
  injection e with e
  subst e
  have h := Keeps.refl s
  exact Keeps.ite (State.onward_keeps (State.freeze_keeps h ..) ..) h

theorem execIoDieInternalError_keeps {s t : State} (p : Nat) (e : execIoDieInternalError p s = .next t) : Keeps s t := by
  unfold execIoDieInternalError at e
  injection e with e
  subst e
  have h := Keeps.refl s
  exact Keeps.ite (State.onward_keeps (State.freeze_keeps h ..) ..) h

theorem execPortDrained_keeps {s t : State} (p : Nat) (e : execPortDrained p s = .next t) : Keeps s t := by
  unfold execPortDrained at e
  injection e with e
  subst e
  have h := Keeps.refl s
  exact State.onward_keeps (State.drainPort_keeps h ..) ..

theorem execL1IdleExpiry_keeps {s t : State} (p : Nat) (l : LinkId) (e : execL1IdleExpiry p l s = .next t) : Keeps s t := by
  unfold execL1IdleExpiry at e
  injection e with e
  subst e
  have h := Keeps.refl s
  extract_lets d0
  exact Keeps.ite (State.modLink_keeps h ..) h

theorem execL1Exit_keeps {s t : State} (p : Nat) (l : LinkId) (e : execL1Exit p l s = .next t) : Keeps s t := by
  unfold execL1Exit at e
  injection e with e
  subst e
  have h := Keeps.refl s
  exact State.wakeLink_keeps h ..

theorem State.l0pLink_keeps {z s : State} (h : Keeps z s) (p from_ to_ : Nat) : Keeps z (s.l0pLink p from_ to_) := by
  unfold State.l0pLink
  exact Keeps.ite (State.modLink_keeps h ..) h

theorem execL0pNarrow_keeps {s t : State} (p : Nat) (e : execL0pNarrow p s = .next t) : Keeps s t := by
  unfold execL0pNarrow at e
  injection e with e
  subst e
  have h := Keeps.refl s
  exact Keeps.ite h (State.l0pLink_keeps h ..)

theorem execL0pWiden_keeps {s t : State} (p : Nat) (e : execL0pWiden p s = .next t) : Keeps s t := by
  unfold execL0pWiden at e
  injection e with e
  subst e
  have h := Keeps.refl s
  exact State.l0pLink_keeps h ..

theorem execL0pHostRequest_keeps {s t : State} (p width : Nat) (e : execL0pHostRequest p width s = .next t) : Keeps s t := by
  unfold execL0pHostRequest at e
  injection e with e
  subst e
  have h := Keeps.refl s
  exact Keeps.ite (Keeps.ite h (State.l0pLink_keeps h ..)) (Keeps.ite (State.l0pLink_keeps h ..) h)

theorem execHdmDecoderCommit_keeps {s t : State} (p : Nat) (l : LinkId) (d base : Nat) (size ways : Nat) (gran skip pos : Nat)
    (commit : Bool) (e : execHdmDecoderCommit p l d base size ways gran skip pos commit s = .next t) :
    Keeps s t := by
  unfold execHdmDecoderCommit at e
  injection e with e
  subst e
  have h := Keeps.refl s
  with_reducible apply State.viaBar0_keeps
  · exact h
  · intro x0 h1
    exact State.hdmCommit_keeps h1 ..

theorem State.viaMailbox_keeps {z s : State} (h : Keeps z s) (p : Nat) (l : LinkId) (f : State → State) (hf : ∀ a0, Keeps z a0 →
    Keeps z (f a0)) :
    Keeps z (s.viaMailbox p l f) := by
  unfold State.viaMailbox
  with_reducible apply State.viaBar0_keeps
  · exact h
  · intro x0 h1
    refine Keeps.ite ?_ ?_
    · exact State.mailboxDone_keeps h1 ..
    · apply hf
      exact h1

theorem execIdentifyMemoryDevice_keeps {s t : State} (p : Nat) (l : LinkId) (e : execIdentifyMemoryDevice p l s = .next t) :
    Keeps s t := by
  unfold execIdentifyMemoryDevice at e
  injection e with e
  subst e
  have h := Keeps.refl s
  with_reducible apply State.viaMailbox_keeps
  · exact h
  · intro x0 h1
    exact State.mailboxDone_keeps h1 ..

theorem execGetPoisonList_keeps {s t : State} (p : Nat) (l : LinkId) (e : execGetPoisonList p l s = .next t) : Keeps s t := by
  unfold execGetPoisonList at e
  injection e with e
  subst e
  have h := Keeps.refl s
  with_reducible apply State.viaMailbox_keeps
  · exact h
  · intro x0 h1
    exact State.givePoison_keeps h1 ..

theorem execClearPoison_keeps {s t : State} (p : Nat) (l : LinkId) (dpa : Nat) (e : execClearPoison p l dpa s = .next t) :
    Keeps s t := by
  unfold execClearPoison at e
  injection e with e
  subst e
  have h := Keeps.refl s
  with_reducible apply State.viaMailbox_keeps
  · exact h
  · intro x0 h1
    exact State.clearPoison_keeps h1 ..

theorem execUnsupportedMailboxCommand_keeps {s t : State} (p : Nat) (l : LinkId) (_opcode : Nat) (e : execUnsupportedMailboxCommand p
    l _opcode s = .next t) :
    Keeps s t := by
  unfold execUnsupportedMailboxCommand at e
  injection e with e
  subst e
  have h := Keeps.refl s
  with_reducible apply State.viaBar0_keeps
  · exact h
  · intro x0 h1
    exact State.mailboxDone_keeps h1 ..

theorem State.failTo_keeps {z s : State} (h : Keeps z s) (code : Nat) : Keeps z (s.failTo code) := by
  unfold State.failTo
  exact Keeps.ite (State.falseStart_keeps (State.raise_keeps h ..) ..) h

theorem State.trackOn_keeps {z s : State} (h : Keeps z s) : Keeps z s.trackOn := by
  unfold State.trackOn
  exact Keeps.ite (Keeps.sized h) h

theorem execTrackPowerOn_keeps {s t : State} (e : execTrackPowerOn s = .next t) : Keeps s t := by
  unfold execTrackPowerOn at e
  injection e with e
  subst e
  have h := Keeps.refl s
  exact State.trackOn_keeps h ..

theorem execTrackPowerLoss_keeps {s t : State} (e : execTrackPowerLoss s = .next t) : Keeps s t := by
  unfold execTrackPowerLoss at e
  injection e with e
  subst e
  have h := Keeps.refl s
  exact Keeps.ite h (State.powerLoss_keeps h ..)

theorem execSysRstAssert_keeps {s t : State} (e : execSysRstAssert s = .next t) : Keeps s t := by
  unfold execSysRstAssert at e
  injection e with e
  subst e
  have h := Keeps.refl s
  exact Keeps.ite h (State.holdReset_keeps h ..)

theorem execSysRstRelease_keeps {s t : State} (node : BitVec 4) (bankOk otherBankOk : Bool) (flashFound crcA crcB : Bool) (e :
    execSysRstRelease node bankOk otherBankOk flashFound crcA crcB s = .next t) :
    Keeps s t := by
  unfold execSysRstRelease at e
  injection e with e
  subst e
  have h := Keeps.refl s
  exact Keeps.ite (State.leaveReset_keeps h ..) h

theorem execTrainingDone_keeps {s t : State} (chans : List ChanTrain) (e : execTrainingDone chans s = .next t) : Keeps s t := by
  unfold execTrainingDone at e
  injection e with e
  subst e
  have h := Keeps.refl s
  exact Keeps.ite (State.trained_keeps h ..) h

theorem State.fieldUp_keeps {z s : State} (h : Keeps z s) : Keeps z s.fieldUp := by
  unfold State.fieldUp
  exact Keeps.ite (Keeps.plain h) h

theorem execFieldPgRise_keeps {s t : State} (e : execFieldPgRise s = .next t) : Keeps s t := by
  unfold execFieldPgRise at e
  injection e with e
  subst e
  have h := Keeps.refl s
  exact State.fieldUp_keeps h ..

theorem execFieldPgTimeout_keeps {s t : State} (e : execFieldPgTimeout s = .next t) : Keeps s t := by
  unfold execFieldPgTimeout at e
  injection e with e
  subst e
  have h := Keeps.refl s
  exact Keeps.ite (State.failTo_keeps h ..) h

theorem State.fieldLost_keeps {z s : State} (h : Keeps z s) : Keeps z s.fieldLost := by
  unfold State.fieldLost
  exact Keeps.ite (State.failTo_keeps (Keeps.plain h) ..) h

theorem execFieldPgFall_keeps {s t : State} (e : execFieldPgFall s = .next t) : Keeps s t := by
  unfold execFieldPgFall at e
  injection e with e
  subst e
  have h := Keeps.refl s
  exact State.fieldLost_keeps h ..

theorem execSprintInitDone_keeps {s t : State} (pcBad : List (Nat × Nat)) (perst : BitVec 4) (e : execSprintInitDone pcBad perst s =
    .next t) :
    Keeps s t := by
  unfold execSprintInitDone at e
  injection e with e
  subst e
  have h := Keeps.refl s
  exact Keeps.ite (State.onward_keeps (State.sprintReady_keeps h ..) ..) h

theorem execPauseDemotionsDone_keeps {s t : State} (e : execPauseDemotionsDone s = .next t) : Keeps s t := by
  unfold execPauseDemotionsDone at e
  injection e with e
  subst e
  have h := Keeps.refl s
  exact State.onward_keeps (State.pauseStep_keeps h ..) ..

theorem State.pllLost_keeps {z s : State} (h : Keeps z s) (hub : Bool) : Keeps z (s.pllLost hub) := by
  unfold State.pllLost
  extract_lets d0 d1
  exact Keeps.ite h (State.failTo_keeps (Keeps.plain h) ..)

theorem execPllLockLoss_keeps {s t : State} (hub : Bool) (e : execPllLockLoss hub s = .next t) : Keeps s t := by
  unfold execPllLockLoss at e
  injection e with e
  subst e
  have h := Keeps.refl s
  exact State.pllLost_keeps h ..

theorem State.ddrPllLost_keeps {z s : State} (h : Keeps z s) (q : Nat) : Keeps z (s.ddrPllLost q) := by
  unfold State.ddrPllLost
  extract_lets d0 d1
  exact Keeps.ite h (Keeps.foldl _ (Keeps.plain h) fun t2 x3 h4 => Keeps.ite (State.unreadable_keeps h4 ..) h4)

theorem execDdrPllLockLoss_keeps {s t : State} (q : Nat) (e : execDdrPllLockLoss q s = .next t) : Keeps s t := by
  unfold execDdrPllLockLoss at e
  injection e with e
  subst e
  have h := Keeps.refl s
  exact State.onward_keeps (State.ddrPllLost_keeps h ..) ..

theorem State.sensors_keeps {z s : State} (h : Keeps z s) (hub io : List Int) : Keeps z (s.sensors hub io) := by
  unfold State.sensors
  refine Keeps.ite ?_ ?_
  · exact h
  · extract_lets d0 d1
    have h2 : Keeps z d1 := Keeps.plain h
    clear_value d1
    exact Keeps.ite (State.failTo_keeps h2 ..) h2

theorem execDieSensorPoll_keeps {s t : State} (hub io : List Int) (e : execDieSensorPoll hub io s = .next t) : Keeps s t := by
  unfold execDieSensorPoll at e
  injection e with e
  subst e
  have h := Keeps.refl s
  exact State.sensors_keeps h ..

theorem State.throttleStep_keeps {z s : State} (h : Keeps z s) (peak : Int) (avg trk : Nat) :
    Keeps z (s.throttleStep peak avg trk) := by
  have g : ∀ t : Nat, t ≤ 6 ∨ t = s.run.throttle → Keeps z { s with run := { s.run with
    powerNow := avg, powerTrack := trk, throttle := t } } := fun t ht =>
    Keeps.upd rfl (fun f => { f with throttle := (by
      rcases ht with ht | ht
      · exact ht
      · rw [ht]; exact f.throttle) }) h
  have g0 : Keeps z { s with run := { s.run with powerNow := avg, powerTrack := trk } } := g _ (.inr rfl)
  unfold State.throttleStep
  dsimp only
  refine Keeps.ite g0 (Keeps.ite ?_ (Keeps.ite ?_ g0))
  · have k := g (min 6 (s.run.throttle + 1)) (.inl (Nat.min_le_left _ _))
    exact Keeps.ite (State.bump_keeps k _ _) k
  · exact Keeps.upd rfl (fun f => { f with throttle := Nat.le_trans (Nat.sub_le _ _) f.throttle }) h

theorem execThrottleInterval_keeps {s t : State} (peak : Int) (avgPower trackPower : Nat) (e : execThrottleInterval peak avgPower
    trackPower s = .next t) :
    Keeps s t := by
  unfold execThrottleInterval at e
  injection e with e
  subst e
  have h := Keeps.refl s
  exact State.throttleStep_keeps h ..

theorem State.tripped_keeps {z s : State} (h : Keeps z s) : Keeps z s.tripped := by
  unfold State.tripped
  exact Keeps.ite h (State.emit_keeps (Keeps.plain h) ..)

theorem execThermtrip_keeps {s t : State} (e : execThermtrip s = .next t) : Keeps s t := by
  unfold execThermtrip at e
  injection e with e
  subst e
  have h := Keeps.refl s
  exact State.tripped_keeps h ..

/-- The DEBUG_EN strap moves: no other field of the part does. -/
theorem State.setDebug_keeps {z s : State} (h : Keeps z s) (v : Bool) : Keeps z { s with part := { s.part with debugEn := v } } :=
  h.trans ⟨rfl, rfl, List.prefix_refl _, List.prefix_refl _, rfl, rfl, rfl, rfl, rfl, rfl, fun f =>
    form_same f rfl rfl rfl rfl rfl rfl rfl rfl rfl rfl (fun w => w) rfl rfl rfl (.inl rfl) (.inl rfl)⟩

theorem execDebugEnFall_keeps {s t : State} (e : execDebugEnFall s = .next t) : Keeps s t := by
  unfold execDebugEnFall at e
  injection e with e
  subst e
  exact State.lockMux_keeps (State.setDebug_keeps (Keeps.refl s) false)

theorem execDebugEnRise_keeps {s t : State} (e : execDebugEnRise s = .next t) : Keeps s t := by
  unfold execDebugEnRise at e
  injection e with e
  subst e
  exact State.setDebug_keeps (Keeps.refl s) true

end Sys2Proof.Machine
end

