-- ==== Sys2Proof/Laws/KeepsDict.lean ====
section
/-! SUPPORT. Keeps for dictionary operations and doors: one lemma per operation. -/

set_option Elab.async false

namespace Sys2Proof.Machine

theorem State.setCtx_keeps {z s : State} (h : Keeps z s) (c : Ctx) : Keeps z (s.setCtx c) := by
  unfold State.setCtx
  extract_lets d0 d1 d2
  exact Keeps.plain h

theorem State.endCtx_keeps {z s : State} (h : Keeps z s) (id : CtxId) : Keeps z (s.endCtx id) := by
  unfold State.endCtx
  exact Keeps.plain h

theorem State.stage_keeps {z s : State} (h : Keeps z s) (id : CtxId) (index sub : Nat) (v : List Byte) :
    Keeps z (s.stage id index sub v).2 := by
  unfold State.stage
  extract_lets d0 d1 d2 d3
  split
  · exact h
  · dsimp only
    exact State.setCtx_keeps h ..

theorem State.setRatio_keeps {z s : State} (h : Keeps z s) (v : Nat) : Keeps z (s.setRatio v) := by
  unfold State.setRatio
  extract_lets d0 d1 d2 d3 d4
  have h5 : Keeps z d1 := State.setNum_keeps h ..
  clear_value d1
  have h6 : Keeps z d3 := Keeps.ite (Keeps.plain h5) h5
  clear_value d3
  exact State.recapacity_keeps (State.formPools_keeps (Keeps.plain h6) ..) ..

theorem State.startRelease_keeps {z s : State} (h : Keeps z s) (h' : Nat) : Keeps z (s.startRelease h') := by
  unfold State.startRelease
  exact Keeps.ite h (Keeps.plain h)

theorem ring_drop {e : EvSt} (h : RingForm e) (v d : Nat) (hv : v < 2 ^ 32) (hd : d = (v + 2 ^ 32 - e.oldest) % 2 ^ 32)
    (hn : ¬(d = 0 ∨ (e.next + 2 ^ 32 - e.oldest) % 2 ^ 32 < d)) :
    RingForm { e with ring := e.ring.drop d, oldest := v, overflow := false } := by
  have hc := h.count
  have h1 := h.next
  have h2 := h.oldest
  have h3 := h.depth
  refine ⟨h1, hv, ?_, ?_, ?_⟩
  · simp; omega
  · simp; omega
  · intro i r hr
    simp only [List.getElem?_drop] at hr
    rw [h.seqs _ _ hr]
    dsimp only
    omega

theorem State.ackEvents_keeps {z s : State} (h : Keeps z s) (v : Nat) : Keeps z (s.ackEvents v) := by
  unfold State.ackEvents
  dsimp only
  split
  · exact h
  · rename_i hn
    exact Keeps.upd rfl (fun f => { f with ring := ring_drop f.ring _ _ (Nat.mod_lt _ (by decide)) rfl hn }) h

theorem State.clearTelemetry_keeps {z s : State} (h : Keeps z s) : Keeps z s.clearTelemetry := by
  unfold State.clearTelemetry
  extract_lets s1 ports
  have g1 : Keeps z s1 := Keeps.foldl _ h fun t i ht => State.setNum_keeps ht _ _ _
  clear_value s1
  exact Keeps.sized g1 (g := by simp [ports])

theorem State.clearBib_keeps {z s : State} (h : Keeps z s) (b : Nat) : Keeps z (s.clearBib b) := by
  unfold State.clearBib
  exact Keeps.foldl _ h fun t0 x1 h2 => State.setNum_keeps h2 ..

theorem State.setPolicy_keeps {z s : State} (h : Keeps z s) (v : Nat) : Keeps z (s.setPolicy v) := by
  unfold State.setPolicy
  exact Keeps.ite (State.startPolicy_keeps (State.forgive_keeps (Keeps.ite (State.policyFault_keeps h ..) h) ..) ..) (Keeps.plain h)

theorem State.unlockMux_keeps {z s : State} (h : Keeps z s) : Keeps z s.unlockMux := by
  unfold State.unlockMux
  exact State.raise_keeps (Keeps.plain h) ..

theorem State.arm_keeps {z s : State} (h : Keeps z s) : Keeps z s.arm := by
  unfold State.arm
  extract_lets d0 d1 d2 d3
  have h4 : Keeps z d3 := Keeps.plain h
  clear_value d3
  exact Keeps.ite (State.lapNow_keeps h4 ..) h4

theorem State.ownEffect_keeps {z s : State} (h : Keeps z s) (index sub : Nat) (v : List Byte) :
    Keeps z (s.ownEffect index sub v) := by
  unfold State.ownEffect
  extract_lets d0 d1 d2
  split
  · exact Keeps.ite h (Keeps.ite (Keeps.plain h) (State.startStore_keeps h ..))
  · exact State.ackEvents_keeps h ..
  · exact Keeps.ite (State.clearTelemetry_keeps h ..) h
  · exact State.setNum_keeps h ..
  · exact State.regulate_keeps h ..
  · exact State.startRelease_keeps h ..
  · exact State.setPolicy_keeps h ..
  · exact State.lapNow_keeps h ..
  · exact State.unlockMux_keeps h ..
  · exact State.emit_keeps h ..
  · exact Keeps.ite (State.lockMux_keeps h ..) h
  · exact Keeps.ite (State.arm_keeps h ..) h
  · exact Keeps.ite (State.askRelease_keeps h ..) h
  · exact Keeps.ite (State.guardExits_keeps h ..) h
  · exact Keeps.ite (State.drainPc_keeps h ..) h
  · exact Keeps.ite (State.guardExits_keeps h ..) (Keeps.ite (State.evacuate_keeps h ..) h)
  · exact Keeps.ite (State.modChan_keeps h ..) h
  · exact Keeps.ite (State.clearBib_keeps h ..) h
  · exact Keeps.ite (State.setRetiring_keeps h ..) h
  · exact h

theorem State.applyWrite_keeps {z s : State} (h : Keeps z s) (o : Obj) (index sub : Nat) (v : List Byte) :
    Keeps z (s.applyWrite o index sub v) := by
  unfold State.applyWrite
  refine Keeps.ite ?_ ?_
  · exact State.touchP_keeps (State.setRatio_keeps h ..) ..
  · refine Keeps.ite ?_ ?_
    · exact State.touchP_keeps (State.setNum_keeps (State.setBlob_keeps h ..) ..) ..
    · extract_lets d0 d1
      have h2 : Keeps z d1 := Keeps.ite h (Keeps.ite (State.setNum_keeps h ..) (State.setBlob_keeps h ..))
      clear_value d1
      exact State.ownEffect_keeps (Keeps.ite (State.touchP_keeps h2 ..) h2) ..

theorem State.closeSession_keeps {z s : State} (h : Keeps z s) (id : Nat) : Keeps z (s.closeSession id) := by
  unfold State.closeSession
  exact State.endCtx_keeps (Keeps.plain h) ..

theorem State.closeSlot_keeps {z s : State} (h : Keeps z s) (k : Nat) : Keeps z (s.closeSlot k) := by
  unfold State.closeSlot
  exact Keeps.foldl _ h fun t0 x1 h2 => State.closeSession_keeps h2 ..

theorem State.perstAll_keeps {z s : State} (h : Keeps z s) : Keeps z s.perstAll := by
  unfold State.perstAll
  exact Keeps.foldl _ h fun t0 x1 h2 => Keeps.ite (State.perst_keeps h2 ..) h2

theorem State.softReset_keeps {z s : State} (h : Keeps z s) (v : Nat) : Keeps z (s.softReset v) := by
  have k : ∀ x : State, Keeps z x → Keeps z (if x.run.trans = .none then x.pauseEntry true
    else { x with run := { x.run with trans := .entering true } }) := fun x hx =>
    Keeps.ite (State.pauseEntry_keeps hx _) (Keeps.plain hx)
  unfold State.softReset
  dsimp only
  refine Keeps.ite (State.haltCore_keeps h _) (Keeps.ite (State.resetLink_keeps (State.resetLink_keeps h _ _ _) _ _ _) ?_)
  exact Keeps.ite (k _ (State.perstAll_keeps h)) (Keeps.ite (k _ h) (State.softStart_keeps h _))

theorem State.runRequest_keeps {z s : State} (h : Keeps z s) (v : Nat) : Keeps z (s.runRequest v) := by
  unfold State.runRequest
  exact Keeps.ite (State.pauseExit_keeps h ..) (Keeps.ite (State.pauseEntry_keeps (State.perstAll_keeps h ..) ..)
    (State.pauseEntry_keeps h ..))

theorem State.afterReply_keeps {z s : State} (h : Keeps z s) (index sub : Nat) (v : List Byte) :
    Keeps z (s.afterReply index sub v) := by
  unfold State.afterReply
  split
  · exact State.softReset_keeps h ..
  · exact State.runRequest_keeps h ..
  · exact Keeps.ite (State.closeSlot_keeps h ..) h
  · exact h

theorem State.mapRow_keeps {z s : State} (h : Keeps z s) (p : Nat) (x : Nat × Bool × Nat) : Keeps z (s.mapRow p x) := by
  unfold State.mapRow
  extract_lets d0
  exact Keeps.ite h (State.swapWin_keeps h ..)

theorem State.applyMap_keeps {z s : State} (h : Keeps z s) (p : Nat) (rows : List (Nat × Bool × Nat)) :
    Keeps z (s.applyMap p rows) := by
  unfold State.applyMap
  extract_lets d0 d1 d2
  have h3 : Keeps z d1 := Keeps.foldl _ h fun t4 x5 h6 => State.mapRow_keeps h6 ..
  clear_value d1
  have h7 : Keeps z d2 := Keeps.foldl _ h3 fun t8 x9 h10 => State.ownExtent_keeps h10 ..
  clear_value d2
  exact Keeps.foldl _ h7 fun t11 x12 h13 => State.ownExtent_keeps h13 ..

theorem State.takeStaged_keeps {z s : State} (h : Keeps z s) (g : Nat) (c : Ctx) : Keeps z (s.takeStaged g c) := by
  unfold State.takeStaged
  exact Keeps.foldl _ h fun t0 x1 h2 => State.setNum_keeps h2 ..

theorem State.commitBib_keeps {z s : State} (h : Keeps z s) (b : Nat) (c : Ctx) : Keeps z (s.commitBib b c) := by
  unfold State.commitBib
  extract_lets d0 d1 d2 d3
  have h4 : Keeps z d2 := State.takeStaged_keeps h ..
  clear_value d2
  have h5 : Keeps z d3 := Keeps.ite (State.modBib_keeps h4 ..) h4
  clear_value d3
  exact State.guardExits_keeps (State.touchP_keeps h5 ..) ..

theorem State.commitEffect_keeps {z s : State} (h : Keeps z s) (g : Nat) (c : Ctx) : Keeps z (s.commitEffect g c) := by
  unfold State.commitEffect
  refine Keeps.ite ?_ ?_
  · extract_lets d0
    exact State.applyMap_keeps (State.setNum_keeps (State.setNum_keeps h ..) ..) ..
  · refine Keeps.ite ?_ ?_
    · exact State.newVersion_keeps h ..
    · refine Keeps.ite ?_ ?_
      · exact State.commitBib_keeps h ..
      · refine Keeps.ite ?_ ?_
        · extract_lets d1
          have h2 : Keeps z d1 := State.touchP_keeps (State.takeStaged_keeps h ..) ..
          clear_value d1
          exact Keeps.ite (State.failTo_keeps h2 ..) h2
        · exact State.touchP_keeps (State.takeStaged_keeps h ..) ..

theorem State.commitGroup_keeps {z s : State} (h : Keeps z s) (d : Door) (o : Obj) (index : Nat) :
    Keeps z (s.commitGroup d o index).2 := by
  unfold State.commitGroup
  extract_lets d0 d1 d2 d3 d4 d5
  have h6 : Keeps z d3 := by
    dsimp only [d3]
    dsimp only [d1]
    exact State.setCtx_keeps h ..
  clear_value d3
  have h7 : Keeps z d5 := Keeps.plain h6
  clear_value d5
  split
  · exact h
  · split
    · exact h
    · split
      · dsimp only
        dsimp only [d1]
        exact State.setCtx_keeps h ..
      · split
        · exact h
        · split
          · exact h
          · dsimp only
            exact State.commitEffect_keeps h7 ..

theorem State.discardGroup_keeps {z s : State} (h : Keeps z s) (d : Door) (o : Obj) (index : Nat) :
    Keeps z (s.discardGroup d o index).2 := by
  unfold State.discardGroup
  split
  · dsimp only
    exact State.setCtx_keeps h ..
  · exact h

theorem answerCode_keeps {z st : State} (h : Keeps z st) (code type : Nat) : Keeps z (answerCode code type st).st := by
  unfold answerCode
  exact h

theorem State.gauged_keeps {z s : State} (h : Keeps z s) (index sub : Nat) : Keeps z (s.gauged index sub) := by
  unfold State.gauged
  exact Keeps.ite (State.drawn_keeps h ..) (Keeps.ite (Keeps.foldl _ h fun t0 x1 h2 => State.maintain_keeps h2 ..) h)

theorem wholeAnswer_keeps {z st : State} (h : Keeps z st) (o : Obj) (flags : Nat) (v : List Byte) :
    Keeps z (wholeAnswer o flags v st).st := by
  unfold wholeAnswer
  split
  · exact answerCode_keeps h ..
  · exact h

theorem State.readAnswer_keeps {z s : State} (h : Keeps z s) (o : Obj) (index sub : Nat) : Keeps z (s.readAnswer o index sub).st := by
  unfold State.readAnswer
  split
  · exact answerCode_keeps h ..
  · extract_lets d0
    split
    · exact answerCode_keeps h ..
    · exact wholeAnswer_keeps (State.gauged_keeps h ..) ..

theorem State.stagedAnswer_keeps {z s : State} (h : Keeps z s) (d : Door) (o : Obj) (index sub : Nat) :
    Keeps z (s.stagedAnswer d o index sub).st := by
  unfold State.stagedAnswer
  split
  · exact answerCode_keeps h ..
  · split
    · exact wholeAnswer_keeps h ..
    · exact State.readAnswer_keeps h ..

theorem segment_keeps {z st : State} (h : Keeps z st) (o : Obj) (bs : List Byte) (off n : Nat) :
    Keeps z (segment o bs off n st).st := by
  unfold segment
  exact h

theorem State.readBlockAnswer_keeps {z s : State} (h : Keeps z s) (d : Door) (o : Obj) (a : Access) :
    Keeps z (s.readBlockAnswer d o a).st := by
  unfold State.readBlockAnswer
  extract_lets d0 d1 d2
  split
  · exact answerCode_keeps h ..
  · split
    · split
      · exact answerCode_keeps h ..
      · exact segment_keeps (State.setCtx_keeps (State.gauged_keeps h ..) ..) ..
    · split
      · split
        · exact segment_keeps h ..
        · exact answerCode_keeps h ..
      · exact answerCode_keeps h ..

theorem State.refused_keeps {z s : State} (h : Keeps z s) (index sub code : Nat) : Keeps z (s.refused index sub code) := by
  unfold State.refused
  split
  · exact Keeps.ite (Keeps.plain h) h
  · exact Keeps.ite (State.setNum_keeps h ..) h
  · exact Keeps.ite (Keeps.plain h) h
  · exact h

theorem State.writeAnswer_keeps {z s : State} (h : Keeps z s) (d : Door) (o : Obj) (index sub type : Nat) (whole : Bool) (v : List
    Byte) :
    Keeps z (s.writeAnswer d o index sub type whole v).st := by
  unfold State.writeAnswer
  split
  · exact answerCode_keeps h ..
  · split
    · exact answerCode_keeps (State.raise_keeps h ..) ..
    · split
      · exact answerCode_keeps h ..
      · split
        · exact answerCode_keeps h ..
        · split
          · extract_lets d0
            have h1 : Keeps z d0.2 := State.stage_keeps h ..
            clear_value d0
            exact answerCode_keeps h1 ..
          · split
            · exact answerCode_keeps h ..
            · split
              · exact answerCode_keeps h ..
              · split
                · exact answerCode_keeps h ..
                · extract_lets d2
                  split
                  · exact answerCode_keeps (State.refused_keeps h ..) ..
                  · split
                    · exact h
                    · dsimp only
                      exact State.applyWrite_keeps h ..

theorem State.writeBlockAnswer_keeps {z s : State} (h : Keeps z s) (d : Door) (o : Obj) (a : Access) :
    Keeps z (s.writeBlockAnswer d o a).st := by
  unfold State.writeBlockAnswer
  extract_lets d0 d1
  clear_value d1
  split
  · exact answerCode_keeps (State.setCtx_keeps h ..) ..
  · split
    · exact State.writeAnswer_keeps (State.setCtx_keeps h ..) ..
    · exact answerCode_keeps (State.setCtx_keeps h ..) ..

theorem State.access_keeps {z s : State} (h : Keeps z s) (d : Door) (a : Access) : Keeps z (s.access d a).st := by
  unfold State.access
  extract_lets d0
  split
  · exact answerCode_keeps h ..
  · split
    · exact answerCode_keeps h ..
    · split
      · exact answerCode_keeps h ..
      · split
        · exact State.readAnswer_keeps h ..
        · exact State.writeAnswer_keeps h ..
        · exact State.readBlockAnswer_keeps h ..
        · exact State.writeBlockAnswer_keeps h ..
        · exact State.stagedAnswer_keeps h ..
        · extract_lets d3
          have h4 : Keeps z d3.2 := State.commitGroup_keeps h ..
          clear_value d3
          exact answerCode_keeps h4 ..
        · extract_lets d5
          have h6 : Keeps z d5.2 := State.discardGroup_keeps h ..
          clear_value d5
          exact answerCode_keeps h6 ..

theorem State.serve_keeps {z s : State} (h : Keeps z s) (d : Door) (a : Access) (back : Option ReplyTo) :
    Keeps z (s.serve d a back) := by
  have g := State.access_keeps h d a
  unfold State.serve
  generalize s.access d a = r at g ⊢
  dsimp only
  split
  · exact Keeps.plain g
  · have k := State.reply_keeps g d a.op back a.index a.sub r.type a.offset r.flags r.abort r.data
    split
    · exact State.afterReply_keeps k _ _ _
    · exact k

theorem State.viaDoor_keeps {z s : State} (h : Keeps z s) (a : Door) : Keeps z (s.viaDoor a) := by
  unfold State.viaDoor
  split
  · exact State.wakeLink_keeps h ..
  · exact h

theorem State.writeVia_keeps {z s : State} (h : Keeps z s) (d : Door) (index sub : Nat) (v : List Byte) :
    Keeps z (s.writeVia d index sub v) := by
  unfold State.writeVia
  refine Keeps.ite ?_ ?_
  · extract_lets d0
    exact Keeps.ite (State.reply_keeps h ..) (State.onward_keeps (State.serve_keeps (State.viaDoor_keeps h ..) ..) ..)
  · exact h

theorem State.writeNum_keeps {z s : State} (h : Keeps z s) (d : Door) (index sub : Nat) (size value : Nat) :
    Keeps z (s.writeNum d index sub size value) := by
  unfold State.writeNum
  exact State.writeVia_keeps h ..

theorem State.authFailure_keeps {z s : State} (h : Keeps z s) (id : Nat) : Keeps z (s.authFailure id) := by
  unfold State.authFailure
  extract_lets d0
  have h1 : Keeps z d0 := State.raise_keeps (State.modSession_keeps (State.bump_keeps h ..) ..) ..
  clear_value d0
  split
  · exact Keeps.ite (State.closeSession_keeps h1 ..) h1
  · exact h1

theorem State.rawReply_keeps {z s : State} (h : Keeps z s) (f : Frame) (op flags abort : Nat) (key : Option (List Byte)) :
    Keeps z (s.rawReply f op flags abort key) := by
  unfold State.rawReply
  extract_lets d0
  exact State.emit_keeps h ..

theorem State.openSession_keeps {z s : State} (h : Keeps z s) (f : Frame) : Keeps z (s.openSession f) := by
  have no : ∀ code : Nat, Keeps z (s.reply (.field f.src) 0x11 (some (Frame.back f)) f.index f.sub 0 f.offset 0 code []) := fun _ =>
    State.reply_keeps h _ _ _ _ _ _ _ _ _ _
  unfold State.openSession
  refine Keeps.ite (no _) (Keeps.ite (no _) (Keeps.ite (no _) (State.cacheSrc_keeps (State.emit_keeps ?_ _) _ _ _)))
  exact Keeps.same (s := s.drawn) (State.drawn_keeps h)

theorem State.wakePorts_keeps {z s : State} (h : Keeps z s) (d : Door) (f : Frame) : Keeps z (s.wakePorts d f) := by
  unfold State.wakePorts
  extract_lets d0 d1
  split
  · refine Keeps.ite ?_ ?_
    · dsimp only [d1]
      exact State.reply_keeps h ..
    · refine Keeps.ite ?_ ?_
      · dsimp only [d1]
        exact State.reply_keeps h ..
      · refine Keeps.ite ?_ ?_
        · dsimp only [d1]
          exact State.reply_keeps h ..
        · dsimp only [d1]
          exact State.reply_keeps (Keeps.foldl _ h fun t2 x3 h4 => Keeps.ite h4 (Keeps.ite (State.assertWake_keeps h4 ..)
            (State.wakeLinkPme_keeps (State.wakeLinkPme_keeps h4 ..) ..))) ..
  · dsimp only [d1]
    exact State.reply_keeps h ..

theorem State.queueDiscover_keeps {z s : State} (h : Keeps z s) (d : Door) (f : Frame) : Keeps z (s.queueDiscover d f) := by
  unfold State.queueDiscover
  extract_lets d0 d1 d2 d3
  exact Keeps.plain h

theorem State.sendDiscover_keeps {z s : State} (h : Keeps z s) : Keeps z s.sendDiscover := by
  unfold State.sendDiscover
  split
  · exact h
  · extract_lets d0 d1
    have h2 : Keeps z d1 := Keeps.plain h
    clear_value d1
    exact Keeps.ite h2 (Keeps.ite (State.cacheSrc_keeps (State.emit_keeps h2 ..) ..) (State.modSession_keeps (State.emit_keeps h2 ..)
      ..))

theorem State.endSession_keeps {z s : State} (h : Keeps z s) (d : Door) (f : Frame) : Keeps z (s.endSession d f) := by
  unfold State.endSession
  extract_lets d0
  have h1 : Keeps z d0 := State.reply_keeps h ..
  clear_value d0
  split
  · exact State.closeSession_keeps h1 ..
  · exact h1

theorem State.serveFrame_keeps {z s : State} (h : Keeps z s) (op : Nat) (d : Door) (f : Frame) : Keeps z (s.serveFrame op d f) := by
  unfold State.serveFrame
  exact Keeps.ite (State.queueDiscover_keeps h ..) (Keeps.ite (State.reply_keeps h ..) (Keeps.ite (State.wakePorts_keeps h ..)
    (Keeps.ite (State.openSession_keeps h ..) (Keeps.ite (State.endSession_keeps h ..) (State.serve_keeps h ..)))))

theorem State.sessionFrame_keeps {z s : State} (h : Keeps z s) (op : Nat) (f : Frame) : Keeps z (s.sessionFrame op f) := by
  unfold State.sessionFrame
  split
  · exact State.authFailure_keeps (State.rawReply_keeps h ..) ..
  · extract_lets d0
    refine Keeps.ite ?_ ?_
    · exact State.authFailure_keeps (State.rawReply_keeps h ..) ..
    · split
      · exact State.emit_keeps h ..
      · exact Keeps.ite h (Keeps.ite (State.authFailure_keeps (State.rawReply_keeps h ..) ..) (State.serveFrame_keeps
          (State.modSession_keeps h ..) ..))

theorem State.plainFrame_keeps {z s : State} (h : Keeps z s) (op : Nat) (f : Frame) : Keeps z (s.plainFrame op f) := by
  unfold State.plainFrame
  split
  · exact State.emit_keeps h ..
  · exact Keeps.ite h (State.serveFrame_keeps h ..)

theorem State.frameIn_keeps {z s : State} (h : Keeps z s) (op : Nat) (f : Frame) : Keeps z (s.frameIn op f) := by
  unfold State.frameIn
  exact Keeps.ite h (Keeps.ite (State.onward_keeps (State.plainFrame_keeps h ..) ..) (State.onward_keeps (State.sessionFrame_keeps h
    ..) ..))

theorem State.infieldIn_keeps {z s : State} (h : Keeps z s) (p : Nat) (l : LinkId) (payload : List Byte) (f : Payload → State →
    State) (hf : ∀ a0 a1, Keeps z a1 → Keeps z (f a0 a1)) :
    Keeps z (s.infieldIn p l payload f) := by
  unfold State.infieldIn
  refine Keeps.ite ?_ ?_
  · exact h
  · with_reducible apply State.viaBar0_keeps
    · exact h
    · intro x0 h1
      split
      · refine Keeps.ite ?_ ?_
        · exact State.mailboxDone_keeps h1 ..
        · apply hf
          exact h1
      · exact State.mailboxDone_keeps h1 ..

theorem State.infieldOp_keeps {z s : State} (h : Keeps z s) (op p : Nat) (l : LinkId) (payload : List Byte) :
    Keeps z (s.infieldOp op p l payload) := by
  unfold State.infieldOp
  with_reducible apply State.infieldIn_keeps
  · exact h
  · intro x0 x1 h2
    exact State.serve_keeps h2 ..

theorem State.contextReply_keeps {z s : State} (h : Keeps z s) (p : Nat) (l : LinkId) : Keeps z (s.contextReply p l) := by
  unfold State.contextReply
  exact State.mailboxDone_keeps h ..

theorem execDictRead_keeps {s t : State} (p : Nat) (l : LinkId) (payload : List Byte) (e : execDictRead p l payload s = .next t) :
    Keeps s t := by
  unfold execDictRead at e
  injection e with e
  subst e
  have h := Keeps.refl s
  exact State.infieldOp_keeps h ..

theorem execDictWrite_keeps {s t : State} (p : Nat) (l : LinkId) (payload : List Byte) (e : execDictWrite p l payload s = .next t) :
    Keeps s t := by
  unfold execDictWrite at e
  injection e with e
  subst e
  have h := Keeps.refl s
  exact State.infieldOp_keeps h ..

theorem execDictReadBlock_keeps {s t : State} (p : Nat) (l : LinkId) (payload : List Byte) (e : execDictReadBlock p l payload s =
    .next t) :
    Keeps s t := by
  unfold execDictReadBlock at e
  injection e with e
  subst e
  have h := Keeps.refl s
  exact State.infieldOp_keeps h ..

theorem execDictWriteBlock_keeps {s t : State} (p : Nat) (l : LinkId) (payload : List Byte) (e : execDictWriteBlock p l payload s =
    .next t) :
    Keeps s t := by
  unfold execDictWriteBlock at e
  injection e with e
  subst e
  have h := Keeps.refl s
  exact State.infieldOp_keeps h ..

theorem execDictReadStaged_keeps {s t : State} (p : Nat) (l : LinkId) (payload : List Byte) (e : execDictReadStaged p l payload s =
    .next t) :
    Keeps s t := by
  unfold execDictReadStaged at e
  injection e with e
  subst e
  have h := Keeps.refl s
  exact State.infieldOp_keeps h ..

theorem execDictCommit_keeps {s t : State} (p : Nat) (l : LinkId) (payload : List Byte) (e : execDictCommit p l payload s = .next t) :
    Keeps s t := by
  unfold execDictCommit at e
  injection e with e
  subst e
  have h := Keeps.refl s
  exact State.infieldOp_keeps h ..

theorem execDictDiscard_keeps {s t : State} (p : Nat) (l : LinkId) (payload : List Byte) (e : execDictDiscard p l payload s = .next
    t) :
    Keeps s t := by
  unfold execDictDiscard at e
  injection e with e
  subst e
  have h := Keeps.refl s
  exact State.infieldOp_keeps h ..

theorem execDictContext_keeps {s t : State} (p : Nat) (l : LinkId) (payload : List Byte) (e : execDictContext p l payload s = .next
    t) :
    Keeps s t := by
  unfold execDictContext at e
  injection e with e
  subst e
  have h := Keeps.refl s
  with_reducible apply State.infieldIn_keeps
  · exact h
  · intro x0 x1 h2
    exact State.contextReply_keeps h2 ..

theorem execDictReservedOpcode_keeps {s t : State} (p : Nat) (l : LinkId) (opcode : Nat) (e : execDictReservedOpcode p l opcode s =
    .next t) :
    Keeps s t := by
  unfold execDictReservedOpcode at e
  injection e with e
  subst e
  have h := Keeps.refl s
  refine Keeps.ite ?_ ?_
  · with_reducible apply State.viaBar0_keeps
    · exact h
    · intro x0 h1
      exact State.mailboxDone_keeps h1 ..
  · exact h

theorem execRead_keeps {s t : State} (f : Frame) (e : execRead f s = .next t) : Keeps s t := by
  unfold execRead at e
  injection e with e
  subst e
  have h := Keeps.refl s
  exact State.frameIn_keeps h ..

theorem execWrite_keeps {s t : State} (f : Frame) (e : execWrite f s = .next t) : Keeps s t := by
  unfold execWrite at e
  injection e with e
  subst e
  have h := Keeps.refl s
  exact State.frameIn_keeps h ..

theorem execReadBlock_keeps {s t : State} (f : Frame) (e : execReadBlock f s = .next t) : Keeps s t := by
  unfold execReadBlock at e
  injection e with e
  subst e
  have h := Keeps.refl s
  exact State.frameIn_keeps h ..

theorem execWriteBlock_keeps {s t : State} (f : Frame) (e : execWriteBlock f s = .next t) : Keeps s t := by
  unfold execWriteBlock at e
  injection e with e
  subst e
  have h := Keeps.refl s
  exact State.frameIn_keeps h ..

theorem execReadStaged_keeps {s t : State} (f : Frame) (e : execReadStaged f s = .next t) : Keeps s t := by
  unfold execReadStaged at e
  injection e with e
  subst e
  have h := Keeps.refl s
  exact State.frameIn_keeps h ..

theorem execCommit_keeps {s t : State} (f : Frame) (e : execCommit f s = .next t) : Keeps s t := by
  unfold execCommit at e
  injection e with e
  subst e
  have h := Keeps.refl s
  exact State.frameIn_keeps h ..

theorem execDiscard_keeps {s t : State} (f : Frame) (e : execDiscard f s = .next t) : Keeps s t := by
  unfold execDiscard at e
  injection e with e
  subst e
  have h := Keeps.refl s
  exact State.frameIn_keeps h ..

theorem execWake_keeps {s t : State} (f : Frame) (e : execWake f s = .next t) : Keeps s t := by
  unfold execWake at e
  injection e with e
  subst e
  have h := Keeps.refl s
  exact State.frameIn_keeps h ..

theorem execDiscover_keeps {s t : State} (f : Frame) (e : execDiscover f s = .next t) : Keeps s t := by
  unfold execDiscover at e
  injection e with e
  subst e
  have h := Keeps.refl s
  exact State.frameIn_keeps h ..

theorem execDiscoverReplyDelay_keeps {s t : State} (e : execDiscoverReplyDelay s = .next t) : Keeps s t := by
  unfold execDiscoverReplyDelay at e
  injection e with e
  subst e
  have h := Keeps.refl s
  exact State.sendDiscover_keeps h ..

theorem execSessionOpen_keeps {s t : State} (f : Frame) (e : execSessionOpen f s = .next t) : Keeps s t := by
  unfold execSessionOpen at e
  injection e with e
  subst e
  have h := Keeps.refl s
  exact State.frameIn_keeps h ..

theorem execSessionClose_keeps {s t : State} (f : Frame) (e : execSessionClose f s = .next t) : Keeps s t := by
  unfold execSessionClose at e
  injection e with e
  subst e
  have h := Keeps.refl s
  exact State.frameIn_keeps h ..

theorem execNeighborSolicitation_keeps {s t : State} (src : Nat) (target : List Byte) (e : execNeighborSolicitation src target s =
    .next t) :
    Keeps s t := by
  unfold execNeighborSolicitation at e
  injection e with e
  subst e
  have h := Keeps.refl s
  exact Keeps.ite (State.emit_keeps h ..) h

theorem execEchoRequest_keeps {s t : State} (src : Nat) (payload : List Byte) (e : execEchoRequest src payload s = .next t) :
    Keeps s t := by
  unfold execEchoRequest at e
  injection e with e
  subst e
  have h := Keeps.refl s
  exact Keeps.ite (State.emit_keeps h ..) h

theorem execFieldLinkUp_keeps {s t : State} (duplicate : Bool) (e : execFieldLinkUp duplicate s = .next t) : Keeps s t := by
  unfold execFieldLinkUp at e
  injection e with e
  subst e
  have h := Keeps.refl s
  exact Keeps.ite (State.raise_keeps (Keeps.plain h) ..) h

theorem execSessionIdleExpiry_keeps {s t : State} (id : Nat) (e : execSessionIdleExpiry id s = .next t) : Keeps s t := by
  unfold execSessionIdleExpiry at e
  injection e with e
  subst e
  have h := Keeps.refl s
  exact State.closeSession_keeps h ..

theorem execStageTimeoutExpiry_keeps {s t : State} (d : Door) (group : Option Nat) (e : execStageTimeoutExpiry d group s = .next t) :
    Keeps s t := by
  unfold execStageTimeoutExpiry at e
  injection e with e
  subst e
  have h := Keeps.refl s
  extract_lets d0
  exact State.setCtx_keeps h ..

end Sys2Proof.Machine
end

