-- ==== Sys2Proof/Laws/KeepsCmds.lean ====
section
/-! SUPPORT. Keeps for the other commands: one lemma per operation. -/

set_option Elab.async false

namespace Sys2Proof.Machine

theorem State.memRead_keeps {z s : State} (h : Keeps z s) (p : Nat) (l : LinkId) (tag hpa : Nat) :
    Keeps z (s.memRead p l tag hpa) := by
  unfold State.memRead
  refine Keeps.ite ?_ ?_
  · exact h
  · extract_lets d0
    have h1 : Keeps z d0 := State.wakeLink_keeps h ..
    clear_value d0
    split
    · exact h1
    · exact Keeps.ite (State.emit_keeps (State.readSample_keeps (State.bump_keeps h1 ..) ..) ..) (State.onward_keeps
        (State.hostReq_keeps h1 ..) ..)

theorem State.memWrite_keeps {z s : State} (h : Keeps z s) (p : Nat) (l : LinkId) (tag hpa : Nat) (data : List (Option Byte)) (poison
    : Bool) :
    Keeps z (s.memWrite p l tag hpa data poison) := by
  unfold State.memWrite
  refine Keeps.ite ?_ ?_
  · exact h
  · extract_lets d0
    have h1 : Keeps z d0 := State.wakeLink_keeps h ..
    clear_value d0
    split
    · exact h1
    · exact Keeps.ite (State.emit_keeps (State.bump_keeps h1 ..) ..) (State.onward_keeps (State.hostReq_keeps h1 ..) ..)

theorem execMemRd_keeps {s t : State} (p : Nat) (l : LinkId) (tag hpa : Nat) (e : execMemRd p l tag hpa s = .next t) : Keeps s t := by
  unfold execMemRd at e
  injection e with e
  subst e
  have h := Keeps.refl s
  exact State.memRead_keeps h ..

theorem execMemWr_keeps {s t : State} (p : Nat) (l : LinkId) (tag hpa : Nat) (data : List Byte) (poison : Bool) (e : execMemWr p l
    tag hpa data poison s = .next t) :
    Keeps s t := by
  unfold execMemWr at e
  injection e with e
  subst e
  have h := Keeps.refl s
  exact State.memWrite_keeps h ..

theorem execMemWrPtl_keeps {s t : State} (p : Nat) (l : LinkId) (tag hpa : Nat) (data : List Byte) (mask : BitVec 64) (poison : Bool)
    (e : execMemWrPtl p l tag hpa data mask poison s = .next t) :
    Keeps s t := by
  unfold execMemWrPtl at e
  injection e with e
  subst e
  have h := Keeps.refl s
  exact State.memWrite_keeps h ..

theorem execMemSpecRd_keeps {s t : State} (p : Nat) (l : LinkId) (_tag _hpa : Nat) (e : execMemSpecRd p l _tag _hpa s = .next t) :
    Keeps s t := by
  unfold execMemSpecRd at e
  injection e with e
  subst e
  have h := Keeps.refl s
  exact Keeps.ite (State.wakeLink_keeps h ..) h

theorem execMemInv_keeps {s t : State} (p : Nat) (l : LinkId) (tag _hpa : Nat) (e : execMemInv p l tag _hpa s = .next t) :
    Keeps s t := by
  unfold execMemInv at e
  injection e with e
  subst e
  have h := Keeps.refl s
  exact Keeps.ite (State.emit_keeps (State.wakeLink_keeps h ..) ..) h

theorem State.startXfer_keeps {z s : State} (h : Keeps z s) (write : Bool) (p : Nat) (l : LinkId) (tag off : Nat) (data : List Byte)
    (len : Nat) (relaxed poison : Bool) :
    Keeps z (s.startXfer write p l tag off data len relaxed poison) := by
  unfold State.startXfer
  extract_lets d0 d1 d2 d3 d4
  have h5 : Keeps z d3 := State.newId_keeps h ..
  clear_value d3
  have h6 : Keeps z d4 := Keeps.plain h5
  clear_value d4
  exact Keeps.foldl _ h6 fun t7 x8 h9 => State.hostReq_keeps h9 ..

theorem execBar2Read_keeps {s t : State} (p : Nat) (l : LinkId) (tag off len : Nat) (e : execBar2Read p l tag off len s = .next t) :
    Keeps s t := by
  unfold execBar2Read at e
  injection e with e
  subst e
  have h := Keeps.refl s
  refine Keeps.ite ?_ ?_
  · exact h
  · extract_lets d0
    have h1 : Keeps s d0 := State.wakeLink_keeps h ..
    clear_value d0
    exact Keeps.ite (State.emit_keeps h1 ..) (Keeps.ite (State.completeBar2_keeps (State.readSample_keeps (State.bump_keeps h1 ..)
      ..) ..) (State.onward_keeps (State.startXfer_keeps h1 ..) ..))

theorem execBar2Write_keeps {s t : State} (p : Nat) (l : LinkId) (off : Nat) (data : List Byte) (relaxed poison : Bool) (e :
    execBar2Write p l off data relaxed poison s = .next t) :
    Keeps s t := by
  unfold execBar2Write at e
  injection e with e
  subst e
  have h := Keeps.refl s
  refine Keeps.ite ?_ ?_
  · exact h
  · extract_lets d0
    have h1 : Keeps s d0 := State.wakeLink_keeps h ..
    clear_value d0
    exact Keeps.ite h1 (Keeps.ite (State.bump_keeps h1 ..) (State.onward_keeps (State.startXfer_keeps h1 ..) ..))

theorem execBar2AtomicOp_keeps {s t : State} (p : Nat) (l : LinkId) (tag off : Nat) (e : execBar2AtomicOp p l tag off s = .next t) :
    Keeps s t := by
  unfold execBar2AtomicOp at e
  injection e with e
  subst e
  have h := Keeps.refl s
  exact Keeps.ite (State.emit_keeps (State.wakeLink_keeps h ..) ..) h

theorem execWonceWrite_keeps {s t : State} (d : Door) (index sub : Nat) (value : List Byte) (e : execWonceWrite d index sub value s =
    .next t) :
    Keeps s t := by
  unfold execWonceWrite at e
  injection e with e
  subst e
  have h := Keeps.refl s
  exact Keeps.ite (State.writeVia_keeps h ..) h

theorem execWonceStoreDone_keeps {s t : State} (index sub : Nat) (e : execWonceStoreDone index sub s = .next t) : Keeps s t := by
  unfold execWonceStoreDone at e
  injection e with e
  subst e
  have h := Keeps.refl s
  exact Keeps.ite (State.storeDone_keeps h ..) h

theorem execDictObjectWrite_keeps {s t : State} (d : Door) (index sub : Nat) (value : List Byte) (e : execDictObjectWrite d index sub
    value s = .next t) :
    Keeps s t := by
  unfold execDictObjectWrite at e
  injection e with e
  subst e
  have h := Keeps.refl s
  exact State.writeVia_keeps h ..

theorem execPersistStoreStart_keeps {s t : State} (e : execPersistStoreStart s = .next t) : Keeps s t := by
  unfold execPersistStoreStart at e
  injection e with e
  subst e
  have h := Keeps.refl s
  exact Keeps.ite (State.startStore_keeps h ..) h

theorem execPersistStoreDone_keeps {s t : State} (e : execPersistStoreDone s = .next t) : Keeps s t := by
  unfold execPersistStoreDone at e
  injection e with e
  subst e
  have h := Keeps.refl s
  exact Keeps.ite (Keeps.ite (State.startStore_keeps (State.endStore_keeps h ..) ..) (State.endStore_keeps h ..)) h

theorem execPersistSync_keeps {s t : State} (d : Door) (value : Nat) (e : execPersistSync d value s = .next t) : Keeps s t := by
  unfold execPersistSync at e
  injection e with e
  subst e
  have h := Keeps.refl s
  exact State.writeNum_keeps h ..

theorem execExtentRelease_keeps {s t : State} (d : Door) (handle : Nat) (e : execExtentRelease d handle s = .next t) : Keeps s t := by
  unfold execExtentRelease at e
  injection e with e
  subst e
  have h := Keeps.refl s
  exact State.writeNum_keeps h ..

theorem State.releaseEnds_keeps {z s : State} (h : Keeps z s) (h1 : Nat) : Keeps z (s.releaseEnds h1) := by
  have g : Keeps z ((upto 32).foldl (fun s i => (s.clearPage (h1 * 32 + i)).vaultRelease (h1 * 32 + i)) s) :=
    Keeps.foldl _ h fun t x ht => State.vaultRelease_keeps (State.clearPage_keeps ht _) _
  unfold State.releaseEnds
  refine Keeps.ite ?_ h
  generalize (upto 32).foldl _ s = t at g ⊢
  exact Keeps.plain g

theorem execExtentReleaseDone_keeps {s t : State} (handle : Nat) (e : execExtentReleaseDone handle s = .next t) : Keeps s t := by
  unfold execExtentReleaseDone at e
  injection e with e
  subst e
  have h := Keeps.refl s
  exact State.onward_keeps (State.releaseEnds_keeps h ..) ..

theorem execProvisionRatio_keeps {s t : State} (d : Door) (value : Nat) (e : execProvisionRatio d value s = .next t) : Keeps s t := by
  unfold execProvisionRatio at e
  injection e with e
  subst e
  have h := Keeps.refl s
  exact State.writeNum_keeps h ..

theorem execVaultKey_keeps {s t : State} (d : Door) (region : Nat) (key : List Byte) (e : execVaultKey d region key s = .next t) :
    Keeps s t := by
  unfold execVaultKey at e
  injection e with e
  subst e
  have h := Keeps.refl s
  exact Keeps.ite (State.writeVia_keeps h ..) h

theorem execCbRetire_keeps {s t : State} (d : Door) (region slot : Nat) (e : execCbRetire d region slot s = .next t) : Keeps s t := by
  unfold execCbRetire at e
  injection e with e
  subst e
  have h := Keeps.refl s
  exact Keeps.ite (State.writeNum_keeps h ..) h

theorem execRegionBib_keeps {s t : State} (d : Door) (region b : Nat) (e : execRegionBib d region b s = .next t) : Keeps s t := by
  unfold execRegionBib at e
  injection e with e
  subst e
  have h := Keeps.refl s
  exact Keeps.ite (State.writeNum_keeps h ..) h

theorem execWindowLog2_keeps {s t : State} (d : Door) (p value : Nat) (e : execWindowLog2 d p value s = .next t) : Keeps s t := by
  unfold execWindowLog2 at e
  injection e with e
  subst e
  have h := Keeps.refl s
  exact Keeps.ite (State.writeNum_keeps h ..) h

theorem execRunRequestPause_keeps {s t : State} (d : Door) (e : execRunRequestPause d s = .next t) : Keeps s t := by
  unfold execRunRequestPause at e
  injection e with e
  subst e
  have h := Keeps.refl s
  exact State.writeNum_keeps h ..

theorem execRunRequestPauseForced_keeps {s t : State} (d : Door) (e : execRunRequestPauseForced d s = .next t) : Keeps s t := by
  unfold execRunRequestPauseForced at e
  injection e with e
  subst e
  have h := Keeps.refl s
  exact State.writeNum_keeps h ..

theorem execRunRequestGo_keeps {s t : State} (d : Door) (e : execRunRequestGo d s = .next t) : Keeps s t := by
  unfold execRunRequestGo at e
  injection e with e
  subst e
  have h := Keeps.refl s
  exact State.writeNum_keeps h ..

theorem execSoftResetCore_keeps {s t : State} (d : Door) (core : Nat) (e : execSoftResetCore d core s = .next t) : Keeps s t := by
  unfold execSoftResetCore at e
  injection e with e
  subst e
  have h := Keeps.refl s
  exact Keeps.ite (State.writeNum_keeps h ..) h

theorem execSoftResetPort_keeps {s t : State} (d : Door) (p : Nat) (e : execSoftResetPort d p s = .next t) : Keeps s t := by
  unfold execSoftResetPort at e
  injection e with e
  subst e
  have h := Keeps.refl s
  exact Keeps.ite (State.writeNum_keeps h ..) h

theorem execSoftResetDevice_keeps {s t : State} (d : Door) (e : execSoftResetDevice d s = .next t) : Keeps s t := by
  unfold execSoftResetDevice at e
  injection e with e
  subst e
  have h := Keeps.refl s
  exact State.writeNum_keeps h ..

theorem execSoftResetDeviceForced_keeps {s t : State} (d : Door) (e : execSoftResetDeviceForced d s = .next t) : Keeps s t := by
  unfold execSoftResetDeviceForced at e
  injection e with e
  subst e
  have h := Keeps.refl s
  exact State.writeNum_keeps h ..

theorem execPortRelease_keeps {s t : State} (p : Nat) (via : Option Door) (e : execPortRelease p via s = .next t) : Keeps s t := by
  unfold execPortRelease at e
  injection e with e
  subst e
  have h := Keeps.refl s
  split
  · exact Keeps.ite (State.writeNum_keeps h ..) h
  · with_reducible apply State.viaConfig_keeps
    · exact h
    · intro x0 h1
      exact State.askRelease_keeps h1 ..

theorem execEvtAck_keeps {s t : State} (d : Door) (value : Nat) (e : execEvtAck d value s = .next t) : Keeps s t := by
  unfold execEvtAck at e
  injection e with e
  subst e
  have h := Keeps.refl s
  exact State.writeNum_keeps h ..

theorem execTelemetryClear_keeps {s t : State} (d : Door) (value : Nat) (e : execTelemetryClear d value s = .next t) : Keeps s t := by
  unfold execTelemetryClear at e
  injection e with e
  subst e
  have h := Keeps.refl s
  exact State.writeNum_keeps h ..

theorem execBibMonClear_keeps {s t : State} (d : Door) (b value : Nat) (e : execBibMonClear d b value s = .next t) : Keeps s t := by
  unfold execBibMonClear at e
  injection e with e
  subst e
  have h := Keeps.refl s
  exact Keeps.ite (State.writeNum_keeps h ..) h

theorem execProbePage_keeps {s t : State} (d : Door) (lpn : Nat) (e : execProbePage d lpn s = .next t) : Keeps s t := by
  unfold execProbePage at e
  injection e with e
  subst e
  have h := Keeps.refl s
  exact State.writeNum_keeps h ..

theorem execProbeWindow_keeps {s t : State} (d : Door) (value : Nat) (e : execProbeWindow d value s = .next t) : Keeps s t := by
  unfold execProbeWindow at e
  injection e with e
  subst e
  have h := Keeps.refl s
  exact State.writeNum_keeps h ..

theorem execSessionKey_keeps {s t : State} (d : Door) (slot : Nat) (key : List Byte) (e : execSessionKey d slot key s = .next t) :
    Keeps s t := by
  unfold execSessionKey at e
  injection e with e
  subst e
  have h := Keeps.refl s
  exact Keeps.ite (State.writeVia_keeps h ..) h

theorem execInfieldTrust_keeps {s t : State} (d : Door) (value : Nat) (e : execInfieldTrust d value s = .next t) : Keeps s t := by
  unfold execInfieldTrust at e
  injection e with e
  subst e
  have h := Keeps.refl s
  exact State.writeNum_keeps h ..

theorem execAzmorUpdate_keeps {s t : State} (d : Door) (image : List Byte) (e : execAzmorUpdate d image s = .next t) : Keeps s t := by
  unfold execAzmorUpdate at e
  injection e with e
  subst e
  have h := Keeps.refl s
  exact State.writeVia_keeps h ..

theorem execAzmorImageStored_keeps {s t : State} (e : execAzmorImageStored s = .next t) : Keeps s t := by
  unfold execAzmorImageStored at e
  injection e with e
  subst e
  have h := Keeps.refl s
  exact State.storeDone_keeps h ..

theorem execPolicyImage_keeps {s t : State} (d : Door) (image : List Byte) (e : execPolicyImage d image s = .next t) : Keeps s t := by
  unfold execPolicyImage at e
  injection e with e
  subst e
  have h := Keeps.refl s
  exact State.writeVia_keeps h ..

theorem execPolicyImageStored_keeps {s t : State} (e : execPolicyImageStored s = .next t) : Keeps s t := by
  unfold execPolicyImageStored at e
  injection e with e
  subst e
  have h := Keeps.refl s
  exact State.onward_keeps (State.storeDone_keeps h ..) ..

theorem execPolicyEnable_keeps {s t : State} (d : Door) (value : Nat) (e : execPolicyEnable d value s = .next t) : Keeps s t := by
  unfold execPolicyEnable at e
  injection e with e
  subst e
  have h := Keeps.refl s
  exact State.writeNum_keeps h ..

theorem execLapRun_keeps {s t : State} (d : Door) (engine : Nat) (e : execLapRun d engine s = .next t) : Keeps s t := by
  unfold execLapRun at e
  injection e with e
  subst e
  have h := Keeps.refl s
  exact State.writeNum_keeps h ..

theorem execTrackUnlock_keeps {s t : State} (d : Door) (value : List Byte) (e : execTrackUnlock d value s = .next t) : Keeps s t := by
  unfold execTrackUnlock at e
  injection e with e
  subst e
  have h := Keeps.refl s
  exact State.writeVia_keeps h ..

theorem execTrackLock_keeps {s t : State} (d : Door) (value : Nat) (e : execTrackLock d value s = .next t) : Keeps s t := by
  unfold execTrackLock at e
  injection e with e
  subst e
  have h := Keeps.refl s
  exact State.writeNum_keeps h ..

theorem execTrackGroup_keeps {s t : State} (d : Door) (value : Nat) (e : execTrackGroup d value s = .next t) : Keeps s t := by
  unfold execTrackGroup at e
  injection e with e
  subst e
  have h := Keeps.refl s
  exact State.writeNum_keeps h ..

theorem execInjectArm_keeps {s t : State} (d : Door) (value : Nat) (e : execInjectArm d value s = .next t) : Keeps s t := by
  unfold execInjectArm at e
  injection e with e
  subst e
  have h := Keeps.refl s
  exact State.writeNum_keeps h ..

theorem execChanMapOut_keeps {s t : State} (d : Door) (c value : Nat) (e : execChanMapOut d c value s = .next t) : Keeps s t := by
  unfold execChanMapOut at e
  injection e with e
  subst e
  have h := Keeps.refl s
  exact Keeps.ite (State.writeNum_keeps h ..) h

theorem execStackPcMapOut_keeps {s t : State} (d : Door) (st pc : Nat) (e : execStackPcMapOut d st pc s = .next t) : Keeps s t := by
  unfold execStackPcMapOut at e
  injection e with e
  subst e
  have h := Keeps.refl s
  exact Keeps.ite (State.writeNum_keeps h ..) h

theorem execChanSrPolicy_keeps {s t : State} (d : Door) (c value : Nat) (e : execChanSrPolicy d c value s = .next t) : Keeps s t := by
  unfold execChanSrPolicy at e
  injection e with e
  subst e
  have h := Keeps.refl s
  exact Keeps.ite (State.writeNum_keeps h ..) h

theorem execTrnRun_keeps {s t : State} (d : Door) (c value : Nat) (e : execTrnRun d c value s = .next t) : Keeps s t := by
  unfold execTrnRun at e
  injection e with e
  subst e
  have h := Keeps.refl s
  exact Keeps.ite (State.writeNum_keeps h ..) h

theorem execTrnSweepDone_keeps {s t : State} (c : Nat) (errors passMap : List Byte) (e : execTrnSweepDone c errors passMap s = .next
    t) :
    Keeps s t := by
  unfold execTrnSweepDone at e
  injection e with e
  subst e
  have h := Keeps.refl s
  exact Keeps.ite (State.setBlob_keeps (State.setBlob_keeps (State.modChan_keeps h ..) ..) ..) h

theorem execPacerIdleDecay_keeps {s t : State} (b : Nat) (leg : Bool) (e : execPacerIdleDecay b leg s = .next t) : Keeps s t := by
  unfold execPacerIdleDecay at e
  injection e with e
  subst e
  have h := Keeps.refl s
  exact Keeps.ite (State.onward_keeps (State.decay_keeps h ..) ..) h

theorem execUrgChange_keeps {s t : State} (p value : Nat) (e : execUrgChange p value s = .next t) : Keeps s t := by
  unfold execUrgChange at e
  injection e with e
  subst e
  have h := Keeps.refl s
  exact State.onward_keeps (State.modPort_keeps h ..) ..

theorem execUrgSlice_keeps {s t : State} (e : execUrgSlice s = .next t) : Keeps s t := by
  unfold execUrgSlice at e
  injection e with e
  subst e
  have h := Keeps.refl s
  exact State.onward_keeps (Keeps.foldl _ h fun t0 x1 h2 => State.urgSliceOf_keeps h2 ..) ..

theorem execBar0AccessOther_keeps {s t : State} (p : Nat) (l : LinkId) (write : Bool) (tag off : Nat) (width value : Nat) (e :
    execBar0AccessOther p l write tag off width value s = .next t) :
    Keeps s t := by
  unfold execBar0AccessOther at e
  injection e with e
  subst e
  have h := Keeps.refl s
  exact State.onward_keeps (State.bar0Access_keeps h ..) ..

theorem execQtail_keeps {s t : State} (p : Nat) (l : LinkId) (q value : Nat) (e : execQtail p l q value s = .next t) : Keeps s t := by
  unfold execQtail at e
  injection e with e
  subst e
  have h := Keeps.refl s
  exact Keeps.ite (State.onward_keeps (State.bar0Access_keeps h ..) ..) h

theorem execQctrlEnable_keeps {s t : State} (p : Nat) (l : LinkId) (q : Nat) (enable : Bool) (e : execQctrlEnable p l q enable s =
    .next t) :
    Keeps s t := by
  unfold execQctrlEnable at e
  injection e with e
  subst e
  have h := Keeps.refl s
  exact Keeps.ite (State.onward_keeps (State.bar0Access_keeps h ..) ..) h

theorem execDescriptorRead_keeps {s t : State} (p q : Nat) (e : execDescriptorRead p q s = .next t) : Keeps s t := by
  unfold execDescriptorRead at e
  injection e with e
  subst e
  have h := Keeps.refl s
  exact State.onward_keeps (State.readRing_keeps h ..) ..

theorem execAttend_keeps {s t : State} (job : Nat) (e : execAttend job s = .next t) : Keeps s t := by
  unfold execAttend at e
  injection e with e
  subst e
  have h := Keeps.refl s
  exact State.startJob_keeps h ..

theorem execGatherAttend_keeps {s t : State} (job : Nat) (e : execGatherAttend job s = .next t) : Keeps s t := by
  unfold execGatherAttend at e
  injection e with e
  subst e
  have h := Keeps.refl s
  exact State.startJob_keeps h ..

theorem execGatherAttendResume_keeps {s t : State} (job : Nat) (e : execGatherAttendResume job s = .next t) : Keeps s t := by
  unfold execGatherAttendResume at e
  injection e with e
  subst e
  have h := Keeps.refl s
  exact State.startJob_keeps h ..

theorem execSealRange_keeps {s t : State} (job : Nat) (e : execSealRange job s = .next t) : Keeps s t := by
  unfold execSealRange at e
  injection e with e
  subst e
  have h := Keeps.refl s
  exact State.startJob_keeps h ..

theorem execPrefetch_keeps {s t : State} (job : Nat) (e : execPrefetch job s = .next t) : Keeps s t := by
  unfold execPrefetch at e
  injection e with e
  subst e
  have h := Keeps.refl s
  exact State.startJob_keeps h ..

theorem execCopyInRaw_keeps {s t : State} (job : Nat) (e : execCopyInRaw job s = .next t) : Keeps s t := by
  unfold execCopyInRaw at e
  injection e with e
  subst e
  have h := Keeps.refl s
  exact State.startJob_keeps h ..

theorem execCopyInImage_keeps {s t : State} (job : Nat) (e : execCopyInImage job s = .next t) : Keeps s t := by
  unfold execCopyInImage at e
  injection e with e
  subst e
  have h := Keeps.refl s
  exact State.startJob_keeps h ..

theorem execCopyOutRaw_keeps {s t : State} (job : Nat) (e : execCopyOutRaw job s = .next t) : Keeps s t := by
  unfold execCopyOutRaw at e
  injection e with e
  subst e
  have h := Keeps.refl s
  exact State.startJob_keeps h ..

theorem execCopyOutImage_keeps {s t : State} (job : Nat) (e : execCopyOutImage job s = .next t) : Keeps s t := by
  unfold execCopyOutImage at e
  injection e with e
  subst e
  have h := Keeps.refl s
  exact State.startJob_keeps h ..

theorem execBaton_keeps {s t : State} (job : Nat) (e : execBaton job s = .next t) : Keeps s t := by
  unfold execBaton at e
  injection e with e
  subst e
  have h := Keeps.refl s
  exact State.startJob_keeps h ..

theorem execCatchPass_keeps {s t : State} (job : Nat) (e : execCatchPass job s = .next t) : Keeps s t := by
  unfold execCatchPass at e
  injection e with e
  subst e
  have h := Keeps.refl s
  exact State.startJob_keeps h ..

theorem execBatonTimeout_keeps {s t : State} (job : Nat) (e : execBatonTimeout job s = .next t) : Keeps s t := by
  unfold execBatonTimeout at e
  injection e with e
  subst e
  have h := Keeps.refl s
  split
  · exact Keeps.ite (State.onward_keeps (State.endPass_keeps h ..) ..) h
  · exact h

theorem execBatonSwap_keeps {s t : State} (token : Nat) (e : execBatonSwap token s = .next t) : Keeps s t := by
  unfold execBatonSwap at e
  injection e with e
  subst e
  have h := Keeps.refl s
  split
  · exact Keeps.ite h (State.onward_keeps (State.swapPass_keeps h ..) ..)
  · exact h

theorem execCodebookBuild_keeps {s t : State} (job : Nat) (e : execCodebookBuild job s = .next t) : Keeps s t := by
  unfold execCodebookBuild at e
  injection e with e
  subst e
  have h := Keeps.refl s
  exact State.startJob_keeps h ..

theorem execFence_keeps {s t : State} (job : Nat) (e : execFence job s = .next t) : Keeps s t := by
  unfold execFence at e
  injection e with e
  subst e
  have h := Keeps.refl s
  exact State.startJob_keeps h ..

theorem execLegDispatch_keeps {s t : State} (e : execLegDispatch s = .next t) : Keeps s t := by
  unfold execLegDispatch at e
  injection e with e
  subst e
  have h := Keeps.refl s
  exact Keeps.ite (State.onward_keeps (State.dispatchLeg_keeps h ..) ..) h

theorem execLegNearWait_keeps {s t : State} (leg : Nat) (e : execLegNearWait leg s = .next t) : Keeps s t := by
  unfold execLegNearWait at e
  injection e with e
  subst e
  have h := Keeps.refl s
  exact State.modLeg_keeps h ..

theorem execLegReachesPage_keeps {s t : State} (leg : Nat) (e : execLegReachesPage leg s = .next t) : Keeps s t := by
  unfold execLegReachesPage at e
  injection e with e
  subst e
  have h := Keeps.refl s
  split
  · exact h
  · split
    · exact h
    · exact Keeps.ite (State.onward_keeps (State.legPage_keeps h ..) ..) h

theorem execLegComplete_keeps {s t : State} (leg : Nat) (e : execLegComplete leg s = .next t) : Keeps s t := by
  unfold execLegComplete at e
  injection e with e
  subst e
  have h := Keeps.refl s
  split
  · exact h
  · split
    · refine Keeps.ite ?_ ?_
      · exact h
      · refine Keeps.ite ?_ ?_
        · with_reducible apply State.onward_keeps
          with_reducible apply State.fireInject_keeps
          · exact h
          · intro x0 h1
            exact State.fenceStride_keeps h1 ..
        · exact State.onward_keeps (State.legDone_keeps h ..) ..
    · exact h

theorem execStrideEngineFailure_keeps {s t : State} (e' : Nat) (e : execStrideEngineFailure e' s = .next t) : Keeps s t := by
  unfold execStrideEngineFailure at e
  injection e with e
  subst e
  have h := Keeps.refl s
  exact Keeps.ite (State.onward_keeps (State.fenceStride_keeps h ..) ..) h

theorem execFinishStoreParity_keeps {s t : State} (job head : Nat) (e : execFinishStoreParity job head s = .next t) : Keeps s t := by
  unfold execFinishStoreParity at e
  injection e with e
  subst e
  have h := Keeps.refl s
  split
  · exact Keeps.ite (State.onward_keeps (State.finishParity_keeps h ..) ..) h
  · exact h

theorem execLapDue_keeps {s t : State} (e : execLapDue s = .next t) : Keeps s t := by
  unfold execLapDue at e
  injection e with e
  subst e
  have h := Keeps.refl s
  exact State.onward_keeps (State.lapDue_keeps h ..) ..

theorem execLapAgeForced_keeps {s t : State} (e' : Nat) (e : execLapAgeForced e' s = .next t) : Keeps s t := by
  unfold execLapAgeForced at e
  injection e with e
  subst e
  have h := Keeps.refl s
  exact State.onward_keeps (State.lapNow_keeps h ..) ..

theorem execLapDrained_keeps {s t : State} (e : execLapDrained s = .next t) : Keeps s t := by
  unfold execLapDrained at e
  injection e with e
  subst e
  have h := Keeps.refl s
  exact State.onward_keeps (State.lapDrained_keeps h ..) ..

theorem execLapDrainTimeout_keeps {s t : State} (e : execLapDrainTimeout s = .next t) : Keeps s t := by
  unfold execLapDrainTimeout at e
  injection e with e
  subst e
  have h := Keeps.refl s
  exact State.onward_keeps (State.lapTimeout_keeps h ..) ..

theorem execLapDone_keeps {s t : State} (pass : Bool) (e : execLapDone pass s = .next t) : Keeps s t := by
  unfold execLapDone at e
  injection e with e
  subst e
  have h := Keeps.refl s
  exact State.onward_keeps (State.lapDone_keeps h ..) ..

theorem execReadmissionLap_keeps {s t : State} (e' : Nat) (pass : Bool) (e : execReadmissionLap e' pass s = .next t) : Keeps s t := by
  unfold execReadmissionLap at e
  injection e with e
  subst e
  have h := Keeps.refl s
  exact State.onward_keeps (State.readmit_keeps h ..) ..

theorem execTapReset_keeps {s t : State} (e : execTapReset s = .next t) : Keeps s t := by
  unfold execTapReset at e
  injection e with e
  subst e
  have h := Keeps.refl s
  exact State.tapStep_keeps h ..

theorem execTckCycle_keeps {s t : State} (tms tdi : Bool) (e : execTckCycle tms tdi s = .next t) : Keeps s t := by
  unfold execTckCycle at e
  injection e with e
  subst e
  have h := Keeps.refl s
  exact State.tapStep_keeps h ..

theorem State.withEcc_keeps {z s : State} (h : Keeps z s) (u : DramUnit) (ecc : Ecc) (act : Ecc → State → State) (hact : ∀ a0 a1,
    Keeps z a1 → Keeps z (act a0 a1)) :
    Keeps z (s.withEcc u ecc act) := by
  unfold State.withEcc
  refine Keeps.ite ?_ ?_
  · with_reducible apply State.fireInject_keeps
    · exact h
    · intro x0 h1
      apply hact
      exact h1
  · refine Keeps.ite ?_ ?_
    · with_reducible apply State.fireInject_keeps
      · exact h
      · intro x2 h3
        apply hact
        exact h3
    · apply hact
      exact h

theorem State.countEcc_keeps {z s : State} (h : Keeps z s) (u : DramUnit) (a : Ecc) : Keeps z (s.countEcc u a) := by
  unfold State.countEcc
  split
  · exact h
  · exact State.countError_keeps h ..
  · exact State.countError_keeps h ..

theorem State.fireUnresponsive_keeps {z s : State} (h : Keeps z s) (c : Nat) : Keeps z (s.fireUnresponsive c) := by
  unfold State.fireUnresponsive
  refine Keeps.ite ?_ ?_
  · with_reducible apply State.fireInject_keeps
    · exact h
    · intro x0 h1
      exact State.unreadable_keeps h1 ..
  · exact h

theorem State.refreshChan_keeps {z s : State} (h : Keeps z s) (c : Nat) : Keeps z (s.refreshChan c) := by
  unfold State.refreshChan
  exact Keeps.ite (State.fireUnresponsive_keeps (State.modChan_keeps h ..) ..) h

theorem execRefresh_keeps {s t : State} (c : Nat) (e : execRefresh c s = .next t) : Keeps s t := by
  unfold execRefresh at e
  injection e with e
  subst e
  have h := Keeps.refl s
  exact State.onward_keeps (State.refreshChan_keeps h ..) ..

theorem execThermalPoll_keeps {s t : State} (temps : List (Option Int)) (e : execThermalPoll temps s = .next t) : Keeps s t := by
  unfold execThermalPoll at e
  injection e with e
  subst e
  have h := Keeps.refl s
  exact Keeps.ite h (Keeps.foldl _ h fun t0 x1 h2 => State.pollChan_keeps h2 ..)

theorem execSprintRefresh_keeps {s t : State} (st pc : Nat) (e : execSprintRefresh st pc s = .next t) : Keeps s t := by
  unfold execSprintRefresh at e
  injection e with e
  subst e
  have h := Keeps.refl s
  exact Keeps.ite (State.modPc_keeps h ..) h

theorem execStackTempChange_keeps {s t : State} (st : Nat) (temp : Int) (e : execStackTempChange st temp s = .next t) :
    Keeps s t := by
  unfold execStackTempChange at e
  injection e with e
  subst e
  have h := Keeps.refl s
  exact Keeps.ite (State.pollStack_keeps h ..) h

theorem State.enterSr_keeps {z s : State} (h : Keeps z s) (c : Nat) : Keeps z (s.enterSr c) := by
  unfold State.enterSr
  extract_lets d0 d1
  exact Keeps.ite (State.modChan_keeps h ..) h

theorem execSrIdleEntry_keeps {s t : State} (c : Nat) (e : execSrIdleEntry c s = .next t) : Keeps s t := by
  unfold execSrIdleEntry at e
  injection e with e
  subst e
  have h := Keeps.refl s
  exact State.enterSr_keeps h ..

theorem State.exitSr_keeps {z s : State} (h : Keeps z s) (c : Nat) : Keeps z (s.exitSr c) := by
  unfold State.exitSr
  exact Keeps.ite (State.modChan_keeps h ..) h

theorem execSrExitDone_keeps {s t : State} (c : Nat) (e : execSrExitDone c s = .next t) : Keeps s t := by
  unfold execSrExitDone at e
  injection e with e
  subst e
  have h := Keeps.refl s
  exact State.onward_keeps (State.exitSr_keeps h ..) ..

theorem State.readBurst_keeps {z s : State} (h : Keeps z s) (u : DramUnit) (id : Nat) (ecc : Ecc) :
    Keeps z (s.readBurst u id ecc) := by
  unfold State.readBurst
  extract_lets d0 d1
  have h2 : Keeps z d1 := by
    dsimp only [d1]
    dsimp only [d0]
    split
    · exact Keeps.ite (State.readLost_keeps (State.countEcc_keeps h ..) ..) (State.countEcc_keeps h ..)
    · exact State.countEcc_keeps h ..
  clear_value d1
  split
  · exact Keeps.ite (State.sprintArrived_keeps h2 ..) h2
  · exact h2

theorem State.urgBurst_keeps {z s : State} (h : Keeps z s) (u : DramUnit) (e' : QEnt) : Keeps z (s.urgBurst u e') := by
  unfold State.urgBurst
  split
  · exact State.urgCount_keeps h ..
  · exact h

theorem State.granuleRead_keeps {z s : State} (h : Keeps z s) (u : DramUnit) (g : Nat) (ecc : Ecc) :
    Keeps z (s.granuleRead u g ecc) := by
  unfold State.granuleRead
  extract_lets d0
  have h1 : Keeps z d0 := State.countEcc_keeps h ..
  clear_value d0
  refine Keeps.ite ?_ ?_
  · split
    · exact State.checkFail_keeps h1 ..
    · exact h1
  · exact h1

theorem State.workBurst_keeps {z s : State} (h : Keeps z s) (u : DramUnit) (id lpn b : Nat) (ecc : Ecc) :
    Keeps z (s.workBurst u id lpn b ecc) := by
  unfold State.workBurst
  extract_lets d0
  have h1 : Keeps z d0 := State.countEcc_keeps h ..
  clear_value d0
  exact Keeps.ite (State.workBad_keeps h1 ..) h1

theorem State.fillBurst_keeps {z s : State} (h : Keeps z s) (u : DramUnit) : Keeps z (s.fillBurst u) := by
  unfold State.fillBurst
  split
  · exact h
  · extract_lets d0
    exact Keeps.ite h (State.regulate_keeps (State.modChan_keeps (State.writeDist_keeps h ..) ..) ..)

theorem State.burstDone_keeps {z s : State} (h : Keeps z s) (u : DramUnit) (legal hits : List Nat) (ecc : Ecc) :
    Keeps z (s.burstDone u legal hits ecc) := by
  unfold State.burstDone
  split
  · refine Keeps.of_snd (by assumption) ?_
    exact State.burst_keeps h ..
  · extract_lets d0
    have h1 : Keeps z d0 := by
      dsimp only [d0]
      with_reducible apply State.urgBurst_keeps
      refine Keeps.of_snd (by assumption) ?_
      exact State.burst_keeps h ..
    clear_value d0
    split
    · with_reducible apply State.withEcc_keeps
      · exact h1
      · intro x2 x3 h4
        exact State.readBurst_keeps h4 ..
    · with_reducible apply State.withEcc_keeps
      · exact h1
      · intro x5 x6 h7
        exact State.workBurst_keeps h7 ..
    · with_reducible apply State.withEcc_keeps
      · exact h1
      · intro x8 x9 h10
        exact State.granuleRead_keeps h10 ..
    · with_reducible apply State.withEcc_keeps
      · exact h1
      · intro x11 x12 h13
        exact State.granuleRead_keeps h13 ..
    · exact State.fillBurst_keeps h1 ..
    · exact h1

theorem execDramBurstDone_keeps {s t : State} (u : DramUnit) (legal rowHits : List Nat) (ecc : Ecc) (e : execDramBurstDone u legal
    rowHits ecc s = .next t) :
    Keeps s t := by
  unfold execDramBurstDone at e
  injection e with e
  subst e
  have h := Keeps.refl s
  refine Keeps.ite ?_ ?_
  · extract_lets d0
    have h1 : Keeps s d0 := State.burstDone_keeps h ..
    clear_value d0
    with_reducible apply State.onward_keeps
    split
    · exact State.fireUnresponsive_keeps h1 ..
    · exact h1
  · exact h

theorem State.scrub_keeps {z s : State} (h : Keeps z s) (u : DramUnit) (place : Nat) : Keeps z (s.scrub u place) := by
  unfold State.scrub
  refine Keeps.ite ?_ ?_
  · exact h
  · split
    · exact State.addFlow_keeps (State.touchUnit_keeps (State.modChan_keeps h ..) ..) ..
    · exact State.addFlow_keeps h ..

theorem execPatrolScrub_keeps {s t : State} (u : DramUnit) (place : Nat) (e : execPatrolScrub u place s = .next t) : Keeps s t := by
  unfold execPatrolScrub at e
  injection e with e
  subst e
  have h := Keeps.refl s
  exact State.onward_keeps (State.scrub_keeps h ..) ..

theorem State.fillNext_keeps {z s : State} (h : Keeps z s) (c : Nat) : Keeps z (s.fillNext c) := by
  unfold State.fillNext
  extract_lets d0
  exact Keeps.ite h (State.addFlow_keeps (State.touchUnit_keeps (State.modChan_keeps h ..) ..) ..)

theorem execBackgroundFill_keeps {s t : State} (c : Nat) (e : execBackgroundFill c s = .next t) : Keeps s t := by
  unfold execBackgroundFill at e
  injection e with e
  subst e
  have h := Keeps.refl s
  exact State.onward_keeps (State.fillNext_keeps h ..) ..

theorem execChannelUnresponsive_keeps {s t : State} (c : Nat) (retrain : Bool) (e : execChannelUnresponsive c retrain s = .next t) :
    Keeps s t := by
  unfold execChannelUnresponsive at e
  injection e with e
  subst e
  have h := Keeps.refl s
  exact State.onward_keeps (Keeps.ite (State.unreadable_keeps h ..) h) ..

theorem execEvacuationDrained_keeps {s t : State} (c : Nat) (e : execEvacuationDrained c s = .next t) : Keeps s t := by
  unfold execEvacuationDrained at e
  injection e with e
  subst e
  have h := Keeps.refl s
  exact Keeps.ite (State.onward_keeps (State.evacDrained_keeps h ..) ..) h

theorem execPseudoChannelFailure_keeps {s t : State} (st pc reason : Nat) (readable : Bool) (e : execPseudoChannelFailure st pc
    reason readable s = .next t) :
    Keeps s t := by
  unfold execPseudoChannelFailure at e
  injection e with e
  subst e
  have h := Keeps.refl s
  exact State.onward_keeps (Keeps.ite (Keeps.ite (State.drainPc_keeps h ..) (State.pcLost_keeps h ..)) h) ..

theorem execPseudoChannelDrained_keeps {s t : State} (st pc : Nat) (e : execPseudoChannelDrained st pc s = .next t) : Keeps s t := by
  unfold execPseudoChannelDrained at e
  injection e with e
  subst e
  have h := Keeps.refl s
  exact Keeps.ite (State.onward_keeps (State.pcDrained_keeps h ..) ..) h

theorem State.takePlots_keeps {z s : State} (h : Keeps z s) (c n : Nat) : Keeps z (s.takePlots c n).1 := by
  unfold State.takePlots
  refine Keeps.foldl_fst _ ?_ ?_
  · exact h
  · intro t0 x1 h2
    split
    · dsimp only
      exact State.takeRun_keeps h2 ..
    · exact h2

theorem State.takeSlots_keeps {z s : State} (h : Keeps z s) (st pc n : Nat) : Keeps z (s.takeSlots st pc n).1 := by
  unfold State.takeSlots
  extract_lets d0 d1 d2 d3
  dsimp only
  exact Keeps.foldl _ h fun t5 x6 h7 => Keeps.plain h7

theorem State.marchStart_keeps {z s : State} (h : Keeps z s) (u : DramUnit) : Keeps z (s.marchStart u) := by
  unfold State.marchStart
  refine Keeps.ite h ?_
  split
  · rename_i c
    have g := State.takePlots_keeps h c 64
    generalize s.takePlots c 64 = r at g ⊢
    dsimp only
    refine State.touchUnit_keeps ?_ _
    exact Keeps.plain g
  · rename_i st p
    have g := State.takeSlots_keeps h st p 16
    generalize s.takeSlots st p 16 = r at g ⊢
    dsimp only
    refine Keeps.ite h ?_
    exact Keeps.plain g

theorem execMarchTestStart_keeps {s t : State} (u : DramUnit) (e : execMarchTestStart u s = .next t) : Keeps s t := by
  unfold execMarchTestStart at e
  injection e with e
  subst e
  have h := Keeps.refl s
  exact State.onward_keeps (State.marchStart_keeps h ..) ..

theorem State.marchFail_keeps {z s : State} (h : Keeps z s) (u : DramUnit) : Keeps z (s.marchFail u) := by
  unfold State.marchFail
  exact State.mapOut_keeps (State.raise_keeps h ..) ..

theorem State.marchDone_keeps {z s : State} (h : Keeps z s) (u : DramUnit) (pass : Bool) : Keeps z (s.marchDone u pass) := by
  unfold State.marchDone
  split
  · exact h
  · extract_lets d0 d1
    have h2 : Keeps z d1 := Keeps.foldl _ (Keeps.plain h) fun t3 x4 h5 => State.freeSpace_keeps h5 ..
    clear_value d1
    refine Keeps.ite ?_ ?_
    · with_reducible apply State.fireInject_keeps
      · exact h2
      · intro x6 h7
        exact State.marchFail_keeps h7 ..
    · exact Keeps.ite h2 (State.marchFail_keeps h2 ..)

theorem execMarchTestDone_keeps {s t : State} (u : DramUnit) (pass : Bool) (e : execMarchTestDone u pass s = .next t) :
    Keeps s t := by
  unfold execMarchTestDone at e
  injection e with e
  subst e
  have h := Keeps.refl s
  exact State.onward_keeps (State.marchDone_keeps h ..) ..

end Sys2Proof.Machine
end

