-- ==== Sys2Proof/Laws/PerInstr.lean ====
section
/-! SUPPORT. Statements made command by command: the ports and coach cores a well-formed command names exist on the part (R9,
Table 11.1). -/

set_option Elab.async false

namespace Sys2Proof

/-- The port a command names by its number, none for the others. -/
def Instr.portOf : Instr → Option Nat
  | .memRd p _ _ _ => some p
  | .memWr p _ _ _ _ _ => some p
  | .memWrPtl p _ _ _ _ _ _ => some p
  | .memSpecRd p _ _ _ => some p
  | .memInv p _ _ _ => some p
  | .bar2Read p _ _ _ _ => some p
  | .bar2Write p _ _ _ _ _ => some p
  | .bar2AtomicOp p _ _ _ => some p
  | .bar0AccessOther p _ _ _ _ _ _ => some p
  | .qtail p _ _ _ => some p
  | .qctrlEnable p _ _ _ => some p
  | .descriptorRead p _ => some p
  | .attend _ => none
  | .gatherAttend _ => none
  | .gatherAttendResume _ => none
  | .sealRange _ => none
  | .prefetch _ => none
  | .copyInRaw _ => none
  | .copyInImage _ => none
  | .copyOutRaw _ => none
  | .copyOutImage _ => none
  | .baton _ => none
  | .catchPass _ => none
  | .batonTimeout _ => none
  | .batonSwap _ => none
  | .codebookBuild _ => none
  | .fence _ => none
  | .legDispatch => none
  | .legNearWait _ => none
  | .legComplete _ => none
  | .strideEngineFailure _ => none
  | .finishStoreParity _ _ => none
  | .atsTranslationCompletion p _ _ _ _ _ => some p
  | .dmaReadCompletion p _ _ _ _ => some p
  | .dmaCompletionTimeout p _ _ => some p
  | .invalidationRequest p _ _ _ _ => some p
  | .invalidationCompletion p _ _ => some p
  | .configWrite p _ _ _ => some p
  | .atsEnableClear p _ => some p
  | .msixUnmask p _ _ => some p
  | .msixEnableClear p _ => some p
  | .functionLevelReset p _ => some p
  | .hotReset p _ => some p
  | .perstAssert p => some p
  | .perstRelease p => some p
  | .d3hotEntry p _ => some p
  | .d0Return p _ => some p
  | .pmeTurnOff p _ => some p
  | .linkUp p _ _ _ _ _ => some p
  | .linkLoss p _ => some p
  | .fatalAerError p _ => some p
  | .ioDieInternalError p => some p
  | .portDrained p => some p
  | .portRelease p _ => some p
  | .l1IdleExpiry p _ => some p
  | .l1Exit p _ => some p
  | .l0pNarrow p => some p
  | .l0pWiden p => some p
  | .l0pHostRequest p _ => some p
  | .hdmDecoderCommit p _ _ _ _ _ _ _ _ _ => some p
  | .identifyMemoryDevice p _ => some p
  | .getPoisonList p _ => some p
  | .clearPoison p _ _ => some p
  | .unsupportedMailboxCommand p _ _ => some p
  | .dictRead p _ _ => some p
  | .dictWrite p _ _ => some p
  | .dictReadBlock p _ _ => some p
  | .dictWriteBlock p _ _ => some p
  | .dictReadStaged p _ _ => some p
  | .dictCommit p _ _ => some p
  | .dictDiscard p _ _ => some p
  | .dictContext p _ _ => some p
  | .dictReservedOpcode p _ _ => some p
  | .read _ => none
  | .write _ => none
  | .readBlock _ => none
  | .writeBlock _ => none
  | .readStaged _ => none
  | .commit _ => none
  | .discard _ => none
  | .wake _ => none
  | .discover _ => none
  | .discoverReplyDelay => none
  | .sessionOpen _ => none
  | .sessionClose _ => none
  | .neighborSolicitation _ _ => none
  | .echoRequest _ _ => none
  | .fieldLinkUp _ => none
  | .sessionIdleExpiry _ => none
  | .stageTimeoutExpiry _ _ => none
  | .wonceWrite _ _ _ _ => none
  | .wonceStoreDone _ _ => none
  | .dictObjectWrite _ _ _ _ => none
  | .persistStoreStart => none
  | .persistStoreDone => none
  | .persistSync _ _ => none
  | .extentRelease _ _ => none
  | .extentReleaseDone _ => none
  | .provisionRatio _ _ => none
  | .provisionSettleMove _ => none
  | .vaultKey _ _ _ => none
  | .cbRetire _ _ _ => none
  | .versionRetired _ _ => none
  | .runRequestPause _ => none
  | .runRequestPauseForced _ => none
  | .runRequestGo _ => none
  | .softResetCore _ _ => none
  | .softResetPort _ _ => none
  | .softResetDevice _ => none
  | .softResetDeviceForced _ => none
  | .evtAck _ _ => none
  | .telemetryClear _ _ => none
  | .bibMonClear _ _ _ => none
  | .probePage _ _ => none
  | .probeWindow _ _ => none
  | .sessionKey _ _ _ => none
  | .infieldTrust _ _ => none
  | .azmorUpdate _ _ => none
  | .policyImage _ _ => none
  | .policyEnable _ _ => none
  | .lapRun _ _ => none
  | .trackUnlock _ _ => none
  | .trackLock _ _ => none
  | .trackGroup _ _ => none
  | .injectArm _ _ => none
  | .chanMapOut _ _ _ => none
  | .stackPcMapOut _ _ _ => none
  | .chanSrPolicy _ _ _ => none
  | .regionBib _ _ _ => none
  | .windowLog2 _ p _ => some p
  | .trnRun _ _ _ => none
  | .trnSweepDone _ _ _ => none
  | .itemStart _ => none
  | .expandDone _ => none
  | .xtsDone _ => none
  | .bypassDone _ => none
  | .unsealDone _ => none
  | .sealClose _ => none
  | .sealCloseLimit _ => none
  | .sealIdleTimer _ => none
  | .moveSwitch _ => none
  | .spaceFreed _ => none
  | .buildDone _ => none
  | .relayEngineFailure _ => none
  | .lastRelayEngineFailure _ => none
  | .promoteSlotWait _ => none
  | .slotCreditGrant _ => none
  | .backingTimeout _ => none
  | .demotionChoice _ => none
  | .slotReclaim _ => none
  | .counterEpoch => none
  | .rebuildRequest _ => none
  | .policyHookCall _ _ _ => none
  | .policyHookReply _ => none
  | .policyHookDeadline => none
  | .pacerIdleDecay _ _ => none
  | .urgChange p _ => some p
  | .urgSlice => none
  | .refresh _ => none
  | .thermalPoll _ => none
  | .srIdleEntry _ => none
  | .srExitDone _ => none
  | .dramBurstDone _ _ _ _ => none
  | .patrolScrub _ _ => none
  | .backgroundFill _ => none
  | .channelUnresponsive _ _ => none
  | .evacuationDrained _ => none
  | .pseudoChannelFailure _ _ _ _ => none
  | .pseudoChannelDrained _ _ => none
  | .sprintRefresh _ _ => none
  | .stackTempChange _ _ => none
  | .marchTestStart _ => none
  | .marchTestDone _ _ => none
  | .lapDue => none
  | .lapAgeForced _ => none
  | .lapDrained => none
  | .lapDrainTimeout => none
  | .lapDone _ => none
  | .readmissionLap _ _ => none
  | .callw _ _ => none
  | .retw _ => none
  | .trap _ _ => none
  | .savectx _ _ => none
  | .loadctx _ _ => none
  | .dropctx _ => none
  | .reti _ => none
  | .cutw _ _ => none
  | .halt _ => none
  | .tallyInstruction _ => none
  | .csrAccess _ _ _ _ => none
  | .illegalInstruction _ => none
  | .interruptEntry _ _ => none
  | .spill _ => none
  | .spillDone _ => none
  | .fillDone _ _ => none
  | .coreWatchdog _ => none
  | .coreRestart _ => none
  | .trackPowerOn => none
  | .trackPowerLoss => none
  | .sysRstAssert => none
  | .sysRstRelease _ _ _ _ _ _ => none
  | .trainingDone _ => none
  | .fieldPgRise => none
  | .fieldPgTimeout => none
  | .fieldPgFall => none
  | .sprintInitDone _ _ => none
  | .pauseDemotionsDone => none
  | .pllLockLoss _ => none
  | .ddrPllLockLoss _ => none
  | .dieSensorPoll _ _ => none
  | .throttleInterval _ _ _ => none
  | .thermtrip => none
  | .debugEnFall => none
  | .tapReset => none
  | .legReachesPage _ => none
  | .wrongPathFetch _ _ _ => none
  | .loadStore _ _ _ _ _ => none
  | .tckCycle _ _ => none
  | .debugEnRise => none
  | .azmorImageStored => none
  | .policyImageStored => none

/-- The coach core a command names. -/
def Instr.coreOf : Instr → Option Nat
  | .memRd _ _ _ _ => none
  | .memWr _ _ _ _ _ _ => none
  | .memWrPtl _ _ _ _ _ _ _ => none
  | .memSpecRd _ _ _ _ => none
  | .memInv _ _ _ _ => none
  | .bar2Read _ _ _ _ _ => none
  | .bar2Write _ _ _ _ _ _ => none
  | .bar2AtomicOp _ _ _ _ => none
  | .bar0AccessOther _ _ _ _ _ _ _ => none
  | .qtail _ _ _ _ => none
  | .qctrlEnable _ _ _ _ => none
  | .descriptorRead _ _ => none
  | .attend _ => none
  | .gatherAttend _ => none
  | .gatherAttendResume _ => none
  | .sealRange _ => none
  | .prefetch _ => none
  | .copyInRaw _ => none
  | .copyInImage _ => none
  | .copyOutRaw _ => none
  | .copyOutImage _ => none
  | .baton _ => none
  | .catchPass _ => none
  | .batonTimeout _ => none
  | .batonSwap _ => none
  | .codebookBuild _ => none
  | .fence _ => none
  | .legDispatch => none
  | .legNearWait _ => none
  | .legComplete _ => none
  | .strideEngineFailure _ => none
  | .finishStoreParity _ _ => none
  | .atsTranslationCompletion _ _ _ _ _ _ => none
  | .dmaReadCompletion _ _ _ _ _ => none
  | .dmaCompletionTimeout _ _ _ => none
  | .invalidationRequest _ _ _ _ _ => none
  | .invalidationCompletion _ _ _ => none
  | .configWrite _ _ _ _ => none
  | .atsEnableClear _ _ => none
  | .msixUnmask _ _ _ => none
  | .msixEnableClear _ _ => none
  | .functionLevelReset _ _ => none
  | .hotReset _ _ => none
  | .perstAssert _ => none
  | .perstRelease _ => none
  | .d3hotEntry _ _ => none
  | .d0Return _ _ => none
  | .pmeTurnOff _ _ => none
  | .linkUp _ _ _ _ _ _ => none
  | .linkLoss _ _ => none
  | .fatalAerError _ _ => none
  | .ioDieInternalError _ => none
  | .portDrained _ => none
  | .portRelease _ _ => none
  | .l1IdleExpiry _ _ => none
  | .l1Exit _ _ => none
  | .l0pNarrow _ => none
  | .l0pWiden _ => none
  | .l0pHostRequest _ _ => none
  | .hdmDecoderCommit _ _ _ _ _ _ _ _ _ _ => none
  | .identifyMemoryDevice _ _ => none
  | .getPoisonList _ _ => none
  | .clearPoison _ _ _ => none
  | .unsupportedMailboxCommand _ _ _ => none
  | .dictRead _ _ _ => none
  | .dictWrite _ _ _ => none
  | .dictReadBlock _ _ _ => none
  | .dictWriteBlock _ _ _ => none
  | .dictReadStaged _ _ _ => none
  | .dictCommit _ _ _ => none
  | .dictDiscard _ _ _ => none
  | .dictContext _ _ _ => none
  | .dictReservedOpcode _ _ _ => none
  | .read _ => none
  | .write _ => none
  | .readBlock _ => none
  | .writeBlock _ => none
  | .readStaged _ => none
  | .commit _ => none
  | .discard _ => none
  | .wake _ => none
  | .discover _ => none
  | .discoverReplyDelay => none
  | .sessionOpen _ => none
  | .sessionClose _ => none
  | .neighborSolicitation _ _ => none
  | .echoRequest _ _ => none
  | .fieldLinkUp _ => none
  | .sessionIdleExpiry _ => none
  | .stageTimeoutExpiry _ _ => none
  | .wonceWrite _ _ _ _ => none
  | .wonceStoreDone _ _ => none
  | .dictObjectWrite _ _ _ _ => none
  | .persistStoreStart => none
  | .persistStoreDone => none
  | .persistSync _ _ => none
  | .extentRelease _ _ => none
  | .extentReleaseDone _ => none
  | .provisionRatio _ _ => none
  | .provisionSettleMove _ => none
  | .vaultKey _ _ _ => none
  | .cbRetire _ _ _ => none
  | .versionRetired _ _ => none
  | .runRequestPause _ => none
  | .runRequestPauseForced _ => none
  | .runRequestGo _ => none
  | .softResetCore _ _ => none
  | .softResetPort _ _ => none
  | .softResetDevice _ => none
  | .softResetDeviceForced _ => none
  | .evtAck _ _ => none
  | .telemetryClear _ _ => none
  | .bibMonClear _ _ _ => none
  | .probePage _ _ => none
  | .probeWindow _ _ => none
  | .sessionKey _ _ _ => none
  | .infieldTrust _ _ => none
  | .azmorUpdate _ _ => none
  | .policyImage _ _ => none
  | .policyEnable _ _ => none
  | .lapRun _ _ => none
  | .trackUnlock _ _ => none
  | .trackLock _ _ => none
  | .trackGroup _ _ => none
  | .injectArm _ _ => none
  | .chanMapOut _ _ _ => none
  | .stackPcMapOut _ _ _ => none
  | .chanSrPolicy _ _ _ => none
  | .regionBib _ _ _ => none
  | .windowLog2 _ _ _ => none
  | .trnRun _ _ _ => none
  | .trnSweepDone _ _ _ => none
  | .itemStart _ => none
  | .expandDone _ => none
  | .xtsDone _ => none
  | .bypassDone _ => none
  | .unsealDone _ => none
  | .sealClose _ => none
  | .sealCloseLimit _ => none
  | .sealIdleTimer _ => none
  | .moveSwitch _ => none
  | .spaceFreed _ => none
  | .buildDone _ => none
  | .relayEngineFailure _ => none
  | .lastRelayEngineFailure _ => none
  | .promoteSlotWait _ => none
  | .slotCreditGrant _ => none
  | .backingTimeout _ => none
  | .demotionChoice _ => none
  | .slotReclaim _ => none
  | .counterEpoch => none
  | .rebuildRequest _ => none
  | .policyHookCall _ _ _ => none
  | .policyHookReply _ => none
  | .policyHookDeadline => none
  | .pacerIdleDecay _ _ => none
  | .urgChange _ _ => none
  | .urgSlice => none
  | .refresh _ => none
  | .thermalPoll _ => none
  | .srIdleEntry _ => none
  | .srExitDone _ => none
  | .dramBurstDone _ _ _ _ => none
  | .patrolScrub _ _ => none
  | .backgroundFill _ => none
  | .channelUnresponsive _ _ => none
  | .evacuationDrained _ => none
  | .pseudoChannelFailure _ _ _ _ => none
  | .pseudoChannelDrained _ _ => none
  | .sprintRefresh _ _ => none
  | .stackTempChange _ _ => none
  | .marchTestStart _ => none
  | .marchTestDone _ _ => none
  | .lapDue => none
  | .lapAgeForced _ => none
  | .lapDrained => none
  | .lapDrainTimeout => none
  | .lapDone _ => none
  | .readmissionLap _ _ => none
  | .callw n _ => some n
  | .retw n => some n
  | .trap n _ => some n
  | .savectx n _ => some n
  | .loadctx n _ => some n
  | .dropctx n => some n
  | .reti n => some n
  | .cutw n _ => some n
  | .halt n => some n
  | .tallyInstruction n => some n
  | .csrAccess n _ _ _ => some n
  | .illegalInstruction n => some n
  | .interruptEntry n _ => some n
  | .spill n => some n
  | .spillDone n => some n
  | .fillDone n _ => some n
  | .coreWatchdog n => some n
  | .coreRestart n => some n
  | .trackPowerOn => none
  | .trackPowerLoss => none
  | .sysRstAssert => none
  | .sysRstRelease _ _ _ _ _ _ => none
  | .trainingDone _ => none
  | .fieldPgRise => none
  | .fieldPgTimeout => none
  | .fieldPgFall => none
  | .sprintInitDone _ _ => none
  | .pauseDemotionsDone => none
  | .pllLockLoss _ => none
  | .ddrPllLockLoss _ => none
  | .dieSensorPoll _ _ => none
  | .throttleInterval _ _ _ => none
  | .thermtrip => none
  | .debugEnFall => none
  | .tapReset => none
  | .legReachesPage _ => none
  | .wrongPathFetch n _ _ => some n
  | .loadStore n _ _ _ _ => some n
  | .tckCycle _ _ => none
  | .debugEnRise => none
  | .azmorImageStored => none
  | .policyImageStored => none

namespace Laws.NamesUnits

/-- A well-formed command names a port and a core of the part, where it names one. -/
def Statement (i : Instr) : Prop := i.wf = true → (∀ p ∈ i.portOf, p < 4) ∧ ∀ n ∈ i.coreOf, n < 4

theorem left {a b : Bool} (h : (a && b) = true) : a = true := (Bool.and_eq_true_iff.1 h).1

theorem right {a b : Bool} (h : (a && b) = true) : b = true := (Bool.and_eq_true_iff.1 h).2

theorem none {i : Instr} (p : i.portOf = .none) (c : i.coreOf = .none) : Statement i :=
  fun _ => by rw [p, c]; exact ⟨nofun, nofun⟩

theorem port {i : Instr} {n : Nat} (p : i.portOf = some n) (c : i.coreOf = .none) (h : i.wf = true → okPort n = true) : Statement i :=
  fun w => by rw [p, c]; exact ⟨fun _ e => Option.some.inj e ▸ of_decide_eq_true (h w), nofun⟩

theorem core {i : Instr} {n : Nat} (p : i.portOf = .none) (c : i.coreOf = some n) (h : i.wf = true → okCore n = true) : Statement i :=
  fun w => by rw [p, c]; exact ⟨nofun, fun _ e => Option.some.inj e ▸ of_decide_eq_true (h w)⟩

theorem mem {p tag hpa : Nat} (h : okMem p tag hpa = true) : okPort p = true := left (left h)

theorem pcie {p tag off : Nat} (h : okPcie p tag off = true) : okPort p = true := left h

theorem memRd (p : Nat) (l : LinkId) (tag hpa : Nat) : Statement (.memRd p l tag hpa) := port rfl rfl fun h => (mem h)

theorem memWr (p : Nat) (l : LinkId) (tag hpa : Nat) (data : List Byte) (poison : Bool) : Statement (.memWr p l tag hpa data poison) := port rfl rfl fun h => (mem (left h))

theorem memWrPtl (p : Nat) (l : LinkId) (tag hpa : Nat) (data : List Byte) (mask : BitVec 64) (poison : Bool) : Statement (.memWrPtl p l tag hpa data mask poison) := port rfl rfl fun h => (mem (left h))

theorem memSpecRd (p : Nat) (l : LinkId) (tag hpa : Nat) : Statement (.memSpecRd p l tag hpa) := port rfl rfl fun h => (mem h)

theorem memInv (p : Nat) (l : LinkId) (tag hpa : Nat) : Statement (.memInv p l tag hpa) := port rfl rfl fun h => (mem h)

theorem bar2Read (p : Nat) (l : LinkId) (tag off len : Nat) : Statement (.bar2Read p l tag off len) := port rfl rfl fun h => (pcie (left h))

theorem bar2Write (p : Nat) (l : LinkId) (off : Nat) (data : List Byte) (relaxed poison : Bool) : Statement (.bar2Write p l off data relaxed poison) := port rfl rfl fun h => (pcie (left h))

theorem bar2AtomicOp (p : Nat) (l : LinkId) (tag off : Nat) : Statement (.bar2AtomicOp p l tag off) := port rfl rfl fun h => (pcie h)

theorem bar0AccessOther (p : Nat) (l : LinkId) (write : Bool) (tag off width value : Nat) : Statement (.bar0AccessOther p l write tag off width value) := port rfl rfl fun h => (pcie (left h))

theorem qtail (p : Nat) (l : LinkId) (q value : Nat) : Statement (.qtail p l q value) := port rfl rfl fun h => (left (left h))

theorem qctrlEnable (p : Nat) (l : LinkId) (q : Nat) (enable : Bool) : Statement (.qctrlEnable p l q enable) := port rfl rfl fun h => (left h)

theorem descriptorRead (p q : Nat) : Statement (.descriptorRead p q) := port rfl rfl fun h => (left h)

theorem attend (job : Nat) : Statement (.attend job) := none rfl rfl

theorem gatherAttend (job : Nat) : Statement (.gatherAttend job) := none rfl rfl

theorem gatherAttendResume (job : Nat) : Statement (.gatherAttendResume job) := none rfl rfl

theorem sealRange (job : Nat) : Statement (.sealRange job) := none rfl rfl

theorem prefetch (job : Nat) : Statement (.prefetch job) := none rfl rfl

theorem copyInRaw (job : Nat) : Statement (.copyInRaw job) := none rfl rfl

theorem copyInImage (job : Nat) : Statement (.copyInImage job) := none rfl rfl

theorem copyOutRaw (job : Nat) : Statement (.copyOutRaw job) := none rfl rfl

theorem copyOutImage (job : Nat) : Statement (.copyOutImage job) := none rfl rfl

theorem baton (job : Nat) : Statement (.baton job) := none rfl rfl

theorem catchPass (job : Nat) : Statement (.catchPass job) := none rfl rfl

theorem batonTimeout (job : Nat) : Statement (.batonTimeout job) := none rfl rfl

theorem batonSwap (token : Nat) : Statement (.batonSwap token) := none rfl rfl

theorem codebookBuild (job : Nat) : Statement (.codebookBuild job) := none rfl rfl

theorem fence (job : Nat) : Statement (.fence job) := none rfl rfl

theorem legDispatch : Statement (.legDispatch) := none rfl rfl

theorem legNearWait (leg : Nat) : Statement (.legNearWait leg) := none rfl rfl

theorem legComplete (leg : Nat) : Statement (.legComplete leg) := none rfl rfl

theorem strideEngineFailure (e : Nat) : Statement (.strideEngineFailure e) := none rfl rfl

theorem finishStoreParity (job head : Nat) : Statement (.finishStoreParity job head) := none rfl rfl

theorem atsTranslationCompletion (p : Nat) (l : LinkId) (addr size : Nat) (r w : Bool) : Statement (.atsTranslationCompletion p l addr size r w) := port rfl rfl fun h => (left (left h))

theorem dmaReadCompletion (p : Nat) (l : LinkId) (id : Nat) (status : DmaStatus) (data : List Byte) : Statement (.dmaReadCompletion p l id status data) := port rfl rfl fun h => (left h)

theorem dmaCompletionTimeout (p : Nat) (l : LinkId) (id : Nat) : Statement (.dmaCompletionTimeout p l id) := port rfl rfl fun h => h

theorem invalidationRequest (p : Nat) (l : LinkId) (tag addr size : Nat) : Statement (.invalidationRequest p l tag addr size) := port rfl rfl fun h => (left (left (left h)))

theorem invalidationCompletion (p : Nat) (l : LinkId) (tag : Nat) : Statement (.invalidationCompletion p l tag) := port rfl rfl fun h => (left h)

theorem configWrite (p : Nat) (l : LinkId) (off value : Nat) : Statement (.configWrite p l off value) := port rfl rfl fun h => (left (left h))

theorem atsEnableClear (p : Nat) (l : LinkId) : Statement (.atsEnableClear p l) := port rfl rfl fun h => h

theorem msixUnmask (p : Nat) (l : LinkId) (vec : Nat) : Statement (.msixUnmask p l vec) := port rfl rfl fun h => (left h)

theorem msixEnableClear (p : Nat) (l : LinkId) : Statement (.msixEnableClear p l) := port rfl rfl fun h => h

theorem functionLevelReset (p : Nat) (l : LinkId) : Statement (.functionLevelReset p l) := port rfl rfl fun h => h

theorem hotReset (p : Nat) (l : LinkId) : Statement (.hotReset p l) := port rfl rfl fun h => h

theorem perstAssert (p : Nat) : Statement (.perstAssert p) := port rfl rfl fun h => h

theorem perstRelease (p : Nat) : Statement (.perstRelease p) := port rfl rfl fun h => h

theorem d3hotEntry (p : Nat) (l : LinkId) : Statement (.d3hotEntry p l) := port rfl rfl fun h => h

theorem d0Return (p : Nat) (l : LinkId) : Statement (.d0Return p l) := port rfl rfl fun h => h

theorem pmeTurnOff (p : Nat) (l : LinkId) : Statement (.pmeTurnOff p l) := port rfl rfl fun h => h

theorem linkUp (p : Nat) (l : LinkId) (hostSpeed hostWidth : Nat) (partnerFlit ask68 : Bool) :
    Statement (.linkUp p l hostSpeed hostWidth partnerFlit ask68) := port rfl rfl fun h => (left (left h))

theorem linkLoss (p : Nat) (l : LinkId) : Statement (.linkLoss p l) := port rfl rfl fun h => h

theorem fatalAerError (p : Nat) (l : LinkId) : Statement (.fatalAerError p l) := port rfl rfl fun h => h

theorem ioDieInternalError (p : Nat) : Statement (.ioDieInternalError p) := port rfl rfl fun h => h

theorem portDrained (p : Nat) : Statement (.portDrained p) := port rfl rfl fun h => h

theorem portRelease (p : Nat) (via : Option Door) : Statement (.portRelease p via) := port rfl rfl fun h => (left h)

theorem l1IdleExpiry (p : Nat) (l : LinkId) : Statement (.l1IdleExpiry p l) := port rfl rfl fun h => h

theorem l1Exit (p : Nat) (l : LinkId) : Statement (.l1Exit p l) := port rfl rfl fun h => h

theorem l0pNarrow (p : Nat) : Statement (.l0pNarrow p) := port rfl rfl fun h => h

theorem l0pWiden (p : Nat) : Statement (.l0pWiden p) := port rfl rfl fun h => h

theorem l0pHostRequest (p width : Nat) : Statement (.l0pHostRequest p width) := port rfl rfl fun h => (left h)

theorem hdmDecoderCommit (p : Nat) (l : LinkId) (d base size ways gran skip pos : Nat) (commit : Bool) : Statement (.hdmDecoderCommit p l d base size ways gran skip pos commit) := port rfl rfl fun h => (left (left (left (left h))))

theorem identifyMemoryDevice (p : Nat) (l : LinkId) : Statement (.identifyMemoryDevice p l) := port rfl rfl fun h => h

theorem getPoisonList (p : Nat) (l : LinkId) : Statement (.getPoisonList p l) := port rfl rfl fun h => h

theorem clearPoison (p : Nat) (l : LinkId) (dpa : Nat) : Statement (.clearPoison p l dpa) := port rfl rfl fun h => (left h)

theorem unsupportedMailboxCommand (p : Nat) (l : LinkId) (opcode : Nat) : Statement (.unsupportedMailboxCommand p l opcode) := port rfl rfl fun h => (left h)

theorem dictRead (p : Nat) (l : LinkId) (payload : List Byte) : Statement (.dictRead p l payload) := port rfl rfl fun h => (left h)

theorem dictWrite (p : Nat) (l : LinkId) (payload : List Byte) : Statement (.dictWrite p l payload) := port rfl rfl fun h => (left h)

theorem dictReadBlock (p : Nat) (l : LinkId) (payload : List Byte) : Statement (.dictReadBlock p l payload) := port rfl rfl fun h => (left h)

theorem dictWriteBlock (p : Nat) (l : LinkId) (payload : List Byte) : Statement (.dictWriteBlock p l payload) := port rfl rfl fun h => (left h)

theorem dictReadStaged (p : Nat) (l : LinkId) (payload : List Byte) : Statement (.dictReadStaged p l payload) := port rfl rfl fun h => (left h)

theorem dictCommit (p : Nat) (l : LinkId) (payload : List Byte) : Statement (.dictCommit p l payload) := port rfl rfl fun h => (left h)

theorem dictDiscard (p : Nat) (l : LinkId) (payload : List Byte) : Statement (.dictDiscard p l payload) := port rfl rfl fun h => (left h)

theorem dictContext (p : Nat) (l : LinkId) (payload : List Byte) : Statement (.dictContext p l payload) := port rfl rfl fun h => (left h)

theorem dictReservedOpcode (p : Nat) (l : LinkId) (opcode : Nat) : Statement (.dictReservedOpcode p l opcode) := port rfl rfl fun h => (left h)

theorem read (f : Frame) : Statement (.read f) := none rfl rfl

theorem write (f : Frame) : Statement (.write f) := none rfl rfl

theorem readBlock (f : Frame) : Statement (.readBlock f) := none rfl rfl

theorem writeBlock (f : Frame) : Statement (.writeBlock f) := none rfl rfl

theorem readStaged (f : Frame) : Statement (.readStaged f) := none rfl rfl

theorem commit (f : Frame) : Statement (.commit f) := none rfl rfl

theorem discard (f : Frame) : Statement (.discard f) := none rfl rfl

theorem wake (f : Frame) : Statement (.wake f) := none rfl rfl

theorem discover (f : Frame) : Statement (.discover f) := none rfl rfl

theorem discoverReplyDelay : Statement (.discoverReplyDelay) := none rfl rfl

theorem sessionOpen (f : Frame) : Statement (.sessionOpen f) := none rfl rfl

theorem sessionClose (f : Frame) : Statement (.sessionClose f) := none rfl rfl

theorem neighborSolicitation (src : Nat) (target : List Byte) : Statement (.neighborSolicitation src target) := none rfl rfl

theorem echoRequest (src : Nat) (payload : List Byte) : Statement (.echoRequest src payload) := none rfl rfl

theorem fieldLinkUp (duplicate : Bool) : Statement (.fieldLinkUp duplicate) := none rfl rfl

theorem sessionIdleExpiry (id : Nat) : Statement (.sessionIdleExpiry id) := none rfl rfl

theorem stageTimeoutExpiry (d : Door) (group : Option Nat) : Statement (.stageTimeoutExpiry d group) := none rfl rfl

theorem wonceWrite (d : Door) (index sub : Nat) (value : List Byte) : Statement (.wonceWrite d index sub value) := none rfl rfl

theorem wonceStoreDone (index sub : Nat) : Statement (.wonceStoreDone index sub) := none rfl rfl

theorem dictObjectWrite (d : Door) (index sub : Nat) (value : List Byte) : Statement (.dictObjectWrite d index sub value) := none rfl rfl

theorem persistStoreStart : Statement (.persistStoreStart) := none rfl rfl

theorem persistStoreDone : Statement (.persistStoreDone) := none rfl rfl

theorem persistSync (d : Door) (value : Nat) : Statement (.persistSync d value) := none rfl rfl

theorem extentRelease (d : Door) (handle : Nat) : Statement (.extentRelease d handle) := none rfl rfl

theorem extentReleaseDone (handle : Nat) : Statement (.extentReleaseDone handle) := none rfl rfl

theorem provisionRatio (d : Door) (value : Nat) : Statement (.provisionRatio d value) := none rfl rfl

theorem provisionSettleMove (lpn : Nat) : Statement (.provisionSettleMove lpn) := none rfl rfl

theorem vaultKey (d : Door) (region : Nat) (key : List Byte) : Statement (.vaultKey d region key) := none rfl rfl

theorem cbRetire (d : Door) (region slot : Nat) : Statement (.cbRetire d region slot) := none rfl rfl

theorem versionRetired (region slot : Nat) : Statement (.versionRetired region slot) := none rfl rfl

theorem runRequestPause (d : Door) : Statement (.runRequestPause d) := none rfl rfl

theorem runRequestPauseForced (d : Door) : Statement (.runRequestPauseForced d) := none rfl rfl

theorem runRequestGo (d : Door) : Statement (.runRequestGo d) := none rfl rfl

theorem softResetCore (d : Door) (core : Nat) : Statement (.softResetCore d core) := none rfl rfl

theorem softResetPort (d : Door) (p : Nat) : Statement (.softResetPort d p) := none rfl rfl

theorem softResetDevice (d : Door) : Statement (.softResetDevice d) := none rfl rfl

theorem softResetDeviceForced (d : Door) : Statement (.softResetDeviceForced d) := none rfl rfl

theorem evtAck (d : Door) (value : Nat) : Statement (.evtAck d value) := none rfl rfl

theorem telemetryClear (d : Door) (value : Nat) : Statement (.telemetryClear d value) := none rfl rfl

theorem bibMonClear (d : Door) (b value : Nat) : Statement (.bibMonClear d b value) := none rfl rfl

theorem probePage (d : Door) (lpn : Nat) : Statement (.probePage d lpn) := none rfl rfl

theorem probeWindow (d : Door) (value : Nat) : Statement (.probeWindow d value) := none rfl rfl

theorem sessionKey (d : Door) (slot : Nat) (key : List Byte) : Statement (.sessionKey d slot key) := none rfl rfl

theorem infieldTrust (d : Door) (value : Nat) : Statement (.infieldTrust d value) := none rfl rfl

theorem azmorUpdate (d : Door) (image : List Byte) : Statement (.azmorUpdate d image) := none rfl rfl

theorem policyImage (d : Door) (image : List Byte) : Statement (.policyImage d image) := none rfl rfl

theorem policyEnable (d : Door) (value : Nat) : Statement (.policyEnable d value) := none rfl rfl

theorem lapRun (d : Door) (engine : Nat) : Statement (.lapRun d engine) := none rfl rfl

theorem trackUnlock (d : Door) (value : List Byte) : Statement (.trackUnlock d value) := none rfl rfl

theorem trackLock (d : Door) (value : Nat) : Statement (.trackLock d value) := none rfl rfl

theorem trackGroup (d : Door) (value : Nat) : Statement (.trackGroup d value) := none rfl rfl

theorem injectArm (d : Door) (value : Nat) : Statement (.injectArm d value) := none rfl rfl

theorem chanMapOut (d : Door) (c value : Nat) : Statement (.chanMapOut d c value) := none rfl rfl

theorem stackPcMapOut (d : Door) (st pc : Nat) : Statement (.stackPcMapOut d st pc) := none rfl rfl

theorem chanSrPolicy (d : Door) (c value : Nat) : Statement (.chanSrPolicy d c value) := none rfl rfl

theorem regionBib (d : Door) (region b : Nat) : Statement (.regionBib d region b) := none rfl rfl

theorem windowLog2 (d : Door) (p value : Nat) : Statement (.windowLog2 d p value) := port rfl rfl fun h => (right h)

theorem trnRun (d : Door) (c value : Nat) : Statement (.trnRun d c value) := none rfl rfl

theorem trnSweepDone (c : Nat) (errors passMap : List Byte) : Statement (.trnSweepDone c errors passMap) := none rfl rfl

theorem itemStart (e : Nat) : Statement (.itemStart e) := none rfl rfl

theorem expandDone (item : Nat) : Statement (.expandDone item) := none rfl rfl

theorem xtsDone (item : Nat) : Statement (.xtsDone item) := none rfl rfl

theorem bypassDone (item : Nat) : Statement (.bypassDone item) := none rfl rfl

theorem unsealDone (item : Nat) : Statement (.unsealDone item) := none rfl rfl

theorem sealClose (move : Nat) : Statement (.sealClose move) := none rfl rfl

theorem sealCloseLimit (move : Nat) : Statement (.sealCloseLimit move) := none rfl rfl

theorem sealIdleTimer (lpn : Nat) : Statement (.sealIdleTimer lpn) := none rfl rfl

theorem moveSwitch (move : Nat) : Statement (.moveSwitch move) := none rfl rfl

theorem spaceFreed (ticket : Nat) : Statement (.spaceFreed ticket) := none rfl rfl

theorem buildDone (item : Nat) : Statement (.buildDone item) := none rfl rfl

theorem relayEngineFailure (e : Nat) : Statement (.relayEngineFailure e) := none rfl rfl

theorem lastRelayEngineFailure (e : Nat) : Statement (.lastRelayEngineFailure e) := none rfl rfl

theorem promoteSlotWait (req : Nat) : Statement (.promoteSlotWait req) := none rfl rfl

theorem slotCreditGrant (req : Nat) : Statement (.slotCreditGrant req) := none rfl rfl

theorem backingTimeout (req : Nat) : Statement (.backingTimeout req) := none rfl rfl

theorem demotionChoice (lpns : List Nat) : Statement (.demotionChoice lpns) := none rfl rfl

theorem slotReclaim (lpn : Nat) : Statement (.slotReclaim lpn) := none rfl rfl

theorem counterEpoch : Statement (.counterEpoch) := none rfl rfl

theorem rebuildRequest (region : Nat) : Statement (.rebuildRequest region) := none rfl rfl

theorem policyHookCall (hook : Nat) (lpns : List Nat) (base : Nat) : Statement (.policyHookCall hook lpns base) := none rfl rfl

theorem policyHookReply (value : Nat) : Statement (.policyHookReply value) := none rfl rfl

theorem policyHookDeadline : Statement (.policyHookDeadline) := none rfl rfl

theorem pacerIdleDecay (b : Nat) (leg : Bool) : Statement (.pacerIdleDecay b leg) := none rfl rfl

theorem urgChange (p value : Nat) : Statement (.urgChange p value) := port rfl rfl fun h => (left h)

theorem urgSlice : Statement (.urgSlice) := none rfl rfl

theorem refresh (c : Nat) : Statement (.refresh c) := none rfl rfl

theorem thermalPoll (temps : List (Option Int)) : Statement (.thermalPoll temps) := none rfl rfl

theorem srIdleEntry (c : Nat) : Statement (.srIdleEntry c) := none rfl rfl

theorem srExitDone (c : Nat) : Statement (.srExitDone c) := none rfl rfl

theorem dramBurstDone (u : DramUnit) (legal rowHits : List Nat) (ecc : Ecc) : Statement (.dramBurstDone u legal rowHits ecc) := none rfl rfl

theorem patrolScrub (u : DramUnit) (place : Nat) : Statement (.patrolScrub u place) := none rfl rfl

theorem backgroundFill (c : Nat) : Statement (.backgroundFill c) := none rfl rfl

theorem channelUnresponsive (c : Nat) (retrain : Bool) : Statement (.channelUnresponsive c retrain) := none rfl rfl

theorem evacuationDrained (c : Nat) : Statement (.evacuationDrained c) := none rfl rfl

theorem pseudoChannelFailure (st pc reason : Nat) (readable : Bool) : Statement (.pseudoChannelFailure st pc reason readable) := none rfl rfl

theorem pseudoChannelDrained (st pc : Nat) : Statement (.pseudoChannelDrained st pc) := none rfl rfl

theorem sprintRefresh (st pc : Nat) : Statement (.sprintRefresh st pc) := none rfl rfl

theorem stackTempChange (st : Nat) (temp : Int) : Statement (.stackTempChange st temp) := none rfl rfl

theorem marchTestStart (u : DramUnit) : Statement (.marchTestStart u) := none rfl rfl

theorem marchTestDone (u : DramUnit) (pass : Bool) : Statement (.marchTestDone u pass) := none rfl rfl

theorem lapDue : Statement (.lapDue) := none rfl rfl

theorem lapAgeForced (e : Nat) : Statement (.lapAgeForced e) := none rfl rfl

theorem lapDrained : Statement (.lapDrained) := none rfl rfl

theorem lapDrainTimeout : Statement (.lapDrainTimeout) := none rfl rfl

theorem lapDone (pass : Bool) : Statement (.lapDone pass) := none rfl rfl

theorem readmissionLap (e : Nat) (pass : Bool) : Statement (.readmissionLap e pass) := none rfl rfl

theorem callw (n : Nat) (offset : BitVec 26) : Statement (.callw n offset) := core rfl rfl fun h => h

theorem retw (n : Nat) : Statement (.retw n) := core rfl rfl fun h => h

theorem trap (n number : Nat) : Statement (.trap n number) := core rfl rfl fun h => (left h)

theorem savectx (n : Nat) (mask : BitVec 4) : Statement (.savectx n mask) := core rfl rfl fun h => h

theorem loadctx (n : Nat) (mask : BitVec 4) : Statement (.loadctx n mask) := core rfl rfl fun h => h

theorem dropctx (n : Nat) : Statement (.dropctx n) := core rfl rfl fun h => h

theorem reti (n : Nat) : Statement (.reti n) := core rfl rfl fun h => h

theorem cutw (n reg : Nat) : Statement (.cutw n reg) := core rfl rfl fun h => (left h)

theorem halt (n : Nat) : Statement (.halt n) := core rfl rfl fun h => h

theorem tallyInstruction (n : Nat) : Statement (.tallyInstruction n) := core rfl rfl fun h => h

theorem csrAccess (n csr : Nat) (write : Bool) (reg : Nat) : Statement (.csrAccess n csr write reg) := core rfl rfl fun h => (left h)

theorem illegalInstruction (n : Nat) : Statement (.illegalInstruction n) := core rfl rfl fun h => h

theorem interruptEntry (n line : Nat) : Statement (.interruptEntry n line) := core rfl rfl fun h => (left h)

theorem spill (n : Nat) : Statement (.spill n) := core rfl rfl fun h => h

theorem spillDone (n : Nat) : Statement (.spillDone n) := core rfl rfl fun h => h

theorem fillDone (n : Nat) (uncorrectable : Bool) : Statement (.fillDone n uncorrectable) := core rfl rfl fun h => h

theorem coreWatchdog (n : Nat) : Statement (.coreWatchdog n) := core rfl rfl fun h => h

theorem coreRestart (n : Nat) : Statement (.coreRestart n) := core rfl rfl fun h => (left h)

theorem trackPowerOn : Statement (.trackPowerOn) := none rfl rfl

theorem trackPowerLoss : Statement (.trackPowerLoss) := none rfl rfl

theorem sysRstAssert : Statement (.sysRstAssert) := none rfl rfl

theorem sysRstRelease (node : BitVec 4) (bankOk otherBankOk flashFound crcA crcB : Bool) : Statement (.sysRstRelease node bankOk otherBankOk flashFound crcA crcB) := none rfl rfl

theorem trainingDone (chans : List ChanTrain) : Statement (.trainingDone chans) := none rfl rfl

theorem fieldPgRise : Statement (.fieldPgRise) := none rfl rfl

theorem fieldPgTimeout : Statement (.fieldPgTimeout) := none rfl rfl

theorem fieldPgFall : Statement (.fieldPgFall) := none rfl rfl

theorem sprintInitDone (pcBad : List (Nat × Nat)) (perst : BitVec 4) : Statement (.sprintInitDone pcBad perst) := none rfl rfl

theorem pauseDemotionsDone : Statement (.pauseDemotionsDone) := none rfl rfl

theorem pllLockLoss (hub : Bool) : Statement (.pllLockLoss hub) := none rfl rfl

theorem ddrPllLockLoss (q : Nat) : Statement (.ddrPllLockLoss q) := none rfl rfl

theorem dieSensorPoll (hub io : List Int) : Statement (.dieSensorPoll hub io) := none rfl rfl

theorem throttleInterval (peak : Int) (avgPower trackPower : Nat) : Statement (.throttleInterval peak avgPower trackPower) := none rfl rfl

theorem thermtrip : Statement (.thermtrip) := none rfl rfl

theorem debugEnFall : Statement (.debugEnFall) := none rfl rfl

theorem tapReset : Statement (.tapReset) := none rfl rfl

theorem legReachesPage (leg : Nat) : Statement (.legReachesPage leg) := none rfl rfl

theorem wrongPathFetch (n : Nat) (inRegion fills : Bool) : Statement (.wrongPathFetch n inRegion fills) := core rfl rfl fun h => h

theorem loadStore (n : Nat) (store : Bool) (addr width reg : Nat) : Statement (.loadStore n store addr width reg) := core rfl rfl fun h => (left (left (left h)))

theorem tckCycle (tms tdi : Bool) : Statement (.tckCycle tms tdi) := none rfl rfl

theorem debugEnRise : Statement (.debugEnRise) := none rfl rfl

theorem azmorImageStored : Statement (.azmorImageStored) := none rfl rfl

theorem policyImageStored : Statement (.policyImageStored) := none rfl rfl

end Laws.NamesUnits

end Sys2Proof
end

