-- ==== Sys2Proof/Tests/Slice0.lean ====
section
/-! SUPPORT. Tests of the model: ill-formed operands, worked examples of the manual, and for every statement with hypotheses a state
and operands that meet them together. States are small: State.reset with the fields a test needs. -/

set_option Elab.async false

namespace Sys2Proof.Tests

open Sys2Proof.Machine Sys2Proof.Claims

/-! ### Form, decided -/

/-- The keys of a table rise. -/
def risesB {α : Type} : List (Nat × α) → Bool
  | a :: b :: r => decide (a.1 < b.1) && risesB (b :: r)
  | _ => true

theorem rises_of {α : Type} : ∀ m : List (Nat × α), risesB m = true → Rises m
  | [], _ => List.Pairwise.nil
  | [_], _ => List.pairwise_singleton _ _
  | a :: b :: r, h => by
    simp only [risesB, Bool.and_eq_true, decide_eq_true_eq] at h
    have ih := rises_of (b :: r) h.2
    refine List.Pairwise.cons ?_ ih
    intro x hx
    rcases List.mem_cons.mp hx with rfl | hx
    · exact h.1
    · exact Nat.lt_trans h.1 ((List.pairwise_cons.mp ih).1 x hx)

def coreFormB (c : Core) : Bool :=
  c.sram.wf && c.scratch.wf && c.policySram.wf && c.g.length == 8 && c.win.length == 192 && decide (c.top ≤ 10)

def formB (s : State) : Bool :=
  s.tier.sprint.wf && s.tier.dist.wf && mwf Page.zero s.map.pages && mwf WinEntry.zero s.map.windows && mwf PageUse.zero s.map.uses
    && s.tier.chans.length == 16 && s.ports.length == 4 && s.bibs.length == 16 && s.relay.engines.length == 16
    && s.stride.engines.length == 16 && s.cores.length == 4 && s.cores.all coreFormB
    && decide (s.ev.next < 2 ^ 32 ∧ s.ev.oldest < 2 ^ 32 ∧ s.ev.ring.length ≤ 1024 ∧
        (s.ev.oldest + s.ev.ring.length) % 2 ^ 32 = s.ev.next ∧
        s.ev.ring.map (·.seq) = (List.range s.ev.ring.length).map fun i => (s.ev.oldest + i) % 2 ^ 32)
    && risesB s.dict.nums && risesB s.dict.blobs && risesB s.dict.flashA.nums && risesB s.dict.flashA.blobs
    && risesB s.dict.flashB.nums && risesB s.dict.flashB.blobs && decide (s.run.state ≤ 5 ∧ s.run.throttle ≤ 6)

theorem coreForm_of {c : Core} (h : coreFormB c = true) : CoreForm c := by
  simp only [coreFormB, Bool.and_eq_true, decide_eq_true_eq, beq_iff_eq] at h
  obtain ⟨⟨⟨⟨⟨h1, h2⟩, h3⟩, h4⟩, h5⟩, h6⟩ := h
  exact ⟨h1, h2, h3, h4, h5, h6⟩

theorem form_of {s : State} (h : formB s = true) : Form s := by
  simp only [formB, Bool.and_eq_true, decide_eq_true_eq, beq_iff_eq, List.all_eq_true] at h
  obtain ⟨⟨⟨⟨⟨⟨⟨⟨⟨⟨⟨⟨⟨⟨⟨⟨⟨⟨⟨h1, h2⟩, h3⟩, h4⟩, h5⟩, h6⟩, h7⟩, h8⟩, h9⟩, h10⟩, h11⟩, h12⟩, h13⟩, h14⟩, h15⟩, h16⟩, h17⟩, h18⟩,
    h19⟩, h20⟩ := h
  refine ⟨h1, h2, h3, h4, h5, h6, h7, h8, h9, h10, ⟨h11, fun c hc => coreForm_of (h12 c hc)⟩, ?_,
    ⟨rises_of _ h14, rises_of _ h15, rises_of _ h16, rises_of _ h17, rises_of _ h18, rises_of _ h19⟩, h20.1, h20.2⟩
  obtain ⟨a, b, c, d, e⟩ := h13
  refine ⟨a, b, c, d, fun i r hr => ?_⟩
  have := congrArg (fun l => l[i]?) e
  simp only [List.getElem?_map, hr, Option.map_some] at this
  obtain ⟨x, hx, hx2⟩ := Option.map_eq_some_iff.mp this.symm
  have : i < s.ev.ring.length := (List.getElem?_eq_some_iff.mp hr).1
  simp [List.getElem?_range this] at hx
  subst hx
  exact hx2.symm

/-! ### States -/

/-- A trained channel of one 256 GiB RDIMM. -/
def upChan : Chan := { Chan.init with state := 2, rdimms := 1, gib := 256, width := 4, ranks := 2 }

/-- A link in L0 at x16 with memory space and bus master enabled. -/
def upLink : Link := { Link.init with state := 2, speed := 5, width := 16, command := 6, msixEn := true }

/-- A T9 in GO: 16 channels, four ports up, an open session 7, region 0 of 100 extents of FP8 tokens. -/
def go : State := { State.reset with
  run := { RunSt.reset with
    state := 2, distReady := true, fieldReady := true, portsReleased := true, dictServed := true, ready := true, fieldEn := true,
    fieldPg := true, fieldPower := 2, plls := 0x3FFF, sysRstLow := false }
  dict := { DictSt.reset with
    nums := [(okey 0x2100 2, 100), (okey 0x2100 3, 1)], sessions := [⟨7, 0, [1], 1, 0, 0, []⟩] }
  map := { MapSt.reset with extents := 100000 }
  tier := { TierSt.reset with chans := List.replicate 16 upChan, slotsBuilt := true, rate := 6400 }
  ports := List.replicate 4 { Port.init with a := upLink } }

theorem form_go : Form go := form_of (by decide +kernel)

/-! ### Well-formedness -/

/-- A READ of BUILD_ID's group as a sessionless frame; the field widths are right. -/
def aFrame : Frame := ⟨1, 0x1000, go.address, 0xC0A6, 0x4C57, 1, 0, 0, 0, 0, 9, 0x1200, 1, 0, 0, [], []⟩

theorem test_well_formed : ([.memRd 3 .b 0xFFFF 0xFFFFFFFFFFFC0, .memWr 0 .a 0 64 (List.replicate 64 0) false, .bar2Read 0 .a 1023 0 4096,
    .bar0AccessOther 0 .a true 0 0x100014 4 0xFFFFFFFF, .qtail 3 .a 15 5, .read aFrame, .softResetCore (.session 7) 3,
    .lapAgeForced 31, .policyHookCall 4 [] 0x47FFFF, .loadStore 3 true 0xFFFFFFFC 4 31, .sealClose 1, .coreWatchdog 0] : List Instr).all Instr.wf = true := by
  decide

theorem test_ill_formed_hosts : ([.memRd 4 .a 0 0, .memRd 0 .a 0x10000 0, .memRd 0 .a 0 63, .memRd 0 .a 0 (2 ^ 52),
    .memWr 0 .a 0 0 [] false, .memWrPtl 0 .a 0 0 [] 0 false, .bar2Read 0 .a 1024 0 4, .bar2Read 0 .a 0 (2 ^ 52) 4,
    .bar2Read 0 .a 0 0 4097, .bar2Write 0 .a 0 [] false false, .bar0AccessOther 0 .a true 0 0 1 256, .qtail 0 .a 16 0,
    .qtail 0 .a 0 (2 ^ 32), .configWrite 0 .a 2 0, .configWrite 0 .a 4096 0, .msixUnmask 0 .a 64, .linkUp 0 .a 6 16 true false,
    .linkUp 0 .a 5 3 true false, .linkUp 4 .a 5 4 true false, .l0pHostRequest 0 4, .hdmDecoderCommit 0 .a 2 0 0 1 0 0 0 true, .hdmDecoderCommit 0 .a 0 (2 ^ 64) 0 1 0 0 0 true,
    .dmaReadCompletion 0 .a 0 .ok (List.replicate 4097 0), .invalidationRequest 0 .a 256 0 0, .dictReservedOpcode 0 .a 0xC007,
    .batonSwap (2 ^ 64)] : List Instr).all (fun i => !i.wf) = true := by
  decide +kernel

theorem test_ill_formed_doors : ([.read { aFrame with src := 2 ^ 128 }, .read { aFrame with srcPort := 65536 }, .read { aFrame with dst := [0xFF] },
    .read { aFrame with dstPort := 65536 }, .read { aFrame with magic := 65536 },
    .read { aFrame with version := 256 }, .read { aFrame with length := 65536 }, .read { aFrame with session := 2 ^ 32 },
    .read { aFrame with seq := 2 ^ 32 }, .read { aFrame with index := 65536 }, .read { aFrame with sub := 256 },
    .read { aFrame with type := 256 }, .read { aFrame with offset := 2 ^ 32 }, .read { aFrame with body := List.replicate 1429 0 },
    .neighborSolicitation 0 [], .echoRequest 0 (List.replicate 1453 0), .sessionIdleExpiry 0, .stageTimeoutExpiry (.infield 4 .a) none,
    .stageTimeoutExpiry (.session 7) (some 65536), .wonceWrite (.session 0) 0x1000 0x0A [], .wonceWrite (.session 7) 65536 0 [],
    .wonceWrite (.session 7) 0 256 [], .dictRead 0 .a (List.replicate 8205 0), .persistSync (.session 7) 256,
    .vaultKey (.session 7) 64 (List.replicate 64 0), .vaultKey (.session 7) 0 [], .sessionKey (.session 7) 4 (List.replicate 32 0),
    .trackUnlock (.session 7) [], .portRelease 0 (some (.session 0))] : List Instr).all (fun i => !i.wf) = true := by
  decide +kernel

theorem test_ill_formed_units : ([.strideEngineFailure 16, .itemStart 16, .lapAgeForced 32, .pacerIdleDecay 16 true, .urgChange 4 0,
    .urgChange 0 4, .refresh 16, .patrolScrub (.pc 8 0) 0, .patrolScrub (.pc 0 32) 0, .patrolScrub (.dist 16) 0,
    .patrolScrub (.dist 0) (2 ^ 40), .thermalPoll [], .stackTempChange 8 0, .stackTempChange 0 32768, .extentReleaseDone (2 ^ 24),
    .sealIdleTimer (2 ^ 29), .versionRetired 64 0, .versionRetired 0 16, .rebuildRequest 64, .hdmDecoderCommit 0 .a 0 0 0 1 0 0 16 true,
    .demotionChoice (List.replicate 513 0), .policyHookCall 5 [] 0x400000, .policyHookCall 0 [] 0x480000, .trnSweepDone 0 (List.replicate 161 0) [],
    .callw 4 0, .trap 0 256, .cutw 0 32, .csrAccess 0 4096 true 0, .interruptEntry 0 32, .coreRestart 0, .loadStore 0 true 0 3 0,
    .loadStore 0 true (2 ^ 32) 4 0, .trainingDone [], .trainingDone (List.replicate 16 ⟨[], true, [⟨[], true⟩]⟩), .ddrPllLockLoss 4, .dieSensorPoll [] [], .sprintInitDone [(0, 32)] 0,
    .throttleInterval 0 (2 ^ 32) 0] : List Instr).all (fun i => !i.wf) = true := by
  decide +kernel

/-! ### Words of a coach core, by Tables 11.8 and 11.9 -/

theorem test_core_words :
    decodeCoreWord 1 0b111100_11111111111111111111111111 = some (.callw 1 (-1)) ∧
    decodeCoreWord 1 0b111101_000000000000000_000_00000000 = some (.retw 1) ∧
    decodeCoreWord 1 0b111101_000000000000000_001_10100101 = some (.trap 1 0xA5) ∧
    decodeCoreWord 1 0b111110_000000000000000000_0101_0_000 = some (.savectx 1 0b0101) ∧
    decodeCoreWord 1 0b111110_000000000000000000_1110_0_001 = some (.loadctx 1 0b1110) ∧
    decodeCoreWord 1 0b111110_00000000000000000000000_010 = some (.dropctx 1) ∧
    decodeCoreWord 1 0b111110_00000000000000000000000_100 = some (.reti 1) ∧
    decodeCoreWord 1 0b111110_01101_000000000000000000_101 = some (.cutw 1 13) ∧
    decodeCoreWord 1 0b111110_00000000000000000000000_110 = some (.halt 1) := ⟨rfl, rfl, rfl, rfl, rfl, rfl, rfl, rfl, rfl⟩

/-- Reserved FUNCs, unnamed bits that are set, and a MAJOR of the ordinary instructions. -/
theorem test_core_words_refused : decodeCoreWord 1 0b111110_00000000000000000000000_011 = some (.illegalInstruction 1) ∧
    decodeCoreWord 1 0b111110_00000000000000000000000_111 = some (.illegalInstruction 1) ∧
    decodeCoreWord 1 0b111110_000000000000000000_0101_1_000 = some (.illegalInstruction 1) ∧
    decodeCoreWord 1 0b111110_00000000000000000001000_010 = some (.illegalInstruction 1) ∧
    decodeCoreWord 1 0b111101_000000000000001_000_00000000 = some (.illegalInstruction 1) ∧
    decodeCoreWord 1 0b111101_000000000000000_000_00000001 = some (.illegalInstruction 1) ∧
    decodeCoreWord 1 0b000000_00000000000000000000000000 = none ∧ decodeTableWord 16 0 = none :=
  ⟨rfl, rfl, rfl, rfl, rfl, rfl, rfl, rfl⟩

/-! ### Worked examples of the manual -/

/-- Section 2.11: raw capacity, RESERVE and USABLE of 16 RDIMMs of 256 GiB, LOGICAL_EXTENTS at ratio 2.00. -/
def sized : State := { go with map := { MapSt.reset with share := 1006656 } }

theorem test_capacity : shareOf 67108864 = 1006656 ∧ sized.usablePlots = 1057635328 ∧ sized.extentsFor 200 = 4131388 := by
  decide +kernel

/-- Section 7.10: one channel no longer counts. -/
theorem test_capacity_without_a_channel :
    (sized.modChan 5 fun x => { x with state := 4 }).usablePlots = 991533120 ∧
    (sized.modChan 5 fun x => { x with state := 4 }).extentsFor 200 = 3873176 := by decide +kernel

/-- Section 3.12: the MODE_MAP of the block, its payload and LENGTH, and the first 12 header bytes with its CODEBOOK. -/
def modeExample : List Byte :=
  [0x5A, 0x01, 0x0D, 0x0A, 0x00, 0x3C, 0x09, 0x00, 0xC4, 0x91, 0x3B, 0x6E, 0, 0, 0, 0,
   0x66, 0x9E, 0x99, 0x19, 0x66, 0x9E, 0x99, 0x19, 0x66, 0x9E, 0x99, 0xD9, 0x66, 0x9E, 0x99, 0x59,
   0x66, 0x9E, 0x99, 0x59, 0x66, 0x9E, 0x99, 0xD9, 0x66, 0x9E, 0x99, 0x59, 0x66, 0x9E, 0x99, 0x59]

theorem test_mode_map : countMode (modes modeExample) 0 = 2 ∧ countMode (modes modeExample) 1 = 60 ∧
    countMode (modes modeExample) 2 = 56 ∧ countMode (modes modeExample) 3 = 10 ∧ payloadBytes (modes modeExample) = 500 ∧
    lengthOf (modes modeExample) = 9 ∧ modeMap (modes modeExample) = modeExample.drop 16 := by decide +kernel

/-- Section 3.12: e = 0 gives the candidate scale 2^-7, BF16 0x3C00. -/
theorem test_candidate_scale : candidateScale 1 [0x3F80, 0x3F00, 0] = some 0x3C00 := by decide +kernel

/-- Section 10.13: the entry of logical page 149,123, its 24 bytes, its image and the place of block 23. -/
def probed : Page := ⟨4, 1, 3, 5, 3, false, 0x12345, 0x1234560, List.replicate 22 12 ++ List.replicate 10 13, 0, 0⟩

theorem test_probe_entry : probed.entryBytes =
    [0xCC, 0xCC, 0xCC, 0xCC, 0xCC, 0xCC, 0xCC, 0xCC, 0xCC, 0xCC, 0xCC, 0xDD, 0xDD, 0xDD, 0xDD, 0xDD,
     0x60, 0x45, 0x23, 0x29, 0x1A, 0x89, 0xA9, 0x45] := by decide +kernel

theorem test_image_places : imageGranules probed.gran = 394 ∧ plotsFor 394 = 7 ∧ imageOffset probed.gran 23 = 277 ∧
    (probed.plot + 277 / 64) * 4096 + 277 % 64 * 64 = 78187480384 := by decide +kernel

/-- Section 8.13: device B's decoder 0 maps the host address to the DPA, and the DPA to bib, extent, page, block and byte. -/
def paired : State := (go.setNum 0x2201 1 41).modLink 1 .a fun k => { k with
  hdm := [⟨0x400000000000, 64 * 2 ^ 40, 2, 1, 0, true, false⟩, Hdm.init] }

theorem test_hdm_decoding : paired.dpaOf 1 .a 0x48000146D900 = some 0x040000A36900 ∧
    decodePart 41 0x040000A36900 = ⟨2, 5, 3, 13, 256⟩ := by decide +kernel

/-- Section 6.8, Table 6.5: averages 400, 450, 496, 540 at shift 4, and the steps at 49, 54, 75, 91 and 79 percent. -/
theorem test_pacer_table : [1200, 1200, 1200].foldl (ewma 4) 400 = 540 ∧ ([1200, 1200] : List Nat).foldl (ewma 4) 400 = 496 ∧
    (List.replicate 9 1200).foldl (ewma 4) 400 = 750 ∧ (List.replicate 16 1200).foldl (ewma 4) 400 = 911 ∧
    (List.replicate 5 500).foldl (ewma 4) 911 = 795 ∧
    stepsUp 49 0 = 0 ∧ stepsUp 54 0 = 1 ∧ stepsUp 75 1 = 2 ∧ stepsUp 91 2 = 3 ∧ stepsDown 79 3 = 2 := by decide +kernel

/-- Section 6.8: half of 9.6 TB/s over 10 µs. -/
theorem test_urgency_budget : go.urgBudget 1 = 48000000 := by decide +kernel

/-- Section 9.12, Table 9.15: the frame with SEQ 0x103. -/
theorem test_frame : frameWire 0x02 ⟨0, 0, [], 0xC0A6, 0x4C57, 1, 0x02, 0, 4, 0x7C41, 0x103, 0x7012, 3, 4, 0, [0xE8, 0x03, 0, 0], []⟩ =
    [0x57, 0x4C, 0x01, 0x02, 0x02, 0x00, 0x04, 0x00, 0x41, 0x7C, 0x00, 0x00, 0x03, 0x01, 0x00, 0x00,
     0x12, 0x70, 0x03, 0x04, 0x00, 0x00, 0x00, 0x00, 0xE8, 0x03, 0x00, 0x00] := by decide +kernel

/-- Section 9.12: bib 2 staged by a context; its commit makes BIB_LEVEL read 4. -/
def staged : State := { go with dict := { go.dict with ctxs := [⟨.shared,
  [(okey 0x7012 1, [0]), (okey 0x7012 2, [4]), (okey 0x7012 3, [0xE8, 3, 0, 0]), (okey 0x7012 4, [0x40, 0x1F, 0, 0])],
  [(0x7012, 0)], none, none⟩] } }

def oneAfter (s : State) (c : Instr) : State :=
  match exec c s with
  | .next t => t
  | _ => s

theorem test_commit_bib : (oneAfter staged (.commit { aFrame with index := 0x7012, sub := 1 })).num 0x7012 3 = 1000 ∧
    (oneAfter staged (.commit { aFrame with index := 0x7012, sub := 1 })).level 2 none = 4 := by decide +kernel

/-- FIPS 180-4 and RFC 4231 style checks of the primitives R54 and R215 name: SHA-256 of "abc", CRC-32C of "123456789". -/
theorem test_sha256_abc : beNat (sha256 (ascii "abc")) = 0xba7816bf8f01cfea414140de5dae2223b00361a396177a9cb410ff61f20015ad := by
  decide +kernel

theorem test_crc32c : crc32c (ascii "123456789") = 0xE3069283 := by decide +kernel

/-! ### Pieces of states -/

/-- A descriptor of an opcode for bib 2, with the parts of its body at their offsets. -/
def descOf (op : Nat) (parts : List (Nat × List Byte)) : List Byte :=
  parts.foldl (fun d x => patch d x.1 x.2) (patch (List.replicate 128 0) 0 [BitVec.ofNat 8 op, 0, 2])

def aJob (op : Nat) (parts : List (Nat × List Byte)) (phase : JobPhase) : Job :=
  { id := 50, port := 1, link := .a, q := 0, index := 0, desc := descOf op parts, phase := phase, readAt := 0, got := [], entries := [],
    tokens := [], itemsLeft := 0, asked := [], from_ := 0, pagesDone := 0, faults := [], faultCount := 0, retries := 0,
    repaired := false, result := 0, writes := [], win := [], compOk := true }

/-- The ATTEND of section 5.12. -/
def attendJob : Job := aJob 1 [(0x30, natLe 8 200000), (0x40, [40, 0, 10, 7, 1, 1])] .running

def aLeg : Leg :=
  { id := 60, job := 50, bib := 2, port := 1, head := 0, num := 0, lo := 0, count := 16, engine := none, home := 2, readyAt := 0,
    nearExpired := false, runs := 0, next := 0, ks := [], vs := [], faults := [], pins := [], reads := [], sampled := false,
    done := false, held := false }

/-- A request of port 1 for 64 bytes of block 0. -/
def aReq (write : Bool) (lpn : Nat) (stage : Stage) : Req :=
  { id := 40, write := write, port := 1, link := .a, src := .cxl 5, bib := 2, hostExtent := 5, lpn := lpn, blk := 0, off := 0, len := 64,
    data := [], arrival := 0, entry := Page.zero, stage := stage, rdata := [], relaxed := false, poison := false, held := false }

/-- The same of a page that its lookup found to be the port's. -/
def ownReq (write : Bool) (lpn : Nat) (stage : Stage) : Req := { aReq write lpn stage with entry := { Page.zero with owner := 1 } }

def anItem (kind : ItemKind) (lpn : Nat) (running : Bool) : Item :=
  { id := 70, kind := kind, lpn := lpn, blk := 0, bib := 2, port := none, engine := some 4, running := running, age := 0, req := none,
    job := none, chan := none, fails := 0, held := false }

def withJobs (s : State) (js : List Job) (ls : List Leg) : State :=
  { s with nextId := 100, stride := { s.stride with jobs := js, legs := ls } }

def withPages (s : State) (ps : List (Nat × Page)) : State := { s with map := { s.map with pages := ps } }

def withWindows (s : State) (ws : List (Nat × WinEntry)) : State := { s with map := { s.map with windows := ws } }

/-- Pages of partition 1 with home stack 2 on channel 5: written sprint blocks, a coded image of 12 granules a block, both, poisoned. -/
def rawPage : Page := ⟨1, 1, 2, 0, 0, false, 9, 0, List.replicate 32 15, 0, 0⟩
def packedPage : Page := ⟨3, 1, 2, 5, 3, false, 0, 64, List.replicate 32 12, 0, 0⟩
def bothPage : Page := { packedPage with st := 4, slot := 9 }
def deadPage : Page := ⟨8, 1, 0, 0, 0, false, 0, 0, List.replicate 32 0, 0, 0⟩

/-- Window slot 5 of partition 1 maps handle 3, whose pages are 96 to 127. -/
def mapped : State := withWindows go [(wkey 1 5, ⟨true, false, 0, 3⟩)]

/-- Section 5.12: 490 legs, the last of a KV head of 14 positions. -/
theorem test_leg_count : (go.cutLegs attendJob).stride.legs.length = 490 ∧
    ((go.cutLegs attendJob).stride.legs.filter fun l => l.head == 9 && l.num == 48).map (·.count) = [14] := by decide +kernel

/-! ### Hypotheses met: the machine, host accesses, queues -/

theorem witness_front : ({ go with pending := [.urgSlice] } : State).pending = .urgSlice :: [] ∧ State.reset.pending = [] := by decide

theorem witness_form : Form go ∧ ∃ t, step go = .next t := ⟨form_go, _, rfl⟩

theorem witness_wonce : ∃ t, exec .urgSlice go = .next t ∧
    (({ go with dict := { go.dict with wonce := [(5, [1])] } } : State).dict.wonce.find? fun x => x.1 == 5) = some (5, [1]) :=
  ⟨_, rfl, rfl⟩

theorem witness_cxl : cxlOpen paired 1 .a ∧ paired.dpaOf 1 .a 0x48000146D900 = some 0x040000A36900 ∧
    (List.replicate 64 (0 : Byte)).length = 64 := by
  unfold cxlOpen; decide +kernel

/-- Port 1 in PCIe-only mode. -/
def pcie : State := go.modPort 1 fun x => { x with pcieOnly := true }

theorem witness_bar2 : pcieOpen pcie 1 .a 0 1 ∧ pcieOpen pcie 1 .a (2 ^ 34 - 64) 64 ∧ (2 ^ 34 - 64) % 64 + 64 ≤ 64 ∧
    pcieOpen pcie 1 .a 60 4 ∧ 60 % 64 + 4 ≤ 64 := by
  unfold pcieOpen; decide +kernel

theorem witness_discarded : Form mapped ∧ mapped.inGo = true ∧ mapped.pausing = false ∧ (aReq true noPage .hold).lpn = noPage ∧
    (aReq true 96 .hold).entry.owner ≠ (aReq true 96 .hold).port ∧ mapped.muted 1 = false ∧ mapped.map.discardReported = false ∧
    mapped.ev.full = false ∧ (mapped.win 1 6).valid = false ∧
    ({ mapped with map := { mapped.map with discardReported := true } } : State).map.discardReported = true :=
  ⟨form_of (by decide +kernel), by decide +kernel⟩

/-- Pages 96, 97 and 98 of partition 1: UNWRITTEN, POISONED, SPRINT_RAW with its first block never written. -/
def readable : State := withPages mapped [(96, { Page.zero with owner := 1 }), (97, deadPage), (98, { rawPage with gran := 0 :: List.replicate 31 15 })]

theorem witness_reads : Form readable ∧ readable.inGo = true ∧ readable.muted 1 = false ∧ readable.onesOnly 1 = false ∧
    (aReq false 95 .atPort).entry.owner ≠ (aReq false 95 .atPort).port ∧
    (∀ lpn ∈ [96, 97, 98], (ownReq false lpn .atPort).entry.owner = (ownReq false lpn .atPort).port ∧ lpn ≠ noPage ∧
      readable.moveOn lpn = none) ∧
    (readable.page 96).st = 0 ∧ (readable.page 98).st = 1 ∧ (readable.page 98).code 0 = 0 ∧ (readable.page 97).st = 8 :=
  ⟨form_of (by decide +kernel), by decide +kernel⟩

theorem witness_memory : (Memory.write [] 5 7).wf = true := by decide

/-- A BAR2 write of port 1 under way before the next id. -/
def writing : State := { go with nextId := 100, reqs := [{ aReq true 96 .dram with src := .bar2 30 0 }] }

theorem witness_queues : barAnswers go 1 (go.queueLink 1 15) ∧ (go.queue 1 15).vector < 64 ∧ go.bellHeld 1 go.nextId = false ∧
    barAnswers writing 1 (writing.queueLink 1 0) ∧ (writing.queue 1 0).vector < 64 ∧ writing.bellHeld 1 writing.nextId = true := by
  unfold barAnswers; decide +kernel

/-- Queue 0 of port 1, enabled, with one descriptor before its tail. -/
def ringing : State := withJobs (go.modQueue 1 0 fun k => { k with base := 4096, enable := true, tail := 1 }) [aJob 1 [] .running] []

theorem witness_descriptor_read : Form ringing ∧ (ringing.queue 1 0).enable = true ∧ (ringing.queue 1 0).head ≠ (ringing.queue 1 0).tail ∧
    (ringing.queueJobs 1 0).length < 64 ∧ (ringing.portJobs 1).length < 256 ∧ ringing.pausing = false ∧
    issuesUntranslated ringing 1 (ringing.queueLink 1 0) ∧
    ((ringing.link 1 .a).dma.any fun d => d.owner == .ring 0) = false ∧ (ringing.queue 1 0).base % 4096 = 0 ∧
    (ringing.link 1 .a).state ≠ 4 ∧ (∀ d ∈ (ringing.link 1 .a).dma, d.id ≠ ringing.nextId) ∧
    (ringing.queueJobs 1 0).length = 1 ∧ (∀ j ∈ ringing.queueJobs 1 0, j.compOk = true) ∧
    (ringing.link 1 .a).issued < (ringing.link 1 .a).readTags :=
  ⟨form_of (by decide +kernel), by unfold issuesUntranslated; decide +kernel⟩

theorem witness_descriptors : ∀ x ∈ ([(1, [], false, 0), (2, [], false, 0), (2, [(1, [0x10])], true, 0), (0x10, [], false, 0),
      (0x11, [], false, 0), (0x12, [], false, 0), (0x12, [(0x20, [1])], false, 1), (0x13, [], false, 0), (0x13, [(0x20, [1])], false, 1),
      (0x20, [], false, 0), (0x21, [], false, 0), (0x30, [], false, 0), (0x3F, [], false, 0)] :
      List (Nat × List (Nat × List Byte) × Bool × Nat)),
    let j := aJob x.1 x.2.1 .fetch
    let s := withJobs go [j] []
    s.job 50 = some j ∧ s.startable j = true ∧ j.op = x.1 ∧ j.resume = x.2.2.1 ∧ j.form = x.2.2.2 := by
  decide +kernel

/-- A pass of slot 5 of partition 1 to slot 6 of partition 0, matched; a BATON that waits. -/
def aPass : Pass := ⟨8, 50, 51, 1, 0, [5], [6]⟩

def passing : State := { mapped with map := { mapped.map with passes := [aPass] } }

/-- A CATCH that waits on a link in D3hot with PME_En. -/
def catching : State := (withJobs go [aJob 0x21 [] .waiting] []).modLink 1 .a fun k => { k with dstate := 3, pmeEn := true }

theorem witness_baton : (∀ x ∈ [(withJobs go [aJob 0x20 [] .waiting] [], 0x20), (catching, 0x21)],
      x.1.job 50 = some (aJob x.2 [] .waiting) ∧ x.1.unmatched (aJob x.2 [] .waiting) = true ∧ x.1.relay.items = []) ∧
    (catching.link 1 .a).dstate = 3 ∧ (catching.link 1 .a).pmeEn = true ∧ aPass.giver ≠ aPass.receiver ∧
    passing.map.passes.find? (fun y => y.token == aPass.token) = some aPass ∧ passing.passDraining aPass = false ∧
    aPass.from_.length = aPass.to_.length ∧ aPass.from_.Nodup ∧ aPass.to_.Nodup := by
  decide +kernel

theorem form_passing : Form passing := form_of (by decide +kernel)

/-! ### Hypotheses met: legs, host memory, links and ports -/

/-- An ATTEND of 4096 tokens and one KV head on a window page (slot 5, page 0) that partition 1 owns, with one leg. -/
def legJob : Job := { aJob 1 [(0x30, natLe 8 4096), (0x40, [4, 0, 1, 7, 1, 1])] .running with entries := List.replicate 32 160 }
def legs (l : Leg) : State := withJobs (withPages mapped [(96, { Page.zero with owner := 1 })]) [legJob] [l]
def onEngine : Leg := { aLeg with engine := some 4 }

theorem witness_dispatch : (legs aLeg).inGo = true ∧ (legs aLeg).legsInFlight < 1024 ∧
    bestBy (legs aLeg).legBefore ((legs aLeg).stride.legs.filter (legs aLeg).legReady) = some aLeg ∧
    (legs aLeg).bibLegs 2 < (legs aLeg).num (0x7010 + 2) 7 ∧ (legs aLeg).job 50 = some legJob ∧
    (legs aLeg).legEngine ((legs aLeg).legHome legJob aLeg) aLeg = some 0 ∧ (legs aLeg).leg 60 = some aLeg ∧ aLeg.engine = none := by
  decide +kernel

theorem witness_leg_page : (legs onEngine).leg 60 = some onEngine ∧ (legs onEngine).job 50 = some legJob ∧ onEngine.engine.isSome = true ∧
    onEngine.done = false ∧ onEngine.allRead = false ∧ legJob.op = 1 ∧
    (legs onEngine).pageFault legJob (legJob.listPage 0 0 0) = none ∧ (legs onEngine).pageAt 1 (legJob.listPage 0 0 0) = some 96 ∧
    ((legs onEngine).view 96).st = 0 := by
  decide +kernel

theorem witness_leg_fault : (withPages (legs onEngine) [(96, deadPage)]).pageFault legJob (legJob.listPage 0 0 0) = some 3 ∧
    (withPages (legs onEngine) [(96, { rawPage with owner := 2 })]).pageFault legJob (legJob.listPage 0 0 0) = some 2 ∧
    (withWindows (legs onEngine) []).pageFault legJob (legJob.listPage 0 0 0) = some 1 := by
  decide +kernel

/-- The leg has read its pages. -/
def readLeg : Leg := { onEngine with next := 32 }

theorem witness_leg_complete : (legs readLeg).leg 60 = some readLeg ∧ (legs readLeg).job 50 = some legJob ∧ readLeg.engine = some 4 ∧
    readLeg.done = false ∧ readLeg.allRead = true ∧ (legs readLeg).busy 60 = false ∧ (legs readLeg).armed (unitStride 4) 0x01 = false ∧ (legs readLeg).hasStride = true ∧
    ((legs readLeg).strideEng 4).fenced = false ∧ legJob.stride = true ∧ legJob.phase = .running := by
  decide +kernel

theorem witness_legs_named : legsNamed (legs readLeg) ∧ Form (legs readLeg) :=
  ⟨⟨by decide, by decide, fun l hl => ⟨legJob, by
    have h : l = readLeg := by simpa [legs, withJobs] using hl
    subst h
    decide +kernel⟩⟩, form_of (by decide +kernel)⟩

/-- Link A of port 1 with ATS, a DMA read under way and an invalidation. -/
def reading : State := go.modLink 1 .a fun k => { k with
  atsEn := true, dma := [⟨90, .ring 0, 4096, 128, .issued, false⟩], invals := [(3, 65536, 4096)] }

theorem witness_dma : Form reading ∧ reading.linkOpen 1 .a = true ∧ (reading.link 1 .a).atsEn = true ∧
    (reading.link 1 .a).dma.find? (fun x => x.id == 90) = some ⟨90, .ring 0, 4096, 128, .issued, false⟩ ∧
    (reading.link 1 .a).invals.find? (fun x => x.1 == 3) = some (3, 65536, 4096) ∧
    ((reading.link 1 .a).dma.any fun d => d.phase == .issued && meets 65536 4096 d.addr d.len) = false :=
  ⟨form_of (by decide +kernel), by decide +kernel⟩

/-- Link A of port 1 in D3hot with a descriptor that ran. -/
def d3 : State := (withJobs go [aJob 1 [] .running] []).modLink 1 .a fun k => { k with dstate := 3 }

theorem witness_config : go.linkOpen 1 .a = true ∧ (go.link 1 .a).dstate = 0 ∧ Form d3 ∧ d3.linkOpen 1 .a = true ∧
    (d3.link 1 .a).dstate = 3 ∧ (d3.stride.jobs.map (·.id)).Nodup :=
  ⟨by decide +kernel, by decide +kernel, form_of (by decide +kernel), by decide +kernel⟩

theorem witness_msix : barAnswers go 1 .a ∧ (go.link 1 .a).msix.length = 64 := by unfold barAnswers; decide +kernel

/-- Port 1 held in PERST_N. -/
def held : State := go.modPort 1 fun x => { x with perstLow := true, a := { x.a with state := 0 } }

theorem witness_link_resets : go.linkOpen 1 .a = true ∧ go.map.passes = [] ∧ go.portPresent 1 = true ∧ Form held ∧
    held.portPresent 1 = true ∧ (held.port 1).perstLow = true ∧ held.run.portsReleased = true ∧ held.run.state = 2 ∧ go.run.state = 2 :=
  ⟨by decide +kernel, rfl, by decide +kernel, form_of (by decide +kernel), by decide +kernel⟩

/-- Link A of port 1 down and free to train. -/
def down : State := go.modLink 1 .a fun _ => Link.init

theorem witness_links : Form down ∧ down.linkPresent 1 .a = true ∧ (down.link 1 .a).state ≤ 1 ∧ down.run.portsReleased = true ∧
    (down.port 1).perstLow = false ∧ down.run.state = 2 ∧ down.ev.full = false ∧ 4 ∈ [1, 2, 4, 8, 16] ∧
    go.linkPresent 1 .a = true ∧ 2 ≤ (go.link 1 .a).state ∧ (go.link 1 .a).state ≠ 5 ∧ go.pausing = false ∧
    (go.port 1).frozen = false ∧ go.ev.ring.length < 1000 ∧ go.linkOpen 1 .a = true :=
  ⟨form_of (by decide +kernel), by decide +kernel⟩

/-- Port 1 frozen. -/
def frozen (drained : Bool) : State := go.modPort 1 fun x => { x with frozen := true, cause := 2, drained := drained }

theorem witness_freeze : (go.port 1).frozen = false ∧ go.linkOpen 1 .a = true ∧ (∀ j ∈ go.stride.jobs, j.pass = false) ∧
    Form (frozen false) ∧ ((frozen false).port 1).frozen = true ∧ (frozen false).portIdle 1 = true ∧
    ((frozen false).port 1).releaseAsked = false ∧ (frozen false).linkOpen 1 .a = true ∧ ((frozen false).port 1).drained = false ∧
    Form (frozen true) ∧ ((frozen true).port 1).drained = true ∧ (frozen true).ev.full = false ∧
    (frozen true).linkOpen 1 .a = true :=
  ⟨by decide +kernel, by decide +kernel, by decide +kernel, form_of (by decide +kernel), by decide +kernel, by decide +kernel,
    by decide +kernel, by decide +kernel, by decide +kernel, form_of (by decide +kernel), by decide +kernel⟩

/-- Port 1 with ASPM L1 and L0p enabled and its link in a state; a request of level 7 that waits on it. -/
def inLink (st : Nat) : State := go.modLink 1 .a fun k => { k with state := st, aspmL1 := true, cfg := [(0x248, 8)] }
def urgentLink : State := { (inLink 2).setNum 0x7012 5 1 with reqs := [aReq false 96 .dram] }

theorem witness_low_power : (inLink 2).linkPresent 1 .a = true ∧ ((inLink 2).link 1 .a).state = 2 ∧ ((inLink 2).link 1 .a).aspmL1 = true ∧
    ((inLink 2).link 1 .a).reading = false ∧ ((inLink 4).link 1 .a).state = 4 ∧ wideLink (inLink 2) 1 ∧ wideLink (inLink 3) 1 ∧
    ((inLink 3).link 1 .a).state = 3 ∧ (inLink 2).urgentWaits 1 = false ∧ wideLink urgentLink 1 ∧ urgentLink.urgentWaits 1 = true := by
  unfold wideLink; decide +kernel

/-- Decoder 0 of port 1 is committed, 64 GiB over two ways. -/
def decoding : State := go.modLink 1 .a fun k => { k with hdm := [⟨0, 2 ^ 36, 2, 1, 0, true, false⟩, Hdm.init] }

theorem witness_hdm : Form go ∧ barAnswers go 1 .a ∧ (go.port 1).pcieOnly = false ∧ (go.link 1 .a).hdm.length = 2 ∧
    2 ∈ [1, 2, 4, 8] ∧ 1 < 2 ∧ 2 ^ 41 / 2 ≤ 16 * 2 ^ go.windowLog2 1 ∧ ¬ (3 ∈ [1, 2, 4, 8]) ∧ Form decoding ∧
    barAnswers decoding 1 .a ∧ (nth (decoding.link 1 .a).hdm Hdm.init 0).committed = true ∧
    2 ^ 36 / 2 + 2 ^ 36 / 2 ≤ 16 * 2 ^ decoding.windowLog2 1 :=
  ⟨form_go, by unfold barAnswers; decide +kernel, by decide +kernel, by decide +kernel, by decide +kernel, by decide +kernel,
    by decide +kernel, by decide +kernel, form_of (by decide +kernel), by unfold barAnswers; decide +kernel, by decide +kernel⟩

theorem witness_mailbox : barAnswers readable 1 .a ∧ (readable.port 1).pcieOnly = false ∧
    (decodePart (readable.windowLog2 1) 0xA00000).extent = 5 ∧ 0xA00000 < 16 * 2 ^ readable.windowLog2 1 ∧ (readable.win 1 5).valid = true ∧
    (readable.page 96).owner = 1 ∧ (readable.win 1 0).valid = false ∧ (readable.poisonDpas 1).length = 1 ∧
    (readable.link 1 .a).poisonAt = 0 := by
  unfold barAnswers; decide +kernel

/-! ### Hypotheses met: the two doors -/

/-- FIELD objects: 0x1200.01 is read, 0x7000.01 is written with 5, 0x7012.01 is BIB_CLASS of bib 2. -/
def writeFrame : Frame := { aFrame with index := 0x7000, sub := 1, type := 2, length := 1, body := [5] }
def groupFrame : Frame := { aFrame with index := 0x7012, sub := 1 }

theorem object_run : ∃ o, findObj 0x1200 1 = some o ∧ object go 0x1200 1 o ∧ o.acc ≠ .wo ∧ (go.readObj o 0x1200 1).1 = 0 ∧
    (go.readObj o 0x1200 1).2.length ≤ 1024 ∧ o.size ≤ 1024 := by
  refine ⟨(findObj 0x1200 1).get (by decide +kernel), by decide +kernel, ?_⟩
  unfold object; decide +kernel

theorem witness_reads_answer : reaches go aFrame ∧ aFrame.offset = 0 ∧ aFrame.body.length < 2 ∧ Rises go.dict.srcCaches ∧
    reaches staged groupFrame ∧ (staged.ctx .shared).stagedAt 0x7012 1 = some [0] ∧ staged.doorOpen (.infield 1 .a) = true ∧
    (parsePayload (natLe 2 0x1200 ++ [1, 0] ++ natLe 4 0 ++ [0, 0, 0, 0])).map (fun y => (y.index, y.sub, y.offset, y.data.length)) =
      some (0x1200, 1, 0, 0) := by
  refine ⟨?_, rfl, by decide, rises_of _ (by decide), ?_, by decide +kernel, by decide +kernel, by decide +kernel⟩ <;>
    (unfold reaches; decide +kernel)

theorem witness_writes : Form go ∧ reaches go writeFrame ∧ reaches go { aFrame with flags := 0 } ∧ frameLast aFrame = false ∧
    (∃ o, object go 0x7000 1 o ∧ writable go (.field 1) o 0x7000 1 [5] ∧ writable go (.session 7) o 0x7000 1 [5] ∧
      writable (go.wakeLink 1 .a) (.infield 1 .a) o 0x7000 1 [5] ∧ writeFrame.type = o.ty ∧ o.acc ≠ .wo ∧ o.ty < 10) ∧
    (∀ u : State, u.ownEffect 0x7000 1 [5] = u ∧ u.afterReply 0x7000 1 [5] = u) ∧ go.doorOpen (.session 7) = true ∧
    go.doorOpen (.infield 1 .a) = true ∧ go.fieldQueueFull = false := by
  refine ⟨form_go, by unfold reaches; decide +kernel, by unfold reaches; decide +kernel, by decide,
    ⟨(findObj 0x7000 1).get (by decide +kernel), ?_⟩, fun u => ⟨rfl, rfl⟩, by decide +kernel, by decide +kernel⟩
  unfold object writable; decide +kernel

theorem witness_commit : reaches staged groupFrame ∧ (∃ o, object staged 0x7012 1 o ∧ o.grp = true ∧
      staged.authAbort (.field 1) o 0x7012 = 0 ∧ (o.acc = .rwp → staged.rwpOpen = true)) ∧ Rises staged.dict.commits ∧
    ((staged.ctx .shared).recs.any fun x => x.1 == 0x7012 && x.2 != staged.commitCount 0x7012) = false ∧
    staged.groupAbort 0x7012 (staged.ctx .shared) = 0 ∧
    let moved := { staged with dict := { staged.dict with commits := [(0x7012, 1)] } }
    ((moved.ctx .shared).recs.any fun x => x.1 == 0x7012 && x.2 != moved.commitCount 0x7012) = true := by
  refine ⟨by unfold reaches; decide +kernel, ⟨(findObj 0x7012 1).get (by decide +kernel), ?_⟩, rises_of _ (by decide +kernel),
    by decide +kernel⟩
  unfold object; decide +kernel

/-- The same four members staged by the mailbox of port 1. -/
def stagedInfield : State := { go with dict := { go.dict with ctxs := [⟨.infield 1 .a,
  [(okey 0x7012 1, [0]), (okey 0x7012 2, [4]), (okey 0x7012 3, [0xE8, 3, 0, 0]), (okey 0x7012 4, [0x40, 0x1F, 0, 0])],
  [(0x7012, 0)], none, none⟩] } }

theorem witness_commit_infield : stagedInfield.doorOpen (.infield 1 .a) = true ∧
    (∃ o, object stagedInfield 0x7012 1 o ∧ o.grp = true ∧ stagedInfield.authAbort (.infield 1 .a) o 0x7012 = 0) ∧
    (stagedInfield.wakeLink 1 .a).groupAbort 0x7012 (stagedInfield.ctx (.infield 1 .a)) = 0 := by
  refine ⟨by decide +kernel, ⟨(findObj 0x7012 1).get (by decide +kernel), ?_⟩, by decide +kernel⟩
  unfold object; decide +kernel

/-- The reply to the frame is in the cache of its source. -/
def answered : State := { go with dict := { go.dict with srcCaches := [(1, [(9, [1, 2])])] } }

theorem witness_cached : answered.run.dictServed = true ∧ answered.dict.fieldSilent = false ∧ frameAccepted aFrame = true ∧
    answered.takesFrame aFrame = true ∧ aFrame.session = 0 ∧ (answered.srcCache aFrame.src).find? (fun c => c.1 == aFrame.seq) = some (9, [1, 2]) := by
  decide +kernel

/-- Key slot 0 set. -/
def keyed : State := go.setBlob 0x1800 1 (List.replicate 32 1)

theorem witness_session_open : reaches keyed { aFrame with length := 17, body := List.replicate 17 0 } ∧
    keyed.keySlotSet (field (List.replicate 17 0) 0 1) = true ∧ keyed.dict.sessions.length < 4 := by
  refine ⟨by unfold reaches; decide +kernel, by decide +kernel⟩

/-- A frame of session 7 with its TAG; in PAUSE a WAKE of port 1. -/
def sessionFrame (op : Nat) (body : List Byte) : Frame :=
  let f := { aFrame with flags := 2, session := 7, length := body.length, body := body }
  { f with tag := (hmacSha256 [1] (frameWire op f)).take 16 }

theorem witness_session_frames : ∀ s ∈ [go, { go with run := { go.run with state := 3 } }], ∀ x ∈ [(0x12, []), (0x09, [(2 : Byte)])],
    reachesIn s x.1 (sessionFrame x.1 x.2) ⟨7, 0, [1], 1, 0, 0, []⟩ ∧ go.portPresent 1 = true := by
  unfold reachesIn; decide +kernel

theorem witness_discover : reaches go { aFrame with index := 0, sub := 0 } ∧
    ({ go with dict := { go.dict with discoverQ := [(1, 0x1000, [0])] } } : State).dict.discoverQ = (1, 0x1000, [0]) :: [] := by
  refine ⟨by unfold reaches; decide +kernel, rfl⟩

/-! ### Hypotheses met: objects with behaviour of their own -/

/-- The machine in another state of Table 10.5, with a FALSE_START cause. -/
def inState (st cause : Nat) (s : State) : State := { s with run := { s.run with state := st, cause := cause } }

/-- Slot 3 of region 0 holds a version, retiring or not; region 0 trains versions. -/
def versioned (retiring : Bool) : State :=
  (go.setNum 0x5100 4 1024) |> fun s => { s with relay := { s.relay with cbs := [(3, ⟨9, [], retiring⟩)] } }

def aKey : List Byte := List.replicate 32 1 ++ List.replicate 32 2

theorem witness_memory_objects : authentic go 7 ∧ go.mappedAt 3 = none ∧ aKey.length = 64 ∧ aKey.take 32 ≠ aKey.drop 32 ∧
    (go.blob 0x1810 1).isEmpty = true ∧ go.num 0x1810 3 = 0 ∧ go.portPresent 1 = true ∧ go.anyDecoder 1 = false ∧
    3199 < 32 * go.map.extents ∧ 165 < mapped.windowPages 1 ∧ mapped.pageAt 1 165 = some 101 ∧ authentic mapped 7 ∧
    mapped.portPresent 1 = true ∧ authentic (inState 3 0 sized) 7 ∧ (inState 3 0 sized).ratioBad 400 = false ∧
    Form (inState 3 0 sized) ∧ authentic (versioned false) 7 ∧ Form (versioned false) ∧
    (versioned false).cb 0 3 = some ⟨9, [], false⟩ ∧ (versioned false).num 0x5100 4 ≠ 0 ∧
    ∀ x ∈ (versioned false).map.pages, (versioned false).region x.1 = 0 → ((versioned false).view x.1).carries 3 = false := by
  refine ⟨by unfold authentic; decide +kernel, by decide +kernel, by decide +kernel, by decide +kernel, by decide +kernel,
    by decide +kernel, by decide +kernel, by decide +kernel, by decide +kernel, by decide +kernel, by decide +kernel,
    by unfold authentic; decide +kernel, by decide +kernel, by unfold authentic; decide +kernel, by decide +kernel,
    form_of (by decide +kernel), by unfold authentic; decide +kernel, form_of (by decide +kernel), by decide +kernel,
    by decide +kernel, by decide +kernel⟩

/-- Extent 3, with a POISONED page, is recorded for release. -/
def releasing : State := { withPages go [(97, deadPage)] with map := { (withPages go [(97, deadPage)]).map with releases := [3] } }

/-- A page of extent 3 alone in the distance tier, in a run outside the reserved plots. -/
def unsettled : State := withPages go [(98, packedPage)] |> fun s => { s with map := { s.map with settled := false } }

theorem witness_ends : Form releasing ∧ 3 ∈ releasing.map.releases ∧ (∀ i < 32, releasing.pageFree (3 * 32 + i) = true) ∧
    Form (versioned true) ∧ (versioned true).cb 0 3 = some ⟨9, [], true⟩ ∧ (versioned true).pinned 0 3 = false ∧
    (versioned true).ev.full = false ∧ unsettled.core1Runs = true ∧ unsettled.map.settled = false ∧
    (unsettled.page 98).distOnly = true ∧ unsettled.placed (unsettled.page 98) = false ∧ unsettled.quiet 98 = true := by
  refine ⟨form_of (by decide +kernel), by decide +kernel, by decide +kernel, form_of (by decide +kernel), by decide +kernel⟩

theorem witness_run_requests : go.doorOpen (.session 7) = true ∧ go.fieldQueueFull = false ∧ go.run.trans = .none ∧
    (∀ p < 4, go.portPresent p = true → go.portBusy p = false) ∧
    (∀ x ∈ [(3, 0), (4, 0x0906)], Form (inState x.1 x.2 go) ∧ (inState x.1 x.2 go).doorOpen (.session 7) = true ∧
      (inState x.1 x.2 go).run.trans = .none) ∧ (go.core 1).state = 0 ∧ go.dict.hook = none := by
  refine ⟨by decide +kernel, by decide +kernel, by decide +kernel, by decide +kernel, ?_, by decide +kernel, by decide +kernel⟩
  intro x hx
  rcases List.mem_cons.mp hx with rfl | hx
  · exact ⟨form_of (by decide +kernel), by decide +kernel⟩
  · rcases List.mem_cons.mp hx with rfl | hx
    · exact ⟨form_of (by decide +kernel), by decide +kernel⟩
    · exact absurd hx (by simp)

/-- A policy module without code: its header, the signer's key at 0x40, and the signature of the header made with that key. -/
def aModule : List Byte :=
  let pub := natBe 32 0xd360332fad9bc83afaff4a740de8a516bf1b8fb3fde360ff1d03979c1f943ee2
    ++ natBe 32 0xe8a66007fd276b0271265c6db092c4a0c5eb8c45fdc436502c8a095f5d5745f2
  [0x55, 0x50, 0x4D, 1, 1, 0, 0, 0] ++ List.replicate 12 0 ++ natLe 4 4096 ++ List.replicate 40 0 ++ pub
    ++ natBe 32 0x88bb9ff22ab291a74c86fc677ba897baadee370cc6129b82d170ba3fc26415c
    ++ natBe 32 0x4f1fa0a3c52609caa25fc34ac103d9a9e00fa4b7d9e12ce8c59ce38c341f29b6

theorem test_policy_signature : policyOk (sha256 (slice aModule 0x40 64)) aModule = true := by decide +kernel

/-- A write-once value that waits for its store. -/
def waitingFor (i j : Nat) (v : List Byte) : State :=
  { go with dict := { go.dict with waiting := [⟨i, j, .session 7, 2, 0, none, v, false⟩] } }

/-- The write-once objects set, with the module's signer and the lock hash of a value. -/
def aSecret : List Byte := List.replicate 16 9
def onceGo : State := { go with
  part := { go.part with debugEn := true }
  dict := { go.dict with wonce := [(okey 0x1000 0x0A, [65]), (okey 0x1801 2, sha256 (slice aModule 0x40 64)), (okey 0xA100 5, sha256 aSecret)] } }

theorem witness_write_once : authentic go 7 ∧ authentic onceGo 7 ∧
    (∀ k ∈ [(0x1000, 0x0A), (0x1801, 2), (0xA100, 5)], go.onceSet k.1 k.2 = false ∧ onceGo.onceSet k.1 k.2 = true ∧
      (waitingFor k.1 k.2 aKey).dict.waiting.find? (fun x => x.index == k.1 && x.sub == k.2) =
        some ⟨k.1, k.2, .session 7, 2, 0, none, aKey, false⟩) ∧
    utf8From 0 0 0 ([65] : List Byte) = true ∧ onceGo.ev.full = false := by
  refine ⟨by unfold authentic; decide +kernel, by unfold authentic; decide +kernel, by decide +kernel, by decide +kernel,
    by decide +kernel⟩

/-- A change waits for the flash, or is being stored. -/
def storing (pending running : Bool) : State :=
  { go with dict := { go.dict with storePending := pending, storeRunning := running } }

theorem witness_store : (storing true false).dict.storeRunning = false ∧ (storing true false).dict.storeQueued = false ∧
    (storing true false).run.dictServed = true ∧ authentic (storing true false) 7 ∧ authentic (storing false true) 7 := by
  unfold authentic; decide +kernel

theorem witness_keys : authentic keyed 7 ∧ Form keyed ∧ (keyed.dict.sessions.map (·.id)).Nodup ∧ keyed.keySlotSet 0 = true ∧
    onceGo.onceValue 0x1801 2 = some (sha256 (slice aModule 0x40 64)) ∧
    policyOk (sha256 (slice aModule 0x40 64)) aModule = true ∧ aModule.length ≤ 262144 ∧
    (Config.azmorOk go.part.azmorSigner aKey = true ∨ Config.azmorOk go.part.azmorSigner aKey = false) :=
  ⟨by unfold authentic; decide +kernel, form_of (by decide +kernel), by decide +kernel, by decide +kernel, by decide +kernel,
    test_policy_signature, by decide +kernel, by cases Config.azmorOk go.part.azmorSigner aKey <;> simp⟩

theorem witness_stored_images : Form (waitingFor 0x8000 3 aKey) ∧ Form (waitingFor 0x8040 1 aKey) ∧ aKey ≠ [] ∧
    ∀ x ∈ [(0x8000, 3), (0x8040, 1)], ((waitingFor x.1 x.2 aKey).dict.waiting.find? fun w => w.index == x.1 && w.sub == x.2) =
      some ⟨x.1, x.2, .session 7, 2, 0, none, aKey, false⟩ ∧ (waitingFor x.1 x.2 aKey).dict.hook = none :=
  ⟨form_of (by decide +kernel), form_of (by decide +kernel), by decide +kernel⟩

/-- One record in the ring; a ring of its full size. -/
def oneEvent : State := go.raise 0x0B20 0xFF 0 0
def fullRing : State := { go with ev := { go.ev with
  ring := (List.range 1024).map fun i => ⟨i, 0x0B20, 1, 255, 0, 0xFF, 0, 0, 0⟩, next := 1024 } }

theorem witness_events : Form oneEvent ∧ oneEvent.ev.full = false ∧ authentic oneEvent 7 ∧
    (1 + 2 ^ 32 - oneEvent.ev.oldest) % 2 ^ 32 = 1 ∧ oneEvent.ev.ring.length = 1 :=
  ⟨form_of (by decide +kernel), by decide +kernel, by unfold authentic; decide +kernel, by decide +kernel, by decide +kernel⟩

theorem witness_full_ring : Form fullRing ∧ fullRing.ev.full = true := ⟨form_of (by decide +kernel), by decide +kernel⟩

theorem witness_test_objects : go.lapPresent 31 = true ∧ go.inGo = true ∧ go.test.lap = none ∧ (go.lapEng 31).fenced = false ∧
    Form onceGo ∧ aSecret.length = 16 ∧ onceGo.onceValue 0xA100 5 = some (sha256 aSecret) ∧ onceGo.part.debugEn = true ∧
    onceGo.ev.full = false ∧
    ({ go with test := { go.test with unlocked := true } } : State).test.unlocked = true ∧
    let u := (go.setNum 0xA200 1 0x3005).setNum 0xA200 2 0x23
    u.injectFits (u.num 0xA200 1) (u.num 0xA200 2) = true ∧ u.injectOut (u.num 0xA200 1) = false ∧ u.test.inject = none ∧ authentic u 7 :=
  ⟨by decide +kernel, by decide +kernel, by decide +kernel, by decide +kernel, form_of (by decide +kernel), by decide +kernel,
    by decide +kernel, by decide +kernel, by decide +kernel, by decide +kernel, by unfold authentic; decide +kernel⟩

/-! ### Hypotheses met: the DRAM tiers -/

/-- Page 98 lies in the distance tier alone on channel 5, page 99 in both tiers there, page 100 is dirty in the sprint tier. -/
def stocked : State := withPages go [(98, packedPage), (99, bothPage), (100, rawPage)]

def chanAt (s : State) (st : Nat) : State := s.modChan 5 fun x => { x with state := st }

theorem witness_channels : Form stocked ∧ ringRoom stocked ∧ authentic stocked 7 ∧ (stocked.chan 5).state = 2 ∧
    stocked.unitRuns (.dist 5) = true ∧ (stocked.page 98).distOnly = true ∧ (stocked.page 98).channel = 5 ∧ stocked.moveOn 98 = none ∧
    stocked.inGo = true ∧ (stocked.page 100).inDist = false ∧
    (∀ s ∈ [chanAt stocked 4, chanAt (withPages go [(99, bothPage)]) 4], s.inGo = true ∧ (s.chan 5).state = 4) ∧
    (chanAt stocked 4).evacBusy 5 = true ∧ (chanAt (withPages go [(99, bothPage)]) 4).evacBusy 5 = false :=
  ⟨form_of (by decide +kernel), by unfold ringRoom; decide +kernel, by unfold authentic; decide +kernel, by decide +kernel⟩

theorem form_evacuating : Form (chanAt stocked 4) ∧ Form (chanAt (withPages go [(99, bothPage)]) 4) :=
  ⟨form_of (by decide +kernel), form_of (by decide +kernel)⟩

/-- Pseudo-channel 9 of stack 2, in service or draining. -/
def pcAt (s : State) (out : Nat) : State := s.modPc 2 9 fun x => { x with out := out }

theorem witness_pseudo_channels : Form stocked ∧ 2 ∈ stocked.stacks ∧ (stocked.pc 2 9).out = 0 ∧ stocked.tier.slotsBuilt = true ∧
    stocked.inGo = true ∧ (stocked.onPc 2 9).map (·.1) = [99, 100] ∧ (stocked.page 100).dirty = true ∧ stocked.moveOn 100 = none ∧
    let s := pcAt (withPages go [(99, bothPage)]) 1
    s.inGo = true ∧ (s.pc 2 9).out = 1 ∧ (∀ x ∈ s.onPc 2 9, (s.view x.1).dirty = false) ∧ (s.onPc 2 9).length = 1 ∧
      ∀ m ∈ s.relay.moves, m.onPc 2 9 = false :=
  ⟨form_of (by decide +kernel), by decide +kernel⟩

theorem form_draining : Form (pcAt (withPages go [(99, bothPage)]) 1) := form_of (by decide +kernel)

/-- Channel 5 filled to its last data plot; in self-refresh and leaving it. -/
def filled : State := go.modChan 5 fun x => { x with fillPos := 2 ^ 40 }
def leaving : State := go.modChan 5 fun x => { x with state := 3, exiting := true }

theorem witness_refresh : Form filled ∧ go.armed (unitChan 5) 0x23 = false ∧ (filled.chan 5).state = 2 ∧ filled.srForbidden 5 = false ∧
    (filled.chan 5).q.reads = [] ∧ (filled.chan 5).q.writes = [] ∧ filled.inGo = true ∧ filled.tier.flows = [] ∧
    (inState 3 0 filled).run.state = 3 ∧
    (leaving.chan 5).state = 3 ∧ (leaving.chan 5).exiting = true ∧ leaving.inGo = true ∧ authentic leaving 7 ∧ Form leaving :=
  ⟨form_of (by decide +kernel), by decide +kernel, by decide +kernel, by decide +kernel, by decide +kernel, by decide +kernel,
    by decide +kernel, by decide +kernel, by decide +kernel, by decide +kernel, by decide +kernel, by decide +kernel,
    by unfold authentic; decide +kernel, form_of (by decide +kernel)⟩

theorem witness_temperatures : Form go ∧ go.run.state = 2 ∧ (inState 1 0 go).run.state = 1 ∧ Form (inState 1 0 go) ∧ ringRoom (inState 1 0 go) ∧
    (List.replicate 8 (some (86 : Int)) ++ List.replicate 7 (some 84) ++ [none]).length = 16 ∧ ringRoom go ∧ 2 ∈ go.stacks ∧
    go.tier.slotsBuilt = true ∧ go.run.fieldPg = true ∧ go.tier.stackTemp.length = 8 ∧ go.tier.stackHot.length = 8 :=
  ⟨form_go, by decide +kernel, by decide +kernel, form_of (by decide +kernel), by unfold ringRoom; decide +kernel⟩

/-- Two reads and a write wait on pseudo-channel 9 of stack 2; the second read is of the granule of the first. -/
def queued : State := go.modPc 2 9 fun x => { x with q := { x.q with
  reads := [⟨1, false, 64, .req 40, some 2, some 1, 0, false, []⟩, ⟨2, false, 64, .req 41, some 2, some 1, 0, false, []⟩]
  writes := [⟨3, true, 65, .req 42, some 2, some 1, 0, false, []⟩] } }

theorem witness_burst : Form queued ∧ queued.inGo = true ∧ (queued.pc 2 9).out ≠ 2 ∧ queued.test.inject = none ∧
    let q := (queued.pc 2 9).q
    ∃ e, e ∈ q.reads ++ q.writes ∧ [1, 2].contains e.id = true ∧ ∀ x ∈ q.reads ++ q.writes, x.granule = e.granule → e.id ≤ x.id :=
  ⟨form_of (by decide +kernel), by decide +kernel, by decide +kernel, by decide +kernel,
    ⟨1, false, 64, .req 40, some 2, some 1, 0, false, []⟩, by decide +kernel⟩

/-- A scrub read waits alone on pseudo-channel 9 of stack 2; the last zeros of plot 0 of channel 5 wait alone. -/
def scrubRead : QEnt := ⟨1, false, 64, .scrub, none, none, 0, false, []⟩
def fillWrite : QEnt := ⟨1, true, 63, .fill, none, none, 0, false, []⟩
def scrubbing : State := go.modPc 2 9 fun x => { x with q := { x.q with reads := [scrubRead] } }
def filling : State := go.modChan 5 fun x => { x with filling := true, q := { x.q with writes := [fillWrite] } }

/-- Channel 5 filled, in service or in self-refresh, its pass not overdue. -/
def scrubbable (st : Nat) : State := filled.modChan 5 fun x => { x with state := st }

theorem witness_scrub : (∀ st ∈ [2, 3], formB (scrubbable st) = true ∧ (scrubbable st).inGo = true ∧ (scrubbable st).test.inject = none ∧
      (scrubbable st).unitRuns (.dist 5) = true ∧ (scrubbable st).scrubbed (.dist 5) 7 = true ∧
      (scrubbable st).scrubSkips (.dist 5) = (st == 3)) ∧
    formB scrubbing = true ∧ scrubbing.inGo = true ∧ (scrubbing.pc 2 9).out ≠ 2 ∧ scrubbing.test.inject = none ∧
    (scrubbing.pc 2 9).q.reads = [scrubRead] ∧ (scrubbing.pc 2 9).q.writes = [] := by decide +kernel

theorem witness_fill : Form go ∧ go.inGo = true ∧ go.test.inject = none ∧ go.unitRuns (.dist 5) = true ∧ go.pausing = false ∧
    go.fillDone 5 = false ∧ (go.chan 5).filling = false ∧ formB filling = true ∧ filling.inGo = true ∧ (filling.chan 5).state = 2 ∧
    (filling.chan 5).filling = true ∧ (filling.chan 5).q.reads = [] ∧ (filling.chan 5).q.writes = [fillWrite] ∧
    (filling.chan 5).q.needRead = false ∧ filling.tier.flows = [] := ⟨form_go, by decide +kernel⟩

/-- Channel 5 in training, its sweep asked for or not. -/
def sweeping (st : Nat) : State := go.modChan 5 fun x => { x with state := 1, trnStatus := st }

theorem witness_sweep : Form (sweeping 0) ∧ authentic (sweeping 0) 7 ∧ ((sweeping 0).chan 5).state = 1 ∧
    ((sweeping 0).chan 5).trnStatus ≠ 1 ∧ Form (sweeping 1) ∧ ((sweeping 1).chan 5).trnStatus = 1 ∧
    (List.replicate 160 (0 : Byte)).length = 160 ∧ (List.replicate 2560 (0 : Byte)).length = 2560 :=
  ⟨form_of (by decide +kernel), by unfold authentic; decide +kernel, by decide +kernel, by decide +kernel, form_of (by decide +kernel),
    by decide +kernel, List.length_replicate, List.length_replicate⟩

/-- Channel 5 past half its limit of corrected errors; with a march test under way on one free plot. -/
def doubtful : State := go.modChan 5 fun x => { x with ces := List.replicate 40 0, ues := List.replicate 4 0 }
def marching : State := { doubtful with tier := { doubtful.tier with
  runs := [⟨5, 100, 1⟩], march := [(.dist 5, [.run ⟨5, 100, 1⟩ false])] } }

theorem witness_march : Form doubtful ∧ doubtful.inGo = true ∧ doubtful.test.inject = none ∧ doubtful.candidate (.dist 5) = true ∧
    (∀ m ∈ doubtful.tier.march, m.1 ≠ .dist 5) ∧ Form marching ∧ marching.inGo = true ∧
    marching.tier.march.find? (fun m => m.1 == .dist 5) = some (.dist 5, [.run ⟨5, 100, 1⟩ false]) ∧ ringRoom marching ∧
    (marching.chan 5).state = 2 :=
  ⟨form_of (by decide +kernel), by decide +kernel, by decide +kernel, by decide +kernel, by decide +kernel, form_of (by decide +kernel),
    by decide +kernel, by decide +kernel, by unfold ringRoom; decide +kernel, by decide +kernel⟩

/-! ### Hypotheses met: relay engines -/

/-- A coded block of 128 zero subvectors under version 3, with its CRC (R48, R49, R54). -/
def zeroBlock : List Byte :=
  let b := [0x5A, 0x01, 0x0C, 0, 0, 0, 1, 0] ++ List.replicate 56 0
  patch b 8 (natLe 4 (blockCrc b))

/-- A page whose block 0 is that block, its others never written: sprint alone, or packed. -/
def sealedPage : Page := ⟨2, 1, 2, 0, 3, false, 9, 0, 1 :: List.replicate 31 0, 0, 0⟩
def codedPage : Page := { packedPage with gran := 1 :: List.replicate 31 0 }

/-- Version 3 is live, page 98 is coded in the distance tier, page 99 in the sprint tier. -/
def coded : State :=
  ((withPages (versioned false) [(98, codedPage), (99, sealedPage)]).writeDist (codedPage.distAddr 0) zeroBlock).writeSprint
    (sealedPage.sprintAddr 0) zeroBlock

theorem form_coded : Form coded := form_of (by decide +kernel)

def withItems (s : State) (is : List Item) : State := { s with nextId := 100, relay := { s.relay with items := is } }

theorem slot_free (s : State) (st pc : Nat) (h : ((upto 32).map fun i => (nth s.tier.slotPtr 0 st + i) % 32).find?
    (fun pc => decide (0 < s.pcFree st pc)) = some pc) (hu : s.tier.slotsUsed = []) : ∃ sl, s.pickSlot st = some sl := by
  have hused : s.pcUsed st pc = [] := by simp [State.pcUsed, hu]
  simp only [State.pickSlot, h, hused]
  exact ⟨_, rfl⟩

theorem witness_item_start : let s := withItems coded [anItem .promote 98 false]
    s.inGo = true ∧ s.relayOpen 4 = true ∧
    bestBy s.itemBefore (s.relay.items.filter fun i => i.engine == some 4 && !i.running && s.served i && decide (i.age ≤ s.now)) =
      some (anItem .promote 98 false) ∧ s.canStart 4 (anItem .promote 98 false) = true ∧ s.moveOn 98 = none ∧ (s.page 98).st = 3 ∧
    s.pausing = false ∧ s.test.inject = none := by decide +kernel

/-- An expansion waits at the engine, running or not. -/
theorem witness_item_serves : let it := { anItem .expand 98 false with req := some 40 }
    let s := { withItems coded [it] with reqs := [aReq false 98 .item] }
    s.inGo = true ∧ s.relayOpen 4 = true ∧
    bestBy s.itemBefore (s.relay.items.filter fun i => i.engine == some 4 && !i.running && s.served i && decide (i.age ≤ s.now)) =
      some it ∧ s.canStart 4 it = true ∧ isMove it.kind = false := by decide +kernel

theorem witness_item_slot : Form (withItems coded [anItem .promote 98 false]) ∧
    ∃ sl, (withItems coded [anItem .promote 98 false]).pickSlot ((withItems coded [anItem .promote 98 false]).page 98).home = some sl :=
  ⟨form_of (by decide +kernel), slot_free _ _ 0 (by decide +kernel) rfl⟩

/-- The read an item serves, its bytes read. -/
def servedReq (e : Page) (stored : List Byte) : Req := { aReq false 98 .item with entry := e, rdata := stored }

def serves (s : State) (k : ItemKind) (r : Req) : State :=
  { withItems s [{ anItem k 98 true with req := some 40 }] with reqs := [r] }

theorem witness_item_ends : ∀ k ∈ [ItemKind.expand, .bypass],
    serving (serves coded k (servedReq codedPage zeroBlock)) 70 k { anItem k 98 true with req := some 40 } (servedReq codedPage zeroBlock) 5 ∧
    (servedReq codedPage zeroBlock).entry.st ≠ 6 ∧
    (serves coded k (servedReq codedPage zeroBlock)).blockFails 98 codedPage 0 zeroBlock = none ∧
    isCoded (codedPage.code 0) = true ∧
    ((serves coded k (servedReq codedPage zeroBlock)).dramQ (.dist 5)).holds 40 = false := by
  unfold serving; decide +kernel

/-- Page 98 belongs to a vault with a key. -/
def vaulted : State := (withPages go [(98, { rawPage with st := 6 })]).setBlob 0x1810 1 aKey

theorem witness_item_vault : serving (serves vaulted .xts (servedReq { rawPage with st := 6 } (List.replicate 64 0))) 70 .xts
      { anItem .xts 98 true with req := some 40 } (servedReq { rawPage with st := 6 } (List.replicate 64 0)) 5 ∧
    (serves vaulted .xts (servedReq { rawPage with st := 6 } (List.replicate 64 0))).vaultKey 98 = some aKey := by
  unfold serving; decide +kernel

theorem form_serves : Form (serves coded .bypass (servedReq codedPage zeroBlock)) := form_of (by decide +kernel)

theorem witness_unseal : let s := withItems coded [anItem .unseal 99 true]
    s.busy 70 = false ∧
    s.item 70 = some (anItem .unseal 99 true) ∧ (s.page 99).st = 2 ∧ (s.page 99).gran.length = 32 ∧ isCoded ((s.page 99).code 0) = true ∧
    s.blockFails 99 (s.page 99) 0 (s.sprintBlock (s.page 99) 0) = none ∧
    s.plain 99 (s.page 99) 0 (s.sprintBlock (s.page 99) 0) = List.replicate 2048 0 := by decide +kernel

theorem form_unseal : Form (withItems coded [anItem .unseal 99 true]) := form_of (by decide +kernel)

/-- A move of a page to slot 12 of its stack. -/
def aMove (k : ItemKind) (lpn : Nat) (prior : Page) : Move :=
  { id := 80, item := anItem k lpn true, prior := prior, slot := some 12, run := none, pooled := false, cbv := some 3, marked := [],
    codes := [], inject := 0, step := 5, srcBad := [], dstBad := [] }

def moving (touched : Bool) : State :=
  let s := (withPages (versioned false) [(98, { codedPage with st := 7, touched := touched })]).writeDist (codedPage.distAddr 0) zeroBlock
  let i := withItems s [anItem .promote 98 true]
  { i with relay := { i.relay with moves := [aMove .promote 98 codedPage] } }

/-- The same move at another step of R75. -/
def atStep (n : Nat) : State := { moving false with relay := { (moving false).relay with moves := [{ aMove .promote 98 codedPage with step := n }] } }

theorem witness_move_steps : ∀ n ∈ [1, 2, 3, 4], formB (atStep n) = true ∧ ((atStep n).move 80).map (·.step) = some n ∧
    ((atStep n).moveOn 98).map (·.id) = some 80 ∧ (atStep n).busy 80 = false ∧ (atStep n).journalWaits 98 = false ∧
    (atStep n).copyFault 98 ((atStep n).view 98) (aMove .promote 98 codedPage).fromDist [] = none ∧
    (aMove .promote 98 codedPage).switches = true ∧ (aMove .sealing 99 sealedPage).switches = false := by decide +kernel

theorem witness_promotion : ∀ touched, sound (moving touched) 80 (aMove .promote 98 codedPage) ∧
    ((moving touched).page 98).st = 7 ∧ codedPage.home = ((moving touched).page 98).home ∧ codedPage.st = 3 ∧
    (∀ b < 32, ((moving touched).page 98).code b ≤ 15) ∧ ((moving touched).page 98).touched = touched := by
  unfold sound; decide +kernel

theorem form_moving : Form (moving false) ∧ Form (moving true) := ⟨form_of (by decide +kernel), form_of (by decide +kernel)⟩

/-- Page 99 has one raw block and is being sealed. -/
def sealingPage : Page := { rawPage with gran := 15 :: List.replicate 31 0 }

def sealingNow : State :=
  let i := withItems (withPages (versioned false) [(99, sealingPage)]) [anItem .sealing 99 true]
  { i with relay := { i.relay with moves := [aMove .sealing 99 sealingPage] } }

theorem witness_seal : Form sealingNow ∧ sound sealingNow 80 (aMove .sealing 99 sealingPage) ∧ sealingNow.cbvOpen (aMove .sealing 99 sealingPage) = true ∧
    (sealingNow.page 99).st = 1 ∧ sealingNow.inGo = true ∧ sealingNow.move 80 = some (aMove .sealing 99 sealingPage) ∧
    (aMove .sealing 99 sealingPage).item.id < sealingNow.nextId ∧
    (withPages go [(99, sealingPage)]).inGo = true ∧ ((withPages go [(99, sealingPage)]).page 99).st = 1 ∧
    (withPages go [(99, sealingPage)]).sealPending 99 = false ∧ (withPages go [(99, sealingPage)]).region 99 < 64 :=
  ⟨form_of (by decide +kernel), by unfold sound; decide +kernel, by decide +kernel⟩

/-- Slot 12 of stack 2 waits under ticket 30 for a reader that has left. -/
def freeing : State := { go with tier := { go.tier with
  slotsUsed := [slotKey 2 12], deferred := [⟨30, .slot 2 12, [40]⟩] } }

theorem witness_space_freed : freeing.tier.deferred.find? (fun x => x.ticket == 30) = some ⟨30, .slot 2 12, [40]⟩ ∧
    (∀ r ∈ freeing.reqs, r.stage = .dram ∨ r.stage = .item ∨ r.stage = .queue → r.id ∉ [40]) ∧
    ∀ l ∈ freeing.stride.legs, l.done = false → l.id ∉ [40] := by decide +kernel

/-- A build of region 0 from page 98, which its record names. -/
def building : State :=
  let s := withItems coded [anItem .build 0 true]
  { s with relay := { s.relay with seals := [(0, [98])] } }

/-- A region without versions whose last two seals escaped. -/
def escaping : State := { go with relay := { go.relay with escapes := [(0, List.replicate 64 (100, 1))] } }

theorem witness_builds : Form building ∧ building.item 70 = some (anItem .build 0 true) ∧ ringRoom building ∧
    building.busy 70 = false ∧ building.sealRecord 0 = [98] ∧
    (∀ l ∈ building.sealRecord 0, building.copyFault l (building.view l) (!(building.view l).inSprint) [] = none) ∧
    escaping.core1Runs = true ∧ escaping.buildable 0 = true ∧ escaping.escapesHigh 0 = true :=
  ⟨form_of (by decide +kernel), by decide +kernel, by unfold ringRoom; decide +kernel, by decide +kernel⟩

/-- Every relay engine but engine 4 is fenced; engine 4 runs an expansion. -/
def lastEngine : State :=
  let s := withItems go [anItem .expand 98 true]
  { s with relay := { s.relay with engines := (List.range 16).map fun e => { Engine.init with fenced := e != 4 } } }

theorem witness_failures : Form go ∧ go.inGo = true ∧ (go.relayEng 4).fenced = false ∧ 2 ≤ go.unfenced ∧ Form lastEngine ∧
    lastEngine.inGo = true ∧ (lastEngine.relayEng 4).fenced = false ∧ lastEngine.unfenced = 1 ∧
    (lastEngine.relay.items.map (·.id)).Nodup ∧
    (∀ i ∈ lastEngine.relay.items, i.engine = some 4 → i.running = true → i.fails < 2) ∧ lastEngine.relay.items.length = 1 :=
  ⟨form_go, by decide +kernel, by decide +kernel, by decide +kernel, form_of (by decide +kernel), by decide +kernel⟩

/-- A request waits for its promotion's slot, or for a slot of its own, with no plot free. -/
def waitsFor (write : Bool) (stage : Stage) : State := { go with nextId := 100, reqs := [ownReq write 96 stage] }
def owned (s : State) : State := withPages s [(96, { Page.zero with owner := 1 })]
def crowded : State := { owned (waitsFor true .slot) with
  tier := { go.tier with runs := (List.range 16).map fun c => ⟨c, 0, 66104320⟩ } }

theorem witness_credits : (waitsFor false .promotion).req 40 = some (ownReq false 96 .promotion) ∧
    (waitsFor false .promotion).moveOn 96 = none ∧ Form (owned (waitsFor true .slot)) ∧
    let s := owned (waitsFor true .slot)
    s.inGo = true ∧ s.req 40 = some (ownReq true 96 .slot) ∧ (s.page 96).st = 0 ∧
    (ownReq true 96 .slot).entry.owner = (ownReq true 96 .slot).port ∧ s.isVault 96 = false ∧
    s.pausing = false ∧ s.withheld 2 = false ∧ s.slotOlder (ownReq true 96 .slot) (s.homeFor 96) = false ∧
    (∀ m ∈ s.relay.moves, m.hasSpace = true) :=
  ⟨by decide +kernel, by decide +kernel, form_of (by decide +kernel), by decide +kernel⟩

theorem witness_credit_slot : ∃ sl, (owned (waitsFor true .slot)).pickSlot ((owned (waitsFor true .slot)).homeFor 96) = some sl :=
  slot_free _ _ 0 (by decide +kernel) rfl

theorem witness_backing : Form crowded ∧ crowded.req 40 = some (ownReq true 96 .slot) ∧ crowded.waitsForSpace (ownReq true 96 .slot) = true ∧
    crowded.core1Runs = true ∧ crowded.unregulated = false ∧ crowded.below (2 * crowded.num 0x2000 4) = true ∧
    crowded.moveOn 96 = none ∧ ringRoom crowded :=
  ⟨form_of (by decide +kernel), by decide +kernel, by decide +kernel, by decide +kernel, by decide +kernel, by decide +kernel,
    by decide +kernel, by unfold ringRoom; decide +kernel⟩

/-- Page 99 idle in the sprint tier while plots are short. -/
def choosing : State := { withPages crowded [(99, rawPage)] with now := 10 ^ 15 }

theorem witness_choices : choosing.core1Runs = true ∧ choosing.below (2 * choosing.num 0x2000 4) = true ∧ choosing.quiet 99 = true ∧
    choosing.demoteReady 99 = true ∧ moveFits .demote (choosing.view 99) = true ∧ Form stocked ∧ stocked.core1Runs = true ∧
    stocked.quiet 99 = true ∧ stocked.reclaimNext 99 = true ∧ (stocked.page 99).st = 4 ∧ (stocked.chan (stocked.page 99).channel).state ≠ 4 ∧
    stocked.readersOf 99 = [] :=
  ⟨by decide +kernel, by decide +kernel, by decide +kernel, by decide +kernel, by decide +kernel, form_of (by decide +kernel),
    by decide +kernel⟩

/-- Page 98 was read past the mark. -/
def wanted : State := { stocked with map := { stocked.map with uses := [(98, { PageUse.zero with bypasses := 200 })] } }

theorem witness_epoch : Form wanted ∧ wanted.inGo = true ∧ wanted.core1Runs = true ∧ wanted.policyPromotes = false ∧
    wanted.use 98 ≠ PageUse.zero ∧ wanted.num 0x5000 6 ≤ (wanted.use 98).bypasses ∧ wanted.quiet 98 = true ∧
    moveFits .promote (wanted.view 98) = true :=
  ⟨form_of (by decide +kernel), by decide +kernel⟩

/-- A module with an entry for hook 4 runs; a call of it is under way. -/
def hooked (hook : Option HookCall) : State := { go with dict := { go.dict with
  policy := List.replicate 0x18 0 ++ List.replicate 16 0 ++ [4, 0, 0, 0] ++ List.replicate 84 0, policyState := 2, hook := hook
  policyFaults := [0, 0] } }

/-- A call of hook 4, made at depth 1. -/
def aCall : HookCall := ⟨4, [], 0x00400000, 1, 0⟩

/-- No window of core 3 is free. -/
def hookedFull : State := { hooked none with cores := updAt go.cores 3 fun c => { c with resident := 11, lockerHi := 512 } }

theorem witness_hooks : (∀ s ∈ [hooked none, hookedFull], formB s = true ∧ s.core1Runs = true ∧ hookSize 4 0 = true ∧
      s.dict.policyState = 2 ∧ s.dict.hook = none ∧ hookEntry s.dict.policy 4 ≠ 0 ∧ (s.core 3).ready = true) ∧
    ((hooked none).core 3).resident < 11 ∧ 11 ≤ (hookedFull.core 3).resident ∧
    (hookedFull.core 3).spillFull hookedFull.ovfReach = false ∧ aCall.hook = 4 ∧ (hooked (some aCall)).dict.hook = some aCall ∧
    Form (hooked (some aCall)) ∧ ringRoom (hooked (some aCall)) ∧
    2 ≤ ((hooked (some aCall)).dict.policyFaults.filter fun x => decide ((hooked (some aCall)).now < x + 60000000000)).length :=
  ⟨by decide +kernel, by decide +kernel, by decide +kernel, by decide +kernel, rfl, rfl, form_of (by decide +kernel),
    by unfold ringRoom; decide +kernel, by decide +kernel⟩

/-! ### Hypotheses met: pacer, laps, the TAP -/

/-- Bib 2 is GUARANTEED with a read latency limit of 1000 ns and an average above it. -/
def pressed : State := ((go.setNum 0x7012 1 0).setNum 0x7012 3 1000).modBib 2 fun b => { b with readAvg := 1900, steps := 1 }

theorem witness_pacer : Form pressed ∧ pressed.inGo = true ∧ pressed.bibClass 2 = 0 ∧ (pressed.bib 2).steps ≤ 3 ∧
    go.bibClass 3 ≠ 0 := ⟨form_of (by decide +kernel), by decide +kernel⟩

/-- A lap of stride engine 5 is under way, its engine drained or not; relay engine 2 is fenced. -/
def lapping (forced drained : Bool) : State :=
  { go with test := { go.test with lap := some ⟨5, forced, false, drained⟩ } }.modLapEng 5 fun g => { g with drained := true }
def fencedGo : State := go.modRelay 2 fun g => { g with fenced := true }

theorem witness_laps : Form go ∧ go.lapsOpen = true ∧ go.strained = false ∧ go.lapFrom go.test.lapNext = some 0 ∧
    go.lapEligible 31 = true ∧ Form pressed ∧ pressed.lapsOpen = true ∧ pressed.strained = true ∧ Form fencedGo ∧
    fencedGo.lapsOpen = true ∧ fencedGo.lapPresent 18 = true ∧ (fencedGo.lapEng 18).fenced = true ∧
    (fencedGo.lapEng 18).permanent = false ∧ ringRoom fencedGo :=
  ⟨form_go, by decide +kernel, by decide +kernel, by decide +kernel, by decide +kernel, form_of (by decide +kernel), by decide +kernel,
    by decide +kernel, form_of (by decide +kernel), by decide +kernel, by decide +kernel, by decide +kernel, by decide +kernel,
    by unfold ringRoom; decide +kernel⟩

theorem witness_lap_under_way : (∀ forced drained, (lapping forced drained).test.lap = some ⟨5, forced, false, drained⟩ ∧
      (lapping forced drained).lapBusy 5 = false ∧ (lapping forced drained).test.inject = none ∧
      ((lapping forced drained).lapEng 5).fenced = false ∧ (lapping forced drained).lapFrom 6 = some 6 ∧
      formB (lapping forced drained) = true) ∧ ringRoom (lapping true true) :=
  ⟨by decide +kernel, by unfold ringRoom; decide +kernel⟩

/-- The TAP in a state with data and instruction being shifted. -/
def scanning (st : TapState) : State := { go with test := { go.test with tap := { go.test.tap with st := st, dr := [true, false], irShift := 1 } } }

theorem witness_tap : go.run.state ≠ 5 ∧ (scanning .shDr).test.tap.st = .shDr ∧ (scanning .shDr).test.tap.dr ≠ [] ∧
    (scanning .shIr).test.tap.st = .shIr ∧ (scanning .shIr).test.tap.irShift < 32 ∧ (scanning .ex1Ir).test.tap.st.next true = .upIr ∧
    (scanning .reset).test.tap.st.next true = .reset ∧ (scanning .capDr).test.tap.st = .capDr ∧ Tap.init.ir = 1 := by decide +kernel

/-! ### Hypotheses met: coach cores -/

/-- A running core 1 with what it holds. -/
def core1 (f : Core → Core) : State := { go with cores := updAt go.cores 1 f }
def core3 (f : Core → Core) : State := { go with cores := updAt go.cores 3 f }

theorem witness_windows : Form go ∧ go.coreRuns 1 = true ∧ (go.core 1).ready = true ∧ (go.core 1).tw = false ∧
    (go.core 1).resident < 11 ∧
    (∀ x ∈ [0, 5104], let s := core1 fun c => { c with resident := 11, spilled := List.replicate x [] };
      s.coreRuns 1 = true ∧ (s.core 1).ready = true ∧ (s.core 1).tw = false ∧ 11 ≤ (s.core 1).resident ∧
      (s.core 1).spillFull s.ovfReach = decide (x = 5104)) ∧
    (let s := core1 fun c => { c with resident := 2 };
      s.coreRuns 1 = true ∧ (s.core 1).ready = true ∧ (s.core 1).tw = false ∧ 1 < (s.core 1).wdepth) ∧
    (let s := core1 fun c => { c with resident := 10 };
      s.coreRuns 1 = true ∧ 9 < (s.core 1).resident ∧ (s.core 1).spilling = false ∧ (s.core 1).spillFull s.ovfReach = false) ∧
    (let s := core1 fun c => { c with resident := 10, spilling := true };
      s.coreRuns 1 = true ∧ s.windowBusy 1 = false ∧ (s.core 1).spilling = true ∧ 2 ≤ (s.core 1).resident ∧ (s.core 1).wait = .none) ∧
    (let s := core1 fun c => { c with wait := .fill, resident := 0, spilled := [List.replicate 16 7] };
      s.coreRuns 1 = true ∧ s.windowBusy 1 = false ∧ (s.core 1).wait = .fill ∧ (s.core 1).spilled = List.replicate 16 7 :: [] ∧
      (List.replicate 16 (7 : Word)).length = 16) :=
  ⟨form_go, by decide +kernel, by decide +kernel, by decide +kernel, by decide +kernel, by decide +kernel, by decide +kernel,
    by decide +kernel, by decide +kernel, by decide +kernel⟩

theorem witness_window_forms : (∀ x ∈ [0, 5104], formB (core1 fun c => { c with resident := 11, spilled := List.replicate x [] }) = true) ∧
    (∀ n ∈ [2, 10], formB (core1 fun c => { c with resident := n }) = true) ∧
    formB (core1 fun c => { c with resident := 10, spilling := true }) = true ∧
    formB (core1 fun c => { c with wait := .fill, resident := 0, spilled := [List.replicate 16 7] }) = true := by decide +kernel

/-- Core 1 in user mode. -/
def userCore : State := core1 fun c => { c with cstat := 0 }

theorem witness_csr : (∀ k ∈ [0x000, 0x001, 0x004, 0x013, 0x014, 0x015, 0x020], ((go.core 1).csr k).isSome = true) ∧ (go.core 1).sup = true ∧ (go.core 1).ready = true ∧
    ((userCore.core 1).csr 0x012).isSome = true ∧ (userCore.core 1).sup = false ∧ userCore.coreRuns 1 = true := by decide +kernel

/-- First address of the data SRAM of core 1, wherever the part has it. -/
def sram1 : Nat := Config.sramBase 1

theorem sram1_bound : sram1 % 0x40000 = 0 ∧ sram1 ≤ 2 ^ 32 - 0x40000 := by
  have h : sram1 = 0x40000 * (Config.sramSlot 1).toNat := rfl
  have := (Config.sramSlot 1).isLt
  constructor <;> omega

theorem witness_sram : inSram 1 (sram1 + 0x20000) 1 = true ∧ ∀ store, (go.core 1).place 1 go.codeEnd store (sram1 + 0x20000) = .sram := by
  have hb := sram1_bound
  have hin : inSram 1 (sram1 + 0x20000) 1 = true := by
    unfold inSram
    exact decide_eq_true ⟨Nat.le_add_right _ _, by show sram1 + 0x20000 + 1 ≤ sram1 + 0x40000; omega⟩
  have hsup : (go.core 1).sup = true := by decide +kernel
  refine ⟨hin, fun store => ?_⟩
  unfold Core.place
  rw [if_neg (by omega), if_neg (by omega), if_neg (by omega), if_pos ⟨hin, hsup⟩]

/-- Core 3 in user mode loads from address 0. -/
def user3 : State := core3 fun c => { c with cstat := 0 }

theorem witness_denied : (user3.core 3).place 3 user3.codeEnd true 0 = .denied ∧ (user3.core 3).place 3 user3.codeEnd false 0 = .denied ∧
    user3.coreRuns 3 = true ∧ (user3.core 3).ready = true ∧ formB user3 = true := by decide +kernel

theorem witness_traps : freeToRun go 1 ∧ freeToRun userCore 1 ∧ (userCore.core 1).sup = false ∧ freeToRun user3 3 ∧
    formB userCore = true ∧
    (let s := { user3 with dict := (hooked (some aCall)).dict };
      s.coreRuns 3 = true ∧ (s.core 3).ready = true ∧ (s.core 3).tw = false ∧ (s.core 3).resident < 11 ∧ (s.core 3).sup = false ∧
      ringRoom s ∧ s.dict.hook = some aCall) ∧
    (let s := core1 fun c => { c with cstat := 3 };
      s.coreRuns 1 = true ∧ (s.core 1).tw = false ∧ (s.core 1).ie = true ∧ (s.core 1).resident < 11 ∧ (s.core 1).wait = .none) ∧
    (let s := core1 fun c => { c with cstat := 0x102 };
      s.coreRuns 1 = true ∧ (s.core 1).ready = true ∧ (s.core 1).sup = true ∧ (s.core 1).tw = true) ∧
    (let s := core1 fun c => { c with resident := 2 };
      (s.core 1).tw = false ∧ 2 ≤ (s.core 1).resident ∧ (s.core 1).saved = false) := by
  unfold freeToRun ringRoom; decide +kernel

theorem word_toNat (n : Nat) (h : n < 2 ^ 32) : (BitVec.ofNat 32 n).toNat = n := by
  rw [BitVec.toNat_ofNat, Nat.mod_eq_of_lt h]

/-- A context frame of MASK 1 with nothing but zeros, and core 1 with it as the newest of its context stack. -/
def aContext : List Word := [0x3001C7, 0, 0x3001C7, 0, 0, 0, 0, 0, 0, 0, 0, 0]

def ctxSram : Memory := Memory.writeN [] (sram1 + 0x1000) (wordsLe aContext)

def ctxCore : Core := { (go.core 1) with
  ctxhead := BitVec.ofNat 32 (sram1 + 0x1000), ctxtop := BitVec.ofNat 32 (sram1 + 0x2000), ctxlimit := BitVec.ofNat 32 sram1
  tallyFrame := BitVec.ofNat 32 (sram1 + 0x3000), cstat := 10, resident := 2
  sram := ctxSram }

theorem in_sram1 (o len : Nat) (h : o + len ≤ 0x40000) : inSram 1 (sram1 + o) len = true := by
  unfold inSram
  exact decide_eq_true ⟨Nat.le_add_right _ _, by show sram1 + o + len ≤ sram1 + 0x40000; omega⟩

theorem ctx_head : ctxCore.ctxhead.toNat = sram1 + 0x1000 ∧ ctxCore.ctxtop.toNat = sram1 + 0x2000 ∧ ctxCore.ctxlimit.toNat = sram1 ∧
    ctxCore.tallyFrame.toNat = sram1 + 0x3000 := by
  have := sram1_bound
  exact ⟨word_toNat _ (by omega), word_toNat _ (by omega), word_toNat _ (by omega), word_toNat _ (by omega)⟩

theorem below (a : Nat) : a + 0x1000 - 48 = a + 4048 := by omega

theorem witness_context : ctxCore.ctxAligned = true ∧ ctxCore.ctxlimit.toNat ≤ ctxCore.ctxhead.toNat - frameSize 1 ∧
    frameSize 1 ≤ ctxCore.ctxhead.toNat ∧ inSram 1 (ctxCore.ctxhead.toNat - frameSize 1) (frameSize 1) = true ∧
    ctxCore.ctxhead ≠ ctxCore.ctxtop ∧ inSram 1 ctxCore.ctxhead.toNat (frameSize 1) = true ∧
    inSram 1 ctxCore.ctxhead.toNat 16 = true ∧ inSram 1 ctxCore.tallyFrame.toNat 144 = true ∧ ctxCore.pend = true ∧
    ctxCore.saved = false ∧ ctxCore.sup = true ∧ ctxCore.tw = false ∧ ctxCore.ready = true := by
  have hb := sram1_bound
  obtain ⟨h1, h2, h3, h4⟩ := ctx_head
  have hs : frameSize 1 = 48 := by decide
  have hsub : sram1 + 0x1000 - 48 = sram1 + 4048 := below sram1
  refine ⟨?_, by rw [h1, h3, hs]; omega, by rw [h1, hs]; omega, ?_, ?_, ?_, ?_, ?_, by decide +kernel, by decide +kernel, by decide +kernel, by decide +kernel,
    by decide +kernel⟩
  · unfold Core.ctxAligned
    rw [h1, h2, h3]
    simp only [Bool.and_eq_true, beq_iff_eq]
    omega
  · rw [h1, hs, hsub]; exact in_sram1 _ _ (by omega)
  · intro h
    have := congrArg BitVec.toNat h
    omega
  · rw [h1, hs]; exact in_sram1 _ _ (by omega)
  · rw [h1]; exact in_sram1 _ _ (by omega)
  · rw [h4]; exact in_sram1 _ _ (by omega)

theorem ctx_sram : ctxCore.sram = ctxSram := by simp only [ctxCore]

theorem context_length : (wordsLe aContext).length = 48 := by decide +kernel

theorem context_read (i : Nat) (h : i < 48) : ctxCore.sram.read (sram1 + 0x1000 + i) = (wordsLe aContext).getD i 0 := by
  rw [ctx_sram, ctxSram]
  rw [Memory.read_writeN [] (sram1 + 0x1000) i (wordsLe aContext) rfl (context_length ▸ h)]
  rw [List.getD, List.getElem?_eq_getElem (context_length ▸ h), Option.getD_some]

theorem context_word (i : Nat) (hi : i < 12) : ctxCore.sramWord (sram1 + 0x1000 + 4 * i) = nth aContext 0 i := by
  unfold Core.sramWord
  simp only [Memory.readN, Nat.add_assoc]
  have c := fun k (hk : k < 48) => context_read k hk
  simp only [Nat.add_assoc] at c
  rw [c _ (by omega), c _ (by omega), c _ (by omega), c _ (by omega)]
  revert i
  decide +kernel

theorem witness_drop : ctxCore.dropSize = 48 ∧ inSram 1 ctxCore.ctxhead.toNat ctxCore.dropSize = true := by
  have h : ctxCore.dropSize = 48 := by
    have c := context_word 0 (by decide)
    rw [Nat.mul_zero, Nat.add_zero] at c
    unfold Core.dropSize
    rw [ctx_head.1, c]
    decide +kernel
  refine ⟨h, ?_⟩
  rw [h, ctx_head.1]
  exact in_sram1 _ _ (by omega)

theorem witness_frame : frameGood 1 (ctxCore.frameAt (frameSize 1)) = true := by
  have hw : ctxCore.frameAt (frameSize 1) = aContext := by
    have hm : ctxCore.frameAt (frameSize 1) = (upto 12).map fun i => ctxCore.sramWord (sram1 + 0x1000 + 4 * i) := by
      unfold Core.frameAt
      rw [ctx_head.1]
      rfl
    rw [hm, List.map_congr_left fun i hi => context_word i (by simpa using List.mem_range.mp hi)]
    decide +kernel
  rw [hw]; decide

/-- Core 2 has halted; core 1 holds 1 in g1 and two windows. -/
def halted : State := { go with cores := updAt go.cores 2 fun c => { c with state := 1 } }
def cutting : State := core1 fun c => { c with resident := 2, g := [0, 1, 0, 0, 0, 0, 0, 0] }

theorem witness_cut_restart : cutting.coreRuns 1 = true ∧ (cutting.core 1).ready = true ∧ (cutting.core 1).sup = true ∧
    ((cutting.core 1).reg 1).toNat = 1 ∧ 1 ≤ (cutting.core 1).wdepth ∧ (cutting.core 1).wdepth - 1 < (cutting.core 1).resident ∧
    (cutting.core 1).resident ≤ 11 ∧ formB cutting = true ∧ halted.coreRuns 1 = true ∧ (halted.core 2).state = 1 ∧
    halted.dict.policyState ≠ 2 ∧ formB halted = true ∧
    (∀ n < 4, go.coreRuns n = true ∧ (go.core n).ready = true ∧ (go.core n).sup = true) ∧ go.run.state ≤ 3 := by decide +kernel

/-! ### Hypotheses met: starts, power, heat -/

/-- One RDIMM of 256 GiB whose eyes are half a UI and whose verify passes. -/
def aTrain : ChanTrain :=
  ⟨[⟨true, 256, 4, 32, 2, 6400, 1, List.replicate 12 0, List.replicate 12 0⟩], true, [⟨List.replicate 160 64, true⟩]⟩

/-- A part in one state of its start, with what each clause asks for. -/
def running (f : RunSt → RunSt) : State := { go with run := f go.run }

theorem witness_starts : ∀ s ∈ [running fun r => { r with state := 5 }, running fun r => { r with state := 0, sysRstLow := true },
      running fun r => { r with state := 1, distReady := false, startKind := 0, retention := false },
      running fun r => { r with state := 1, fieldPg := false, distReady := true },
      running fun r => { r with state := 1, distReady := true, fieldReady := true },
      running fun r => { r with trans := .entering false }], formB s = true ∧ s.ev.ring.length < 1000 := by decide +kernel

theorem witness_start_clauses :
    ((running fun r => { r with state := 1, distReady := false, startKind := 0, retention := false }).run.dictServed = true) ∧
    (running fun r => { r with state := 1, fieldPg := false, distReady := true }).run.fieldEn = true ∧ go.run.fieldEn = true ∧
    go.run.fieldPg = true ∧ go.run.plls &&& 1 ≠ 0 ∧ go.run.plls &&& 2 ≠ 0 ∧ go.run.plls &&& 2 ^ (3 + 2) ≠ 0 ∧
    (running fun r => { r with trans := .entering false }).unsettled = false ∧
    (∀ c ∈ (running fun r => { r with trans := .entering false }).cores, c.spillCount ≤ c.lockerHi) ∧
    (trainConfig aTrain).isSome = true ∧ (∀ d ∈ aTrain.dimms, d.codeOk = true) ∧
    (∀ c < 16, (running fun r => { r with state := 1, distReady := false, startKind := 0, retention := false }).trainPasses c aTrain = true) ∧
    okTrain aTrain = true ∧ okTrain ⟨[], true, []⟩ = true :=
  ⟨by decide +kernel, by decide +kernel, by decide +kernel, by decide +kernel, by decide +kernel, by decide +kernel, by decide +kernel,
    by decide +kernel, by decide +kernel, by decide +kernel, by decide +kernel, by decide +kernel, by decide +kernel, by decide +kernel⟩

/-- A power cap of 400 W, the throttle level at 2. -/
def capped : State := (running fun r => { r with throttle := 2 }).setNum 0x9000 8 400

theorem witness_heat : Form capped ∧ capped.inGo = true ∧ (capped.num 0x9000 2 : Int) ≤ 200 ∧ 1000 * capped.num 0x9000 8 = 400000 ∧
    (60 : Int) ≤ capped.num 0x9000 2 - 3 ∧ 100 * 300000 ≤ 95 * 400000 ∧ ¬ 400000 < 390000 ∧ ¬ 100 * 390000 ≤ 95 * 400000 ∧
    ringRoom go ∧ 1 ≤ go.run.state ∧ go.run.state ≤ 3 ∧ (∃ x ∈ [(200 : Int)] ++ [50], (go.num 0x9000 3 : Int) ≤ x) ∧
    (∀ x ∈ [(60 : Int)] ++ [50], x < (go.num 0x9000 3 : Int)) ∧ go.run.state ≠ 5 ∧ go.run.thermtrip = false :=
  ⟨form_of (by decide +kernel), by unfold ringRoom; decide +kernel⟩

end Sys2Proof.Tests
end

section
/-! PROOFS. What shared operations leave alone: queue traffic, events, completions, item queues, and space given back. -/

namespace Sys2Proof.Machine

/-! ### Lists of units -/

theorem map_updFirst {α β : Type} (g : α → β) {p : α → Bool} {f : α → α} (h : ∀ x, g (f x) = g x) (l : List α) :
    (updFirst p f l).map g = l.map g := by
  induction l with
  | nil => rfl
  | cons x r ih =>
    unfold updFirst
    split <;> simp [h, ih]

/-- An element of an updated list is an old one or the changed form of the one updated. -/
theorem mem_updFirst {α : Type} {p : α → Bool} {f : α → α} {l : List α} {y : α} (h : y ∈ updFirst p f l) :
    y ∈ l ∨ ∃ x ∈ l, p x = true ∧ y = f x := by
  induction l with
  | nil => exact .inl h
  | cons x r ih =>
    unfold updFirst at h
    split at h
    · rename_i hp
      rcases List.mem_cons.1 h with rfl | h
      · exact .inr ⟨x, List.mem_cons_self .., hp, rfl⟩
      · exact .inl (List.mem_cons_of_mem _ h)
    · rcases List.mem_cons.1 h with rfl | h
      · exact .inl (List.mem_cons_self ..)
      · rcases ih h with h | ⟨w, hw, hp, rfl⟩
        · exact .inl (List.mem_cons_of_mem _ h)
        · exact .inr ⟨w, List.mem_cons_of_mem _ hw, hp, rfl⟩

/-- An element that the update does not choose stays. -/
theorem mem_updFirst_of_not {α : Type} {p : α → Bool} {f : α → α} {l : List α} {y : α} (h : y ∈ l) (hp : p y = false) :
    y ∈ updFirst p f l := by
  induction l with
  | nil => exact h
  | cons x r ih =>
    unfold updFirst
    split
    · rename_i hx
      rcases List.mem_cons.1 h with rfl | h
      · simp [hp] at hx
      · exact List.mem_cons_of_mem _ h
    · rcases List.mem_cons.1 h with rfl | h
      · exact List.mem_cons_self ..
      · exact List.mem_cons_of_mem _ (ih h)

/-- Where some element has the property, the changed form of one that has it stands in the list. -/
theorem exists_mem_updFirst {α : Type} {p : α → Bool} (f : α → α) {l : List α} (h : ∃ x ∈ l, p x = true) :
    ∃ x ∈ l, p x = true ∧ f x ∈ updFirst p f l := by
  induction l with
  | nil => simp at h
  | cons x r ih =>
    unfold updFirst
    by_cases hp : p x = true
    · exact ⟨x, List.mem_cons_self .., hp, by simp [hp]⟩
    · obtain ⟨y, hy, hpy⟩ := h
      have hyr : y ∈ r := (List.mem_cons.1 hy).resolve_left fun e => hp (e ▸ hpy)
      obtain ⟨w, hw, hpw, hm⟩ := ih ⟨y, hyr, hpy⟩
      exact ⟨w, List.mem_cons_of_mem _ hw, hpw, by simp [hp, hm]⟩

theorem find?_updFirst_same {α : Type} {p : α → Bool} {f : α → α} (h : ∀ x, p (f x) = p x) (l : List α) :
    (updFirst p f l).find? p = (l.find? p).map f := by
  induction l with
  | nil => rfl
  | cons x r ih =>
    unfold updFirst
    by_cases hp : p x = true <;> simp [hp, h, ih]

theorem find?_updFirst_other {α : Type} {p q : α → Bool} {f : α → α} (hf : ∀ x, q (f x) = q x)
    (hpq : ∀ x, p x = true → q x = false) (l : List α) : (updFirst p f l).find? q = l.find? q := by
  induction l with
  | nil => rfl
  | cons x r ih =>
    unfold updFirst
    by_cases hp : p x = true
    · simp [hp, hf, hpq x hp]
    · simp [hp, List.find?_cons, ih]

/-! ### What shared operations leave alone -/

/-- What holds of both branches holds of the choice. -/
theorem ite_of {P : State → Prop} {a b : State} {c : Prop} [Decidable c] (h : P a) (g : P b) : P (if c then a else b) := by
  split
  · exact h
  · exact g

/-- What every step keeps holds after the fold. -/
theorem foldl_of {α : Type} {P : State → Prop} {f : State → α → State} (l : List α) {s : State} (h : P s)
    (g : ∀ t x, P t → P (f t x)) : P (l.foldl f s) := by
  induction l generalizing s with
  | nil => exact h
  | cons x r ih => exact ih (g s x h)

/-- t comes of s with the stored bytes, the relay engines, the events already reported and the counts of 0x1310 that no traffic of a
host moves (subindex 4 on) as they were. -/
structure Quiet (z s : State) : Prop where
  sprint : s.tier.sprint = z.tier.sprint
  dist : s.tier.dist = z.tier.dist
  engines : s.relay.engines = z.relay.engines
  ring : z.ev.ring <+: s.ev.ring
  counts : ∀ j, 3 < j → j < 256 → s.num 0x1310 j = z.num 0x1310 j

theorem Quiet.refl (s : State) : Quiet s s := ⟨rfl, rfl, rfl, List.prefix_refl _, fun _ _ _ => rfl⟩

theorem Quiet.trans {z s t : State} (h : Quiet z s) (g : Quiet s t) : Quiet z t :=
  ⟨g.sprint.trans h.sprint, g.dist.trans h.dist, g.engines.trans h.engines, h.ring.trans g.ring,
    fun j hj hj' => (g.counts j hj hj').trans (h.counts j hj hj')⟩

/-- An update of fields Quiet does not speak of. -/
theorem Quiet.same {z s t : State} (h : Quiet z s) (sprint : t.tier.sprint = s.tier.sprint := by rfl)
    (dist : t.tier.dist = s.tier.dist := by rfl) (engines : t.relay.engines = s.relay.engines := by rfl)
    (ring : t.ev.ring = s.ev.ring := by rfl) (dict : t.dict = s.dict := by rfl) : Quiet z t :=
  h.trans ⟨sprint, dist, engines, ring ▸ List.prefix_refl _, fun j _ _ => by unfold State.num; rw [dict]⟩

/-- What reports, counts and completions leave alone beside: the maps, the slots in use, the engines' work and the requests. -/
structure Reports (z s : State) : Prop extends Quiet z s where
  map : s.map = z.map
  slots : s.tier.slotsUsed = z.tier.slotsUsed
  relay : s.relay = z.relay
  reqs : s.reqs = z.reqs

theorem Reports.refl (s : State) : Reports s s := ⟨Quiet.refl s, rfl, rfl, rfl, rfl⟩

theorem Reports.trans {z s t : State} (h : Reports z s) (g : Reports s t) : Reports z t :=
  ⟨h.toQuiet.trans g.toQuiet, g.map.trans h.map, g.slots.trans h.slots, g.relay.trans h.relay, g.reqs.trans h.reqs⟩

/-- What granules on their way through the DRAM queues, and outputs, leave alone: all of that, with no event more in the ring. -/
structure Silent (z s : State) : Prop extends Reports z s where
  still : s.ev.ring = z.ev.ring

theorem Silent.refl (s : State) : Silent s s := ⟨Reports.refl s, rfl⟩

theorem Silent.trans {z s t : State} (h : Silent z s) (g : Silent s t) : Silent z t :=
  ⟨h.toReports.trans g.toReports, g.still.trans h.still⟩

/-- An update of fields Silent does not speak of. -/
theorem Silent.same {z s t : State} (h : Silent z s) (sprint : t.tier.sprint = s.tier.sprint := by rfl)
    (dist : t.tier.dist = s.tier.dist := by rfl) (slots : t.tier.slotsUsed = s.tier.slotsUsed := by rfl)
    (map : t.map = s.map := by rfl) (relay : t.relay = s.relay := by rfl) (reqs : t.reqs = s.reqs := by rfl)
    (ring : t.ev.ring = s.ev.ring := by rfl) (dict : t.dict = s.dict := by rfl) : Silent z t :=
  h.trans ⟨⟨(Quiet.refl s).same sprint dist (by rw [relay]) ring dict, map, slots, relay, reqs⟩, ring⟩

/-! ### Counters and DRAM queues -/

/-- A number object other than those counts is set. -/
theorem State.setNum_silent {z s : State} (h : Silent z s) (i j v : Nat) (hk : okey i j < 0x131004 ∨ 0x131100 ≤ okey i j) :
    Silent z (s.setNum i j v) := by
  refine h.trans ⟨⟨⟨rfl, rfl, rfl, List.prefix_refl _, fun a ha ha' => ?_⟩, rfl, rfl, rfl, rfl⟩, rfl⟩
  refine s.num_setNum_other _ _ _ _ _ ?_
  unfold okey at *
  omega

theorem State.bump_silent {z s : State} (h : Silent z s) (i j : Nat) (hk : okey i j < 0x131004 ∨ 0x131100 ≤ okey i j) :
    Silent z (s.bump i j) := State.setNum_silent h _ _ _ hk

theorem State.modDramQ_silent {z s : State} (h : Silent z s) (u : DramUnit) (f : DramQ → DramQ) :
    Silent z (s.modDramQ u f) := by
  cases u <;> exact h.same

theorem State.touchUnit_silent {z s : State} (h : Silent z s) (u : DramUnit) : Silent z (s.touchUnit u) := by
  cases u
  · exact h.same
  · exact h

theorem State.enqueue_silent {z s : State} (h : Silent z s) (u : DramUnit) (write : Bool) (granule : Nat) (owner : QOwner)
    (bib port : Option Nat) : Silent z (s.enqueue u write granule owner bib port) := by
  unfold State.enqueue
  extract_lets q e dist merged s0 s1
  have h0 : Silent z s0 := State.touchUnit_silent h.same u
  have h1 : Silent z s1 := State.modDramQ_silent h0 ..
  clear_value s0 s1 merged
  split
  · exact State.modDramQ_silent h0 ..
  · refine ite_of (P := Silent _) (State.modDramQ_silent h0 ..) (ite_of (P := Silent _) ?_ (State.modDramQ_silent h0 ..))
    split
    · exact State.bump_silent h1 _ _ (.inr (by unfold okey; omega))
    · exact h1

theorem State.stepFlow_silent {z s : State} (h : Silent z s) (id : Nat) : Silent z (s.stepFlow id) := by
  unfold State.stepFlow
  split
  · exact h
  · refine ite_of (P := Silent _) h (ite_of (P := Silent _) (State.enqueue_silent h.same ..) ?_)
    split
    · rename_i b _ _
      exact (State.bump_silent h (0x7040 + b) 8 (.inr (by unfold okey; omega))).same
    · exact h

theorem State.runFlow_silent {z s : State} (h : Silent z s) (f : Flow) : Silent z (s.runFlow f) :=
  foldl_of (P := Silent _) _ h fun _ _ g => State.stepFlow_silent g _

theorem State.addFlow_silent {z s : State} (h : Silent z s) (o : QOwner) (u : DramUnit) (w : Bool) (first n : Nat)
    (bib port : Option Nat) : Silent z (s.addFlow o u w first n bib port) := ite_of (P := Silent _) h h.same

theorem State.maintain_silent {z s : State} (h : Silent z s) (c : Nat) : Silent z (s.maintain c) := ite_of (P := Silent _) h.same h

theorem State.metaWrite_silent {z s : State} (h : Silent z s) (c key granule n : Nat) (w0 w1 : LostWrite) :
    Silent z (s.metaWrite c key granule n w0 w1) := by
  unfold State.metaWrite
  extract_lets put s1
  have hput : ∀ t d w, Silent z t → Silent z (put t d w) := fun t d w g =>
    ite_of (P := Silent _) g (ite_of (P := Silent _) (State.addFlow_silent g ..)
      (ite_of (P := Silent _) (State.maintain_silent g _) g))
  have h1 : Silent z s1 := hput _ _ _ (hput _ _ _ h)
  clear_value put s1
  split
  · exact State.addFlow_silent h1 ..
  · exact h1

/-- Metadata writes on their way. -/
theorem State.pushMeta_silent {z s : State} (h : Silent z s) (c key n : Nat) (w0 w1 : LostWrite) :
    Silent z (s.pushMeta c key n w0 w1) :=
  foldl_of (P := Silent _) _ (State.metaWrite_silent h ..) fun _ _ g => State.runFlow_silent g _

/-- A swap of an entry is the change of the map, and its metadata writes. -/
theorem State.swapPage_silent (s : State) (lpn : Nat) (e : Page) : Silent (s.setPage lpn e) (s.swapPage lpn e) :=
  State.pushMeta_silent (Silent.refl _) ..

/-! ### Events -/

theorem State.fire_silent {z s : State} (h : Silent z s) (p : Nat) (l : LinkId) (vec : Nat) : Silent z (s.fire p l vec) :=
  ite_of (P := Silent _) h (ite_of (P := Silent _) h.same h.same)

theorem State.fireEvent_silent {z s : State} (h : Silent z s) (p : Nat) : Silent z (s.fireEvent p) :=
  ite_of (P := Silent _) (State.fire_silent (State.fire_silent h ..) ..) (State.fire_silent h ..)

theorem State.cxlLog_silent {z s : State} (h : Silent z s) (e : Evt) : Silent z (s.cxlLog e) := by
  refine foldl_of (P := Silent _) _ h fun t p g => ite_of (P := Silent _) ?_ g
  split
  · exact State.fireEvent_silent g.same p
  · exact g

theorem State.notify_silent {z s : State} (h : Silent z s) (e : Evt) : Silent z (s.notify e) := ite_of (P := Silent _) h h.same

/-- The record of an event as raiseWith makes it. -/
def State.evtOf (s : State) (sev code port unit aux page detail : Nat) : Evt :=
  { seq := s.ev.next, code := code, sev := sev + 4 * b2n s.ev.injected + 8 * b2n s.ev.full, port := port,
    time := (s.now - s.run.setAt) / 1000, unit := unit, aux := aux, page := page, detail := detail }

/-- The state in which an event has been recorded, or found no room, before it is told to anybody. -/
def State.noteEvt (s : State) (e : Evt) : State :=
  if s.ev.full then { s with ev := { s.ev with overflow := true } }.bump 0x1300 8
  else { s with ev := { s.ev with ring := s.ev.ring ++ [e], next := (s.ev.next + 1) % 0x100000000 } }

/-- Telling an event changes nothing of what its record stands beside. -/
theorem State.raiseWith_silent (s : State) (sev : Nat) (must : Bool) (code port unit aux page detail : Nat) :
    Silent (s.noteEvt (s.evtOf sev code port unit aux page detail)) (s.raiseWith sev must code port unit aux page detail) := by
  have h := State.cxlLog_silent (Silent.refl (s.noteEvt (s.evtOf sev code port unit aux page detail)))
    (s.evtOf sev code port unit aux page detail)
  exact ite_of (P := Silent _) (State.notify_silent h _) h

theorem State.noteEvt_reports (s : State) (e : Evt) : Reports s (s.noteEvt e) := by
  refine ite_of (P := Reports _) (State.bump_silent (Silent.refl s).same 0x1300 8 (.inl (by decide))).toReports ?_
  exact ⟨⟨rfl, rfl, rfl, List.prefix_append _ _, fun _ _ _ => rfl⟩, rfl, rfl, rfl, rfl⟩

theorem State.noteEvt_length (s : State) (e : Evt) : (s.noteEvt e).ev.ring.length ≤ s.ev.ring.length + 1 := by
  unfold State.noteEvt
  split
  · exact Nat.le_succ _
  · simp

theorem State.raiseWith_reports {z s : State} (h : Reports z s) (sev : Nat) (must : Bool)
    (code port unit aux page detail : Nat) : Reports z (s.raiseWith sev must code port unit aux page detail) :=
  (h.trans (s.noteEvt_reports _)).trans (s.raiseWith_silent ..).toReports

theorem State.raise_reports {z s : State} (h : Reports z s) (code unit aux detail : Nat) :
    Reports z (s.raise code unit aux detail) := State.raiseWith_reports h ..

theorem State.raisePage_reports {z s : State} (h : Reports z s) (code unit aux lpn detail : Nat) :
    Reports z (s.raisePage code unit aux lpn detail) := State.raiseWith_reports h ..

theorem State.raiseWith_length (s : State) (sev : Nat) (must : Bool) (code port unit aux page detail : Nat) :
    (s.raiseWith sev must code port unit aux page detail).ev.ring.length ≤ s.ev.ring.length + 1 := by
  rw [(s.raiseWith_silent ..).still]
  exact s.noteEvt_length _

/-- A ring with room takes the record of the event. -/
theorem State.raiseWith_noted {s : State} (h : s.ev.full = false) (sev : Nat) (must : Bool)
    (code port unit aux page detail : Nat) :
    ∃ e ∈ (s.raiseWith sev must code port unit aux page detail).ev.ring, e.code = code ∧ e.unit = unit ∧ e.page = page := by
  refine ⟨s.evtOf sev code port unit aux page detail, (s.raiseWith_silent ..).ring.subset ?_, rfl, rfl, rfl⟩
  unfold State.noteEvt
  rw [if_neg (by simp [h])]
  exact List.mem_append_right _ (List.mem_singleton_self _)

/-- A ring of good form with fewer than EVT_DEPTH records is not full. -/
theorem not_full {e : EvSt} (h : RingForm e) (hr : e.ring.length < 1024) : e.full = false := by
  obtain ⟨hnext, holdest, -, hcount, -⟩ := h
  simp only [EvSt.full, beq_eq_false_iff_ne]
  omega

/-! ### Completions of host requests -/

/-- An update of fields Reports does not speak of. -/
theorem Reports.same {z s t : State} (h : Reports z s) (sprint : t.tier.sprint = s.tier.sprint := by rfl)
    (dist : t.tier.dist = s.tier.dist := by rfl) (slots : t.tier.slotsUsed = s.tier.slotsUsed := by rfl)
    (map : t.map = s.map := by rfl) (relay : t.relay = s.relay := by rfl) (reqs : t.reqs = s.reqs := by rfl)
    (ring : t.ev.ring = s.ev.ring := by rfl) (dict : t.dict = s.dict := by rfl) : Reports z t :=
  h.trans ((Silent.refl s).same sprint dist slots map relay reqs ring dict).toReports

theorem State.setNum_reports {z s : State} (h : Reports z s) (i j v : Nat) (hk : okey i j < 0x131004 ∨ 0x131100 ≤ okey i j) :
    Reports z (s.setNum i j v) := h.trans (State.setNum_silent (Silent.refl s) i j v hk).toReports

theorem State.bump_reports {z s : State} (h : Reports z s) (i j : Nat) (hk : okey i j < 0x131004 ∨ 0x131100 ≤ okey i j) :
    Reports z (s.bump i j) := State.setNum_reports h _ _ _ hk

theorem State.resteps_reports {z s : State} (h : Reports z s) (b : Nat) : Reports z (s.resteps b) := ite_of (P := Reports _) h.same h

theorem State.miss_reports {z s : State} (h : Reports z s) (b p : Nat) (leg : Bool) (v : Nat) : Reports z (s.miss b p leg v) := by
  unfold State.miss
  extract_lets s1 d s2 vec
  have h1 : Reports z s1 := State.bump_reports h _ _ (.inr (by unfold okey; omega))
  have h2 : Reports z s2 := State.raiseWith_reports (Reports.same h1) ..
  exact ite_of (P := Reports _) (ite_of (P := Reports _) h2 (h2.trans (State.fire_silent (Silent.refl s2) ..).toReports)) h1

theorem State.sample_reports {z s : State} (h : Reports z s) (b p : Nat) (leg : Bool) (v : Nat) :
    Reports z (s.sample b p leg v) := by
  unfold State.sample
  extract_lets sh s1 s2 m s3
  have h1 : Reports z s1 := h.same
  have h2 : Reports z s2 := State.bump_reports (State.resteps_reports h1 b) _ _ (.inr (by unfold okey; omega))
  have hm : m < 256 := by dsimp only [m]; split <;> decide
  have h3 : Reports z s3 := State.setNum_reports h2 _ _ _ (.inr (by unfold okey; omega))
  exact ite_of (P := Reports _) (State.miss_reports h3 ..) h3

theorem State.readSample_reports {z s : State} (h : Reports z s) (b p arrival : Nat) :
    Reports z (s.readSample b p arrival) := State.sample_reports h.same ..

theorem State.completeBar2_reports {z s : State} (h : Reports z s) (p : Nat) (l : LinkId) (tag off : Nat) (data : List Byte)
    (ep : Bool) : Reports z (s.completeBar2 p l tag off data ep) :=
  ite_of (P := Reports _) h.same (foldl_of (P := Reports _) _ h fun _ _ g => g.same)

theorem State.finishXfer_reports {z s : State} (h : Reports z s) (x : Xfer) : Reports z (s.finishXfer x) := by
  unfold State.finishXfer
  extract_lets s0 s1
  have h0 : Reports z s0 := h.same
  have h1 : Reports z s1 := State.readSample_reports (State.bump_reports h0 _ _ (.inl (by decide))) ..
  refine ite_of (P := Reports _) h0 (ite_of (P := Reports _) (State.bump_reports h0 _ _ (.inl (by decide))) ?_)
  refine ite_of (P := Reports _) (State.completeBar2_reports h1 ..) (ite_of (P := Reports _) ?_ (State.completeBar2_reports h1 ..))
  exact State.completeBar2_reports (State.bump_reports h1 _ _ (.inl (by decide))) ..

theorem State.xferPiece_reports {z s : State} (h : Reports z s) (xid off : Nat) (data : List Byte) (poison : Bool) :
    Reports z (s.xferPiece xid off data poison) := by
  unfold State.xferPiece
  split
  · exact h
  · exact ite_of (P := Reports _) (State.finishXfer_reports h _) h.same

/-- The end of a write takes its request out of the device and reports it. -/
theorem State.writeDone_reports (s : State) (r : Req) : Reports (s.dropReq r.id) (s.writeDone r) := by
  have h := Reports.refl (s.dropReq r.id)
  unfold State.writeDone
  dsimp only
  split
  · exact h.same
  · exact h
  · exact State.xferPiece_reports h ..
  · exact ite_of (P := Reports _) h (State.bump_reports h 0x1310 2 (.inl (by decide))).same

/-! ### Item queues -/

/-- What the item queues of the relay engines leave alone: the maps, the tiers, the requests, the events and all other work of the
engines. -/
structure Queues (z s : State) : Prop where
  map : s.map = z.map
  tier : s.tier = z.tier
  reqs : s.reqs = z.reqs
  ev : s.ev = z.ev
  relay : s.relay = { z.relay with items := s.relay.items }

theorem Queues.refl (s : State) : Queues s s := ⟨rfl, rfl, rfl, rfl, rfl⟩

theorem Queues.trans {z s t : State} (h : Queues z s) (g : Queues s t) : Queues z t :=
  ⟨g.map.trans h.map, g.tier.trans h.tier, g.reqs.trans h.reqs, g.ev.trans h.ev, by rw [g.relay, h.relay]⟩

theorem State.modItem_queues {z s : State} (h : Queues z s) (id : Nat) (f : Item → Item) : Queues z (s.modItem id f) :=
  h.trans ⟨rfl, rfl, rfl, rfl, rfl⟩

theorem State.itemHeld_queues {z s : State} (h : Queues z s) (it : Item) : Queues z (s.itemHeld it) := by
  refine ite_of (P := Queues _) h (State.modItem_queues (s := s.bump (0x7040 + it.bib) 8) ?_ it.id _)
  exact h.trans ⟨rfl, rfl, rfl, rfl, rfl⟩

theorem State.fewest_open {s : State} {es : List Nat} {x : Nat} (h : s.fewest es = some x) : s.relayOpen x = true := by
  have key : ∀ (l : List Nat) (b : Option Nat), (∀ e ∈ l, s.relayOpen e = true) →
      (∀ y, b = some y → s.relayOpen y = true) → ∀ y, l.foldl (fun b e => match b with
        | none => some e
        | some x => some (if s.itemsOn e < s.itemsOn x then e else x)) b = some y → s.relayOpen y = true := by
    intro l
    induction l with
    | nil => exact fun _ _ hb => hb
    | cons e r ih =>
      intro b hl hb
      obtain ⟨he, hr⟩ := List.forall_mem_cons.1 hl
      refine ih _ hr fun y hy => ?_
      cases b with
      | none => exact Option.some.inj hy ▸ he
      | some w =>
        obtain rfl := Option.some.inj hy
        split
        · exact he
        · exact hb w rfl
  exact key _ none (fun e he => (List.mem_filter.1 he).2) (fun _ hy => nomatch hy) x h

/-- An item goes to an engine in service that no lap has drained (R70). -/
theorem State.engineFor_open {s : State} {q : Option Nat} {x : Nat} (h : s.engineFor q = some x) : s.relayOpen x = true := by
  cases q with
  | none => exact State.fewest_open h
  | some q =>
    obtain ⟨y, -, hy⟩ := List.exists_of_findSome?_eq_some h
    exact State.fewest_open hy

/-- An item that waits stays, takes an entry of an engine that is open, or is counted as held. -/
theorem State.placeItem_cases (s : State) (it : Item) :
    s.placeItem it = s ∨ (∃ e, s.relayOpen e = true ∧ s.placeItem it = s.modItem it.id fun i => { i with engine := some e }) ∨
      s.placeItem it = s.itemHeld it := by
  unfold State.placeItem
  split
  · exact .inl rfl
  · split
    · exact .inl rfl
    · rename_i e he
      split
      · exact .inr (.inl ⟨e, State.engineFor_open he, rfl⟩)
      · split
        · exact .inr (.inr rfl)
        · exact .inl rfl

theorem State.placeItem_queues {z s : State} (h : Queues z s) (it : Item) : Queues z (s.placeItem it) := by
  rcases s.placeItem_cases it with e | ⟨x, -, e⟩ | e <;> rw [e]
  · exact h
  · exact State.modItem_queues h ..
  · exact State.itemHeld_queues h it

theorem State.placeItems_queues {z s : State} (h : Queues z s) : Queues z s.placeItems :=
  foldl_of (P := Queues _) _ h fun _ _ g => State.placeItem_queues g _

theorem State.addItem_queues {z s : State} (h : Queues z s) (k : ItemKind) (lpn blk bib : Nat) (port req chan : Option Nat) :
    Queues z (s.addItem k lpn blk bib port req chan) := by
  unfold State.addItem State.pushItem
  refine State.placeItem_queues (h.trans ?_) _
  exact ⟨rfl, rfl, rfl, rfl, rfl⟩

/-- What names an item: it keeps that while it waits for its engine. -/
def Item.tag (i : Item) : ItemKind × Nat × Option Nat := (i.kind, i.lpn, i.req)

theorem State.modItem_tags (s : State) (id : Nat) {f : Item → Item} (h : ∀ i, (f i).tag = i.tag) :
    (s.modItem id f).relay.items.map Item.tag = s.relay.items.map Item.tag := map_updFirst Item.tag h _

theorem State.placeItem_tags (s : State) (it : Item) : (s.placeItem it).relay.items.map Item.tag = s.relay.items.map Item.tag := by
  rcases s.placeItem_cases it with e | ⟨x, -, e⟩ | e <;> rw [e]
  · exact s.modItem_tags _ fun _ => rfl
  · unfold State.itemHeld
    split
    · rfl
    · exact (s.bump _ _).modItem_tags _ fun _ => rfl

/-- A raised item stands behind those there were. -/
theorem State.addItem_tags (s : State) (k : ItemKind) (lpn blk bib : Nat) (port req chan : Option Nat) :
    (s.addItem k lpn blk bib port req chan).relay.items.map Item.tag = s.relay.items.map Item.tag ++ [(k, lpn, req)] := by
  unfold State.addItem State.pushItem
  rw [State.placeItem_tags]
  exact List.map_append

/-! ### An engine that takes no items -/

/-- No item holds an entry of the engine. -/
def State.offEngine (s : State) (e : Nat) : Prop := ∀ i ∈ s.relay.items, i.engine ≠ some e

theorem State.modItem_offEngine {s : State} {e : Nat} (h : s.offEngine e) (id : Nat) {f : Item → Item}
    (hf : ∀ i, i.engine ≠ some e → (f i).engine ≠ some e) : (s.modItem id f).offEngine e := by
  intro i hi
  rcases mem_updFirst hi with hi | ⟨j, hj, -, rfl⟩
  · exact h i hi
  · exact hf j (h j hj)

theorem State.placeItem_offEngine {s : State} {e : Nat} (h : s.offEngine e) (hc : s.relayOpen e = false) (it : Item) :
    (s.placeItem it).offEngine e := by
  rcases s.placeItem_cases it with g | ⟨x, hopen, g⟩ | g <;> rw [g]
  · exact h
  · refine State.modItem_offEngine h _ fun _ _ he => ?_
    rw [Option.some.inj he, hc] at hopen
    exact Bool.noConfusion hopen
  · unfold State.itemHeld
    split
    · exact h
    · exact State.modItem_offEngine (s := s.bump _ _) h _ fun _ hi => hi

theorem Queues.relayOpen {z s : State} (h : Queues z s) (e : Nat) : s.relayOpen e = z.relayOpen e := by
  unfold State.relayOpen State.relayEng
  rw [h.relay]

theorem State.placeItems_offEngine {s : State} {e : Nat} (h : s.offEngine e) (hc : s.relayOpen e = false) :
    s.placeItems.offEngine e := by
  have key := foldl_of (P := fun t : State => t.offEngine e ∧ t.relayOpen e = false) s.relay.items ⟨h, hc⟩ fun t it ⟨ht, htc⟩ =>
    ⟨State.placeItem_offEngine ht htc it, ((State.placeItem_queues (Queues.refl t) it).relayOpen e).trans htc⟩
  exact key.1

/-! ### Space and moves -/

theorem Quiet.reports {z s t : State} (h : Quiet z s) (g : Reports s t) : Quiet z t := h.trans g.toQuiet

/-- The levels of withholding, and an event: nothing else follows the free fraction (R36). -/
theorem State.regulate_reports (s : State) :
    ∃ b d, Reports { s with map := { s.map with holdBulk := b, holdStd := d } } s.regulate := by
  unfold State.regulate
  extract_lets m u bulk std s1
  split
  · exact ⟨_, _, Reports.refl _⟩
  · exact ⟨bulk, std, ite_of (P := Reports _) (State.raise_reports (Reports.refl s1) ..) (Reports.refl s1)⟩

theorem State.regulate_quiet {z s : State} (h : Quiet z s) : Quiet z s.regulate := by
  obtain ⟨b, d, g⟩ := s.regulate_reports
  exact Quiet.reports h.same g

@[simp] theorem State.regulate_relay (s : State) : s.regulate.relay = s.relay := by
  obtain ⟨b, d, g⟩ := s.regulate_reports
  exact g.relay

@[simp] theorem State.regulate_pages (s : State) : s.regulate.map.pages = s.map.pages := by
  obtain ⟨b, d, g⟩ := s.regulate_reports
  rw [g.map]

theorem State.regulate_length (s : State) : s.regulate.ev.ring.length ≤ s.ev.ring.length + 1 := by
  unfold State.regulate
  extract_lets m u bulk std s1
  split
  · exact Nat.le_succ _
  · split
    · exact s1.raiseWith_length ..
    · exact Nat.le_succ _

/-- What giving space back leaves alone: the pages, the work of the engines, and the stored bytes; it reports at most n events. -/
structure Frees (n : Nat) (z s : State) : Prop extends Quiet z s where
  pages : s.map.pages = z.map.pages
  relay : s.relay = z.relay
  length : s.ev.ring.length ≤ z.ev.ring.length + n

theorem Frees.refl (s : State) : Frees 0 s s := ⟨Quiet.refl s, rfl, rfl, Nat.le_refl _⟩

theorem Frees.mono {m n : Nat} {z s : State} (h : Frees m z s) (hmn : m ≤ n) : Frees n z s :=
  ⟨h.toQuiet, h.pages, h.relay, Nat.le_trans h.length (Nat.add_le_add_left hmn _)⟩

theorem Frees.trans {m n : Nat} {z s t : State} (h : Frees m z s) (g : Frees n s t) : Frees (m + n) z t :=
  ⟨h.toQuiet.trans g.toQuiet, g.pages.trans h.pages, g.relay.trans h.relay, by have := h.length; have := g.length; omega⟩

theorem State.freeSlot_frees (s : State) (stack slot : Nat) : Frees 0 s (s.freeSlot stack slot) :=
  ⟨(Quiet.refl s).same, rfl, rfl, Nat.le_refl _⟩

theorem State.freeRun_frees (s : State) (r : Run) (pooled : Bool) : Frees 1 s (s.freeRun r pooled) :=
  ⟨State.regulate_quiet (Quiet.refl s).same, State.regulate_pages _, State.regulate_relay _, State.regulate_length _⟩

theorem State.release_frees (s : State) (lpn : Nat) (sp : Space) : Frees 1 s (s.release lpn sp) := by
  unfold State.release
  split
  · cases sp with
    | slot st sl => exact (s.freeSlot_frees st sl).mono (Nat.zero_le _)
    | run r pooled => exact s.freeRun_frees r pooled
  · exact ⟨(Quiet.refl s).same, rfl, rfl, Nat.le_succ _⟩

theorem State.releaseCopies_frees (s : State) (lpn : Nat) (e : Page) : Frees 2 s (s.releaseCopies lpn e) := by
  unfold State.releaseCopies
  extract_lets s1
  have h1 : Frees 1 s s1 := by
    dsimp only [s1]
    split
    · exact s.release_frees ..
    · exact (Frees.refl s).mono (Nat.zero_le _)
  clear_value s1
  have h2 : Frees 2 s s1 := h1.mono (Nat.le_succ _)
  split
  · split
    · exact h1.trans (s1.release_frees ..)
    · exact h2
  · exact h2

theorem State.freeDest_frees (s : State) (m : Move) : Frees 1 s (s.freeDest m) := by
  unfold State.freeDest
  extract_lets s1
  have h1 : Frees 0 s s1 := by
    dsimp only [s1]
    split
    · exact s.freeSlot_frees ..
    · exact Frees.refl s
  clear_value s1
  split
  · exact h1.trans (s1.freeRun_frees ..)
  · exact h1.mono (Nat.zero_le _)

/-- A change of an entry of the map. -/
theorem State.swapPage_quiet {z s : State} (h : Quiet z s) (lpn : Nat) (e : Page) : Quiet z (s.swapPage lpn e) :=
  Quiet.reports h.same (s.swapPage_silent lpn e).toReports

theorem State.swapPage_relay (s : State) (lpn : Nat) (e : Page) : (s.swapPage lpn e).relay = s.relay :=
  (s.swapPage_silent lpn e).relay

theorem State.swapPage_ring (s : State) (lpn : Nat) (e : Page) : (s.swapPage lpn e).ev.ring = s.ev.ring :=
  (s.swapPage_silent lpn e).still

theorem State.page_of_pages {s t : State} (h : t.map.pages = s.map.pages) (lpn : Nat) : t.page lpn = s.page lpn := by
  unfold State.page
  rw [h]

/-- A swapped entry reads as it was written, the others as before. -/
theorem State.page_swapPage {s : State} (h : Form s) (lpn : Nat) (e : Page) : (s.swapPage lpn e).page lpn = e := by
  rw [State.page_of_pages (congrArg (·.pages) (s.swapPage_silent lpn e).map), s.page_setPage h]

theorem State.page_swapPage_other (s : State) {lpn k : Nat} (e : Page) (h : k ≠ lpn) : (s.swapPage lpn e).page k = s.page k := by
  rw [State.page_of_pages (congrArg (·.pages) (s.swapPage_silent lpn e).map), s.page_setPage_other _ _ _ h]

/-- A page returns to its prior state by a change of its entry, or stands there already. -/
theorem State.returnPrior_cases (s : State) (m : Move) :
    s.returnPrior m = s ∨ ∃ e, s.returnPrior m = s.swapPage m.item.lpn e := by
  unfold State.returnPrior State.swapIf
  dsimp only
  split
  · exact .inr ⟨_, rfl⟩
  · split
    · exact .inl rfl
    · exact .inr ⟨_, rfl⟩

theorem State.returnPrior_quiet {z s : State} (h : Quiet z s) (m : Move) : Quiet z (s.returnPrior m) := by
  rcases s.returnPrior_cases m with g | ⟨e, g⟩ <;> rw [g]
  · exact h
  · exact State.swapPage_quiet h ..

theorem State.returnPrior_relay (s : State) (m : Move) : (s.returnPrior m).relay = s.relay := by
  rcases s.returnPrior_cases m with g | ⟨e, g⟩ <;> rw [g]
  exact s.swapPage_relay ..

theorem State.returnPrior_ring (s : State) (m : Move) : (s.returnPrior m).ev.ring = s.ev.ring := by
  rcases s.returnPrior_cases m with g | ⟨e, g⟩ <;> rw [g]
  exact s.swapPage_ring ..

end Sys2Proof.Machine
end

section
/-! PROOFS. CXL requests of a port (R17, R171, R173): settles O10. -/

namespace Sys2Proof.Machine

open Sys2Proof.Claims

/-! ### CXL requests of a port -/

/-- What an update of a unit leaves of every unit, it leaves of the unit at any place. -/
theorem nth_updAt_of_eq {α β : Type} (g : α → β) (l : List α) (d : α) (i j : Nat) {f : α → α} (h : ∀ x, g (f x) = g x) :
    g (nth (updAt l i f) d j) = g (nth l d j) := by
  by_cases hj : j = i
  · subst hj
    by_cases hl : j < l.length
    · rw [nth_updAt_same _ _ _ _ hl, h]
    · simp [nth, Nat.le_of_not_lt hl]
  · rw [nth_updAt_other _ _ _ _ _ hj]

/-- Leaving L1 changes the state of a link alone: what a port holds beside it stays. -/
theorem State.wakeLink_port_eq {β : Type} (g : Port → β) (s : State) (p q : Nat) (l : LinkId)
    (h : ∀ x : Port, g (x.modLink l fun k => { k with state := 2 }) = g x) : g ((s.wakeLink p l).port q) = g (s.port q) := by
  unfold State.wakeLink
  split
  · exact nth_updAt_of_eq g _ _ _ _ h
  · rfl

@[simp] theorem State.wakeLink_frozen (s : State) (p q : Nat) (l : LinkId) :
    ((s.wakeLink p l).port q).frozen = (s.port q).frozen :=
  s.wakeLink_port_eq (·.frozen) p q l fun _ => by cases l <;> rfl

@[simp] theorem State.wakeLink_windowLog2 (s : State) (p q : Nat) (l : LinkId) :
    (s.wakeLink p l).windowLog2 q = s.windowLog2 q := by
  have hm := s.wakeLink_port_eq (·.pcieOnly) p q l fun _ => by cases l <;> rfl
  have hb := s.wakeLink_port_eq (·.bar2Log2) p q l fun _ => by cases l <;> rfl
  have hn : ∀ i j, (s.wakeLink p l).num i j = s.num i j := fun i j => by unfold State.wakeLink; split <;> rfl
  simp only [State.windowLog2, hm, hb, hn]

@[simp] theorem State.wakeLink_dpaOf (s : State) (p q : Nat) (l k : LinkId) (hpa : Nat) :
    (s.wakeLink p l).dpaOf q k hpa = s.dpaOf q k hpa := by
  have hh := s.wakeLink_port_eq (fun x => (x.link k).hdm) p q l fun _ => by cases l <;> cases k <;> rfl
  simp only [State.dpaOf, State.link, hh]

/-- A request enters as the claims write it, with the clock and the next id that leaving L1 does not touch. -/
theorem State.hostReq_wakeLink (s : State) (w : Bool) (p : Nat) (l : LinkId) (src : ReqSrc) (a : PartAddr) (n : Nat)
    (data : List (Option Byte)) (st : Stage) (relaxed poison : Bool) :
    (s.wakeLink p l).hostReq w p l src a n data st relaxed poison =
      arrived (s.wakeLink p l) (portReq s w p l src a n data st relaxed poison) := by
  unfold State.wakeLink
  split <;> rfl

section
variable {s : State} {p hpa d : Nat} {l : LinkId}

theorem State.memIn_of_cxlOpen (h : cxlOpen s p l) : s.memIn p l = true := by
  obtain ⟨hopen, hmode, hfrozen⟩ := h
  simp [State.memIn, State.muted, hopen, hmode, hfrozen]

theorem State.onesOnly_wakeLink (h : cxlOpen s p l) : (s.wakeLink p l).onesOnly p = false := by
  obtain ⟨-, -, hfrozen⟩ := h
  simp [State.onesOnly, hfrozen]

theorem State.memAddr_wakeLink (h : s.dpaOf p l hpa = some d) :
    (s.wakeLink p l).memAddr p l hpa = some (decodePart (s.windowLog2 p) (d / 64 * 64)) := by
  simp [State.memAddr, h]

/-- A read that a committed decoder maps joins the requests. -/
theorem State.memRead_enters (ho : cxlOpen s p l) (hd : s.dpaOf p l hpa = some d) (tag : Nat) :
    s.memRead p l tag hpa = (arrived (s.wakeLink p l) (portReq s false p l (.cxl tag)
      (decodePart (s.windowLog2 p) (d / 64 * 64)) 64 [] .atPort false false)).onward := by
  simp [State.memRead, State.memIn_of_cxlOpen ho, State.memAddr_wakeLink hd, State.onesOnly_wakeLink ho, State.hostReq_wakeLink]

/-- A write that a committed decoder maps joins the requests with the bytes it carries. -/
theorem State.memWrite_enters (ho : cxlOpen s p l) (hd : s.dpaOf p l hpa = some d) (tag : Nat) (data : List (Option Byte))
    (poison : Bool) :
    s.memWrite p l tag hpa data poison = (arrived (s.wakeLink p l) (portReq s true p l (.cxl tag)
      (decodePart (s.windowLog2 p) (d / 64 * 64)) 64 data .atPort false poison)).onward := by
  simp [State.memWrite, State.memIn_of_cxlOpen ho, State.memAddr_wakeLink hd, State.onesOnly_wakeLink ho, State.hostReq_wakeLink]

end

/-- A slice of the whole string is the string. -/
theorem slice_whole (bs : List Byte) : slice bs 0 bs.length = bs := by simp [slice]

/-- Settles O10: each command's request is the one of memRead or memWrite, whose gates and decoding leaving L1 leaves alone. -/
theorem cxlRequestsEnterWithTheirGranule : Obligations.CxlRequestsEnterWithTheirGranule := by
  unfold Obligations.CxlRequestsEnterWithTheirGranule
  intro s p tag hpa d l data mask poison ho hd a u
  refine ⟨?_, fun hlen => ?_, fun _ => ?_⟩
  · exact congrArg Host.Outcome.next (State.memRead_enters ho hd tag)
  · have hdata : slice data 0 64 = data := hlen ▸ slice_whole data
    have hw := State.memWrite_enters ho hd tag ((slice data 0 64).map some) poison
    rw [hdata] at hw
    show execMemWr p l tag hpa data poison s = _
    unfold execMemWr
    rw [hdata, hw]
  · exact congrArg Host.Outcome.next (State.memWrite_enters ho hd tag (maskBytes data mask) poison)

end Sys2Proof.Machine
end

section
/-! PROOFS. Failures of a relay engine, promotions without a slot, builds and rebuilds (R65, R77, R81, R88, R278, R279). -/

namespace Sys2Proof.Machine

open Sys2Proof.Claims

/-! ### A relay engine fails (R77, R278, R279) -/

theorem State.raisePage_relay (s : State) (code unit aux lpn detail : Nat) : (s.raisePage code unit aux lpn detail).relay = s.relay :=
  (State.raisePage_reports (Reports.refl s) code unit aux lpn detail).relay

/-- The state in which a move has been unwound from its journal, before the move leaves. -/
def State.unwound (s : State) (m : Move) (why : Nat) : State :=
  (((s.raisePage 0x0410 (unitRelay why) (kindCode m.item.kind) m.item.lpn 0).bump 0x5010 4).returnPrior m).freeDest m

theorem State.unwound_quiet {z s : State} (h : Quiet z s) (m : Move) (why : Nat) : Quiet z (s.unwound m why) :=
  (State.returnPrior_quiet (Quiet.reports h (State.bump_reports (State.raisePage_reports (Reports.refl s) ..) _ _
    (.inr (by decide)))) m).trans (State.freeDest_frees _ m).toQuiet

theorem State.unwound_relay (s : State) (m : Move) (why : Nat) : (s.unwound m why).relay = s.relay := by
  unfold State.unwound
  rw [(State.freeDest_frees _ m).relay, State.returnPrior_relay]
  exact s.raisePage_relay ..

theorem State.restartMove_quiet {z s : State} (h : Quiet z s) (m : Move) (why : Nat) : Quiet z (s.restartMove m why) :=
  (State.unwound_quiet h m why).same

/-- A restarted move leaves the moves in progress. -/
theorem State.restartMove_moves (s : State) (m : Move) (why : Nat) :
    (s.restartMove m why).relay.moves = s.relay.moves.filter fun x => x.id != m.id := by
  rw [← s.unwound_relay m why]
  rfl

/-- Its item waits for an engine again. -/
theorem State.restartMove_items (s : State) (m : Move) (why : Nat) :
    (s.restartMove m why).relay.items =
      updFirst (fun i => i.id == m.item.id) (fun i => { i with running := false, engine := none }) s.relay.items := by
  rw [← s.unwound_relay m why]
  rfl

theorem State.restartMoves_quiet {z s : State} (h : Quiet z s) (ms : List Move) (e : Nat) :
    Quiet z (ms.foldl (fun s m => s.restartMove m e) s) := foldl_of (P := Quiet _) _ h fun _ _ g => State.restartMove_quiet g _ e

/-- The moves left are those of none of the restarted ones' ids. -/
theorem State.mem_restartMoves {ms : List Move} {s : State} {e : Nat} {x : Move}
    (h : x ∈ (ms.foldl (fun s m => s.restartMove m e) s).relay.moves) : x ∈ s.relay.moves ∧ ∀ m ∈ ms, x.id ≠ m.id := by
  induction ms generalizing s with
  | nil => exact ⟨h, fun _ hm => nomatch hm⟩
  | cons m r ih =>
    obtain ⟨hx, hr⟩ := ih h
    rw [State.restartMove_moves, List.mem_filter] at hx
    obtain ⟨hx, hm⟩ := hx
    exact ⟨hx, List.forall_mem_cons.2 ⟨by simpa using hm, hr⟩⟩

/-- Flows dropped item by item. -/
theorem State.dropFlowsOf_quiet {z s : State} (h : Quiet z s) (l : List Item) :
    Quiet z (l.foldl (fun s i => s.dropFlows i.id) s) := foldl_of (P := Quiet _) _ h fun _ _ g => g.same

theorem State.dropFlowsOf_relay (s : State) (l : List Item) : (l.foldl (fun s i => s.dropFlows i.id) s).relay = s.relay := by
  induction l generalizing s with
  | nil => rfl
  | cons i r ih => exact ih _

theorem State.unloadEngine_quiet {z s : State} (h : Quiet z s) (e : Nat) : Quiet z (s.unloadEngine e) :=
  (State.dropFlowsOf_quiet (State.restartMoves_quiet h _ e) _).same

theorem State.unloadEngine_moves {s : State} {e : Nat} : ∀ m ∈ (s.unloadEngine e).relay.moves, m.item.engine ≠ some e := by
  intro m hm he
  unfold State.unloadEngine at hm
  dsimp only at hm
  rw [State.dropFlowsOf_relay] at hm
  obtain ⟨hs, hids⟩ := State.mem_restartMoves hm
  exact hids m (List.mem_filter.2 ⟨hs, by simp [he]⟩) rfl

theorem State.unloadEngine_offEngine (s : State) (e : Nat) : (s.unloadEngine e).offEngine e := by
  intro i hi
  obtain ⟨j, -, rfl⟩ := List.mem_map.1 hi
  split
  · exact fun h => nomatch h
  · assumption

theorem State.dropInject_silent {z s : State} (h : Silent z s) (unit : Nat) : Silent z (s.dropInject unit) :=
  ite_of (P := Silent _) h.same h

theorem State.dropInject_ev (s : State) (unit : Nat) : (s.dropInject unit).ev = s.ev := by
  unfold State.dropInject
  split <;> rfl

theorem State.relayEng_modRelay (s : State) (e : Nat) (f : Engine → Engine) (h : e < s.relay.engines.length) :
    (s.modRelay e f).relayEng e = f (s.relayEng e) := nth_updAt_same _ _ _ _ h

theorem State.relayEng_modRelay_other (s : State) {e k : Nat} (f : Engine → Engine) (h : k ≠ e) :
    (s.modRelay e f).relayEng k = s.relayEng k := nth_updAt_other _ _ _ _ _ h

/-- The fence of an engine with its event, before its work is unloaded. -/
def State.fencedNoted (s : State) (e : Nat) : State :=
  ((s.dropInject (unitRelay e)).modRelay e fun g => g.fence s.now).raise 0x0411 (unitRelay e) 0
    (b2n (((s.dropInject (unitRelay e)).modRelay e fun g => g.fence s.now).relayEng e).permanent)

theorem State.fencedNoted_reports (s : State) (e : Nat) :
    Reports ((s.dropInject (unitRelay e)).modRelay e fun g => g.fence s.now) (s.fencedNoted e) :=
  State.raise_reports (Reports.refl _) ..

/-- Fencing keeps the bytes of both tiers. -/
theorem State.fencedNoted_tier (s : State) (e : Nat) :
    (s.fencedNoted e).tier.sprint = s.tier.sprint ∧ (s.fencedNoted e).tier.dist = s.tier.dist := by
  have hd := State.dropInject_silent (Silent.refl s) (unitRelay e)
  exact ⟨(s.fencedNoted_reports e).sprint.trans hd.sprint, (s.fencedNoted_reports e).dist.trans hd.dist⟩

theorem State.fencedNoted_noted {s : State} {e : Nat} (hf : Form s) (hr : s.ev.ring.length < 1024) :
    noted (s.fencedNoted e) 0x0411 (unitRelay e) := by
  have hfull : ((s.dropInject (unitRelay e)).modRelay e fun g => g.fence s.now).ev.full = false :=
    (congrArg EvSt.full (s.dropInject_ev _)).trans (not_full hf.ring hr)
  obtain ⟨x, hx, hcode, hunit, -⟩ := State.raiseWith_noted hfull (severityOf 0x0411) false 0x0411 0xFF (unitRelay e) 0 0xFFFFFFFF
    (b2n (((s.dropInject (unitRelay e)).modRelay e fun g => g.fence s.now).relayEng e).permanent)
  exact ⟨x, hx, hcode, hunit⟩

/-- Of the engines only the failed one changes: it is fenced. -/
theorem State.fencedNoted_engines {s : State} {e : Nat} (hf : Form s) (he : e < 16) :
    ((s.fencedNoted e).relayEng e).fenced = true ∧ ∀ k, k ≠ e → (s.fencedNoted e).relayEng k = s.relayEng k := by
  have hd : (s.dropInject (unitRelay e)).relay = s.relay := (State.dropInject_silent (Silent.refl s) _).relay
  have heng : ∀ k, (s.fencedNoted e).relayEng k = ((s.dropInject (unitRelay e)).modRelay e fun g => g.fence s.now).relayEng k :=
    fun k => by unfold State.relayEng; rw [(s.fencedNoted_reports e).relay]
  refine ⟨?_, fun k hk => ?_⟩
  · rw [heng, State.relayEng_modRelay _ _ _ (by rw [hd, hf.relays]; exact he)]
    rfl
  · rw [heng, State.relayEng_modRelay_other _ _ hk]
    unfold State.relayEng
    rw [hd]

/-- A fenced engine: the fence, its event, and no work on it any more. -/
theorem State.fenceRelay_spec {s : State} {e : Nat} (hf : Form s) (he : e < 16) (hr : s.ev.ring.length < 1024) :
    ((s.fenceRelay e).relayEng e).fenced = true ∧ noted (s.fenceRelay e) 0x0411 (unitRelay e) ∧
      (∀ i ∈ (s.fenceRelay e).relay.items, i.engine ≠ some e) ∧
      (∀ m ∈ (s.fenceRelay e).relay.moves, m.item.engine ≠ some e) ∧
      (∀ k, k ≠ e → (s.fenceRelay e).relayEng k = s.relayEng k) ∧ (s.fenceRelay e).tier.sprint = s.tier.sprint ∧
      (s.fenceRelay e).tier.dist = s.tier.dist := by
  have hu : Quiet (s.fencedNoted e) ((s.fencedNoted e).unloadEngine e) := State.unloadEngine_quiet (Quiet.refl _) e
  have hp : Queues ((s.fencedNoted e).unloadEngine e) (s.fenceRelay e) := State.placeItems_queues (Queues.refl _)
  have heng : ∀ k, (s.fenceRelay e).relayEng k = (s.fencedNoted e).relayEng k := fun k => by
    unfold State.relayEng
    rw [hp.relay, ← hu.engines]
  obtain ⟨hfenced, hothers⟩ := State.fencedNoted_engines hf he
  obtain ⟨x, hx, hcode, hunit⟩ := State.fencedNoted_noted (e := e) hf hr
  obtain ⟨hsprint, hdist⟩ := s.fencedNoted_tier e
  have hclosed : ((s.fencedNoted e).unloadEngine e).relayOpen e = false := by
    unfold State.relayOpen State.relayEng
    rw [hu.engines, show (nth (s.fencedNoted e).relay.engines Engine.init e).fenced = true from hfenced]
    rfl
  refine ⟨?_, ⟨x, ?_, hcode, hunit⟩, ?_, ?_, fun k hk => ?_, ?_, ?_⟩
  · rw [heng]
    exact hfenced
  · rw [hp.ev]
    exact hu.ring.subset hx
  · exact State.placeItems_offEngine (State.unloadEngine_offEngine _ e) hclosed
  · rw [hp.relay]
    exact State.unloadEngine_moves
  · rw [heng, hothers k hk]
  · rw [hp.tier, hu.sprint, hsprint]
  · rw [hp.tier, hu.dist, hdist]

/-! ### The last engine in service (R279) -/

/-- An item stands in its engine's queue again, after one failure more. -/
def State.waitsAgain (s : State) (it : Item) : Prop :=
  ∃ x ∈ s.relay.items, x.id = it.id ∧ x.running = false ∧ x.engine = it.engine ∧ x.fails = it.fails + 1

/-- The state in which the move of a failed item, if it is one, has been unwound. -/
def State.unwindOf (s : State) (it : Item) : State :=
  match s.moveOn it.lpn with
  | some m => if m.item.id = it.id then s.restartMove m (it.engine.getD 0) else s
  | none => s

theorem State.unwindOf_quiet {z s : State} (h : Quiet z s) (it : Item) : Quiet z (s.unwindOf it) := by
  unfold State.unwindOf
  split
  · exact ite_of (P := Quiet _) (State.restartMove_quiet h ..) h
  · exact h

/-- Of the items it can change that item alone. -/
theorem State.unwindOf_items (s : State) (it : Item) :
    (s.unwindOf it).relay.items = s.relay.items ∨
      (s.unwindOf it).relay.items =
        updFirst (fun i => i.id == it.id) (fun i => { i with running := false, engine := none }) s.relay.items := by
  unfold State.unwindOf
  split
  · split
    · rename_i m _ hid
      exact .inr (hid ▸ s.restartMove_items m _)
    · exact .inl rfl
  · exact .inl rfl

/-- Before its third failure in a row an item runs again on its engine. -/
theorem State.rerun_of_lt {s : State} {it : Item} (h : it.fails < 2) :
    s.rerun it = ((s.unwindOf it).dropFlows it.id).modItem it.id
      fun i => { i with running := false, engine := it.engine, fails := it.fails + 1 } := by
  unfold State.rerun
  exact if_pos (by omega)

theorem State.rerun_quiet {z s : State} (h : Quiet z s) {it : Item} (hf : it.fails < 2) : Quiet z (s.rerun it) := by
  rw [State.rerun_of_lt hf]
  exact (State.unwindOf_quiet h it).same

theorem State.reruns_quiet {z : State} {its : List Item} {s : State} (h : Quiet z s) (hf : ∀ i ∈ its, i.fails < 2) :
    Quiet z (its.foldl State.rerun s) := by
  induction its generalizing s with
  | nil => exact h
  | cons a r ih =>
    obtain ⟨ha, hr⟩ := List.forall_mem_cons.1 hf
    exact ih (State.rerun_quiet h ha) hr

/-- The items keep their ids. -/
theorem State.unwindOf_ids (s : State) (it : Item) : (s.unwindOf it).relay.items.map (·.id) = s.relay.items.map (·.id) := by
  rcases s.unwindOf_items it with h | h <;> rw [h]
  refine map_updFirst Item.id ?_ _
  exact fun _ => rfl

theorem State.rerun_ids (s : State) {it : Item} (hf : it.fails < 2) :
    (s.rerun it).relay.items.map (·.id) = s.relay.items.map (·.id) := by
  rw [State.rerun_of_lt hf, ← s.unwindOf_ids it]
  refine map_updFirst Item.id ?_ _
  exact fun _ => rfl

theorem State.rerun_waitsAgain {s : State} {it : Item} (hf : it.fails < 2) (h : it.id ∈ s.relay.items.map (·.id)) :
    (s.rerun it).waitsAgain it := by
  rw [← s.unwindOf_ids it] at h
  obtain ⟨x, hx, hid⟩ := List.mem_map.1 h
  obtain ⟨y, -, hy, hm⟩ := exists_mem_updFirst (p := fun i : Item => i.id == it.id)
    (fun i => { i with running := false, engine := it.engine, fails := it.fails + 1 }) ⟨x, hx, by simp [hid]⟩
  rw [State.rerun_of_lt hf]
  exact ⟨_, hm, by simpa using hy, rfl, rfl, rfl⟩

/-- What waits again keeps waiting while another item is put back. -/
theorem State.rerun_waitsAgain_other {s : State} {it x : Item} (hf : it.fails < 2) (hne : x.id ≠ it.id) (h : s.waitsAgain x) :
    (s.rerun it).waitsAgain x := by
  obtain ⟨y, hy, hid, hrest⟩ := h
  have hp : (y.id == it.id) = false := by simpa [hid] using hne
  have hu : y ∈ (s.unwindOf it).relay.items := by
    rcases s.unwindOf_items it with h | h <;> rw [h]
    · exact hy
    · exact mem_updFirst_of_not hy hp
  rw [State.rerun_of_lt hf]
  exact ⟨y, mem_updFirst_of_not hu hp, hid, hrest⟩

theorem State.reruns_waitsAgain_other {its : List Item} {s : State} {x : Item} (hf : ∀ i ∈ its, i.fails < 2)
    (hne : ∀ i ∈ its, x.id ≠ i.id) (h : s.waitsAgain x) : (its.foldl State.rerun s).waitsAgain x := by
  induction its generalizing s with
  | nil => exact h
  | cons a r ih =>
    obtain ⟨ha, hr⟩ := List.forall_mem_cons.1 hf
    obtain ⟨hxa, hxr⟩ := List.forall_mem_cons.1 hne
    exact ih hr hxr (State.rerun_waitsAgain_other ha hxa h)

/-- Every failed item waits again once all have been put back. -/
theorem State.reruns_waitAgain {its : List Item} {s : State} (hf : ∀ i ∈ its, i.fails < 2)
    (hids : ∀ i ∈ its, i.id ∈ s.relay.items.map (·.id)) (hnd : (its.map (·.id)).Nodup) :
    ∀ i ∈ its, (its.foldl State.rerun s).waitsAgain i := by
  induction its generalizing s with
  | nil => exact fun _ h => nomatch h
  | cons a r ih =>
    obtain ⟨ha, hr⟩ := List.forall_mem_cons.1 hf
    obtain ⟨hia, hir⟩ := List.forall_mem_cons.1 hids
    obtain ⟨hna, hnr⟩ := List.nodup_cons.1 hnd
    refine List.forall_mem_cons.2 ⟨?_, ih hr (fun i hi => s.rerun_ids ha ▸ hir i hi) hnr⟩
    have hne : ∀ i ∈ r, a.id ≠ i.id := fun i hi h => hna (List.mem_map.2 ⟨i, hi, h.symm⟩)
    exact State.reruns_waitsAgain_other (s := s.rerun a) hr hne (State.rerun_waitsAgain ha hia)

/-- A failure of the last engine: the event, and its items wait to run again on it. -/
theorem State.lastFailure_spec {s : State} {e : Nat} (hf : Form s) (hr : s.ev.ring.length < 1024)
    (hnd : (s.relay.items.map (·.id)).Nodup)
    (hfails : ∀ i ∈ s.relay.items, i.engine = some e → i.running = true → i.fails < 2) :
    (s.lastFailure e).relay.engines = s.relay.engines ∧ noted (s.lastFailure e) 0x0413 (unitRelay e) ∧
      (∀ i ∈ s.relay.items, i.engine = some e → i.running = true → (s.lastFailure e).waitsAgain i) ∧
      (s.lastFailure e).tier.sprint = s.tier.sprint ∧ (s.lastFailure e).tier.dist = s.tier.dist := by
  have hmem : ∀ i, i ∈ (s.relay.items.filter fun i => i.engine == some e && i.running) ↔
      i ∈ s.relay.items ∧ i.engine = some e ∧ i.running = true := fun i => by simp
  have hlt : ∀ i ∈ (s.relay.items.filter fun i => i.engine == some e && i.running), i.fails < 2 := fun i hi =>
    let ⟨h, he, hrun⟩ := (hmem i).1 hi
    hfails i h he hrun
  have hd : Silent s (s.dropInject (unitRelay e)) := State.dropInject_silent (Silent.refl s) _
  have hu : Reports s ((s.dropInject (unitRelay e)).raise 0x0413 (unitRelay e) 0 0) := State.raise_reports hd.toReports ..
  have hfull : (s.dropInject (unitRelay e)).ev.full = false :=
    (congrArg EvSt.full (s.dropInject_ev _)).trans (not_full hf.ring hr)
  obtain ⟨x, hx, hcode, hunit, -⟩ := State.raiseWith_noted hfull (severityOf 0x0413) false 0x0413 0xFF (unitRelay e) 0
    0xFFFFFFFF 0
  have hq : Quiet ((s.dropInject (unitRelay e)).raise 0x0413 (unitRelay e) 0 0) (s.lastFailure e) :=
    State.reruns_quiet (Quiet.refl _) hlt
  refine ⟨hq.engines.trans (congrArg (·.engines) hu.relay), ⟨x, hq.ring.subset hx, hcode, hunit⟩, fun i hi he hrun => ?_,
    hq.sprint.trans hu.sprint, hq.dist.trans hu.dist⟩
  refine State.reruns_waitAgain hlt (fun j hj => ?_) (hnd.sublist (List.filter_sublist.map _)) i ((hmem i).2 ⟨hi, he, hrun⟩)
  rw [hu.relay]
  exact List.mem_map_of_mem ((hmem j).1 hj).1

/-! ### A promotion that finds no slot (R81) -/

theorem State.req_mem {s : State} {id : Nat} {r : Req} (h : s.req id = some r) : r ∈ s.reqs ∧ r.id = id :=
  ⟨List.mem_of_find?_eq_some h, by simpa using List.find?_some h⟩

/-- A request reads as changed, another as before. -/
theorem State.req_modReq (s : State) (id : Nat) {f : Req → Req} (h : ∀ x, (f x).id = x.id) :
    (s.modReq id f).req id = (s.req id).map f := find?_updFirst_same (fun x => by rw [h]) _

theorem State.req_modReq_other (s : State) {id k : Nat} {f : Req → Req} (h : ∀ x, (f x).id = x.id) (hk : k ≠ id) :
    (s.modReq id f).req k = s.req k := by
  refine find?_updFirst_other (fun x => by rw [h]) (fun x hx => ?_) _
  simp only [beq_iff_eq] at hx
  simpa [hx] using hk.symm

/-- The request as a bypass read leaves it. -/
def Req.bypassing (e : Page) (r : Req) : Req := { r with stage := .item, entry := e }

theorem State.bypassRead_queues (s : State) (r : Req) (e : Page) :
    Queues (s.modReq r.id (Req.bypassing e)) (s.bypassRead r e) := State.addItem_queues (Queues.refl _) ..

theorem State.bypassRead_tags (s : State) (r : Req) (e : Page) :
    (s.bypassRead r e).relay.items.map Item.tag = s.relay.items.map Item.tag ++ [(.bypass, r.lpn, some r.id)] :=
  (s.modReq r.id (Req.bypassing e)).addItem_tags ..

theorem State.bypassRead_req (s : State) (r : Req) (e : Page) (k : Nat) :
    (s.bypassRead r e).req k = (s.modReq r.id (Req.bypassing e)).req k := by
  unfold State.req
  rw [(s.bypassRead_queues r e).reqs]

/-- Requests go over to bypass reads, oldest first. -/
def State.bypassEach (s : State) (rs : List Req) : State := rs.foldl (fun s x => s.bypassRead x (s.view x.lpn)) s

theorem State.bypassEach_map_tier (rs : List Req) (s : State) :
    (s.bypassEach rs).map = s.map ∧ (s.bypassEach rs).tier = s.tier := by
  induction rs generalizing s with
  | nil => exact ⟨rfl, rfl⟩
  | cons x r ih =>
    obtain ⟨hm, ht⟩ := ih (s.bypassRead x (s.view x.lpn))
    exact ⟨hm.trans (s.bypassRead_queues ..).map, ht.trans (s.bypassRead_queues ..).tier⟩

theorem State.bypassEach_tags (rs : List Req) (s : State) :
    (s.bypassEach rs).relay.items.map Item.tag =
      s.relay.items.map Item.tag ++ rs.map fun r => (.bypass, r.lpn, some r.id) := by
  induction rs generalizing s with
  | nil => exact (List.append_nil _).symm
  | cons x r ih => exact (ih _).trans (by rw [State.bypassRead_tags, List.append_assoc]; rfl)

/-- A request that an engine works on stays so. -/
theorem State.bypassRead_stage {s : State} {id : Nat} (r : Req) (e : Page)
    (h : ∃ x, s.req id = some x ∧ (r.id = id ∨ x.stage = .item)) :
    ∃ x, (s.bypassRead r e).req id = some x ∧ x.stage = .item := by
  obtain ⟨x, hx, hs⟩ := h
  rw [State.bypassRead_req]
  by_cases hid : r.id = id
  · subst hid
    exact ⟨Req.bypassing e x, by rw [s.req_modReq (f := Req.bypassing e) _ fun _ => rfl, hx]; rfl, rfl⟩
  · exact ⟨x, by rw [s.req_modReq_other (f := Req.bypassing e) (fun _ => rfl) fun h => hid h.symm, hx], hs.resolve_left hid⟩

theorem State.bypassEach_stage {rs : List Req} {s : State} {id : Nat}
    (h : ∃ x, s.req id = some x ∧ ((∃ r ∈ rs, r.id = id) ∨ x.stage = .item)) :
    ∃ x, (s.bypassEach rs).req id = some x ∧ x.stage = .item := by
  induction rs generalizing s with
  | nil => simpa [State.bypassEach] using h
  | cons a r ih =>
    obtain ⟨x, hx, hs⟩ := h
    refine ih ?_
    by_cases ha : a.id = id ∨ x.stage = .item
    · obtain ⟨y, hy, hitem⟩ := State.bypassRead_stage a (s.view a.lpn) ⟨x, hx, ha⟩
      exact ⟨y, hy, .inr hitem⟩
    · obtain ⟨hne, hni⟩ := not_or.1 ha
      obtain ⟨b, hb, hid⟩ := hs.resolve_right hni
      refine ⟨x, ?_, .inl ⟨b, (List.mem_cons.1 hb).resolve_left fun e => hne (e ▸ hid), hid⟩⟩
      rw [State.bypassRead_req, s.req_modReq_other (f := Req.bypassing _) (fun _ => rfl) (Ne.symm hne), hx]

/-- The reads that wait for a page's promotion. -/
def State.promotionReads (s : State) (lpn : Nat) : List Req :=
  s.reqs.filter fun x => x.lpn == lpn && x.stage == .promotion && !x.write

theorem State.mem_promotionReads {s : State} {r : Req} (hr : r ∈ s.reqs) (hw : r.write = false) (hs : r.stage = .promotion) :
    r ∈ s.promotionReads r.lpn := List.mem_filter.2 ⟨hr, by simp [hw, hs]⟩

/-- Without a move the promotion leaves the queues and the reads that wait for it become bypass reads. -/
theorem State.slotWait_of_noMove {s : State} {id : Nat} {r : Req} (hr : s.req id = some r) (hw : r.write = false)
    (hs : r.stage = .promotion) (hm : s.moveOn r.lpn = none) :
    s.slotWait id = (s.dropPromotion r.lpn).bypassEach (s.promotionReads r.lpn) := by
  simp [State.slotWait, hr, hw, hs, hm]
  rfl

section
variable {s : State} {id : Nat} {r : Req} (hr : s.req id = some r) (hw : r.write = false) (hs : r.stage = .promotion)
  (hm : s.moveOn r.lpn = none)
include hr hw hs hm

/-- The items left are those that are not the page's promotion, and one bypass read for each read that waited. -/
theorem State.mem_slotWait_items {i : Item} (hi : i ∈ (s.slotWait id).relay.items) :
    i.kind = .bypass ∨ ∃ j ∈ s.relay.items, (j.kind ≠ .promote ∨ j.lpn ≠ r.lpn) ∧ j.tag = i.tag := by
  rw [State.slotWait_of_noMove hr hw hs hm] at hi
  have ht := List.mem_map_of_mem (f := Item.tag) hi
  rw [State.bypassEach_tags] at ht
  rcases List.mem_append.1 ht with ht | ht
  · obtain ⟨j, hj, htag⟩ := List.mem_map.1 ht
    obtain ⟨hj, hkeep⟩ := List.mem_filter.1 hj
    exact .inr ⟨j, hj, by simpa using hkeep, htag⟩
  · obtain ⟨x, -, htag⟩ := List.mem_map.1 ht
    exact .inl (congrArg (·.1) htag).symm

/-- The promotion is gone. -/
theorem State.slotWait_noPromotion : ∀ i ∈ (s.slotWait id).relay.items, ¬ (i.kind = .promote ∧ i.lpn = r.lpn) := by
  rintro i hi ⟨hk, hl⟩
  rcases State.mem_slotWait_items hr hw hs hm hi with hb | ⟨j, -, hkeep, htag⟩
  · rw [hk] at hb
    cases hb
  · obtain ⟨hjk, hjl, -⟩ : j.kind = i.kind ∧ j.lpn = i.lpn ∧ j.req = i.req := by simpa [Item.tag] using htag
    rw [hjk, hjl] at hkeep
    exact hkeep.elim (· hk) (· hl)

/-- The read has its bypass item. -/
theorem State.slotWait_bypass : ∃ i ∈ (s.slotWait id).relay.items, i.kind = .bypass ∧ i.req = some id := by
  have ht : (ItemKind.bypass, r.lpn, some r.id) ∈ (s.slotWait id).relay.items.map Item.tag := by
    rw [State.slotWait_of_noMove hr hw hs hm, State.bypassEach_tags]
    exact List.mem_append_right _ (List.mem_map.2 ⟨r, State.mem_promotionReads (State.req_mem hr).1 hw hs, rfl⟩)
  obtain ⟨i, hi, htag⟩ := List.mem_map.1 ht
  obtain ⟨hk, -, hreq⟩ : i.kind = .bypass ∧ i.lpn = r.lpn ∧ i.req = some r.id := by simpa [Item.tag] using htag
  exact ⟨i, hi, hk, (State.req_mem hr).2 ▸ hreq⟩

/-- An engine works on the read. -/
theorem State.slotWait_stage : ∃ x, (s.slotWait id).req id = some x ∧ x.stage = .item := by
  rw [State.slotWait_of_noMove hr hw hs hm]
  exact State.bypassEach_stage ⟨r, hr, .inl ⟨r, State.mem_promotionReads (State.req_mem hr).1 hw hs, (State.req_mem hr).2⟩⟩

theorem State.slotWait_map_tier : (s.slotWait id).map = s.map ∧ (s.slotWait id).tier = s.tier := by
  rw [State.slotWait_of_noMove hr hw hs hm]
  exact State.bypassEach_map_tier _ (s.dropPromotion r.lpn)

end

/-! ### A rebuild is asked for (R88) -/

theorem State.requestBuild_spec (s : State) (n bib : Nat) (port : Option Nat) :
    (∃ b ∈ (s.requestBuild n bib port).relay.builds, b.region = n) ∧ (s.requestBuild n bib port).map = s.map ∧
      (s.requestBuild n bib port).tier = s.tier := by
  unfold State.requestBuild
  split
  · rename_i h
    obtain ⟨b, hb, hn⟩ := List.any_eq_true.1 h
    exact ⟨⟨b, hb, by simpa using hn⟩, rfl, rfl⟩
  · exact ⟨⟨_, List.mem_append_right _ (List.mem_singleton_self _), rfl⟩, rfl, rfl⟩

/-! ### The end of a build (R56, R57, R65) -/

/-- What follows a build leaves alone: the maps, the stored bytes, the events reported, the live versions and the builds asked for. -/
structure KeepsVersions (z s : State) : Prop where
  map : s.map = z.map
  sprint : s.tier.sprint = z.tier.sprint
  dist : s.tier.dist = z.tier.dist
  ring : z.ev.ring <+: s.ev.ring
  cbs : s.relay.cbs = z.relay.cbs
  builds : s.relay.builds = z.relay.builds

theorem KeepsVersions.refl (s : State) : KeepsVersions s s := ⟨rfl, rfl, rfl, List.prefix_refl _, rfl, rfl⟩

theorem KeepsVersions.trans {z s t : State} (h : KeepsVersions z s) (g : KeepsVersions s t) : KeepsVersions z t :=
  ⟨g.map.trans h.map, g.sprint.trans h.sprint, g.dist.trans h.dist, h.ring.trans g.ring, g.cbs.trans h.cbs,
    g.builds.trans h.builds⟩

/-- An update of other fields. -/
theorem KeepsVersions.same {z s t : State} (h : KeepsVersions z s) (map : t.map = s.map := by rfl)
    (sprint : t.tier.sprint = s.tier.sprint := by rfl) (dist : t.tier.dist = s.tier.dist := by rfl)
    (ring : t.ev.ring = s.ev.ring := by rfl) (cbs : t.relay.cbs = s.relay.cbs := by rfl)
    (builds : t.relay.builds = s.relay.builds := by rfl) : KeepsVersions z t :=
  h.trans ⟨map, sprint, dist, ring ▸ List.prefix_refl _, cbs, builds⟩

theorem KeepsVersions.reports {z s t : State} (h : KeepsVersions z s) (g : Reports s t) : KeepsVersions z t :=
  h.trans ⟨g.map, g.sprint, g.dist, g.ring, by rw [g.relay], by rw [g.relay]⟩

theorem KeepsVersions.queues {z s t : State} (h : KeepsVersions z s) (g : Queues s t) : KeepsVersions z t :=
  h.same g.map (by rw [g.tier]) (by rw [g.tier]) (by rw [g.ev]) (by rw [g.relay]) (by rw [g.relay])

theorem State.reseal_keepsVersions {z s : State} (h : KeepsVersions z s) (n : Nat) : KeepsVersions z (s.reseal n) :=
  foldl_of (P := KeepsVersions _) _ h fun t _ g => g.queues (State.addItem_queues (Queues.refl t) ..)

theorem State.dropCopyItems_keepsVersions {z s : State} (h : KeepsVersions z s) (id : Nat) :
    KeepsVersions z (s.dropCopyItems id) := foldl_of (P := KeepsVersions _) _ h fun _ _ g => g.same

theorem State.finish_keepsVersions {z s : State} (h : KeepsVersions z s) (j : Job) (status result : Nat)
    (writes : List HostWrite) : KeepsVersions z (s.finish j status result writes) := by
  have hd : KeepsVersions z (s.dropCopyItems j.id) := State.dropCopyItems_keepsVersions h _
  unfold State.finish
  dsimp only
  split
  · split <;> exact hd.same
  · exact hd.same

theorem State.buildJobs_keepsVersions {z s : State} (h : KeepsVersions z s) (n slot : Nat) :
    KeepsVersions z (s.buildJobs n slot) := foldl_of (P := KeepsVersions _) _ h fun _ _ g => State.finish_keepsVersions g ..

/-- A version takes its slot of a region, before it is reported and written to the tiers (R61, R64). -/
def State.versionListed (s : State) (n slot : Nat) (set : List Byte) : State :=
  { s with relay := { s.relay with
    cbs := (s.relay.cbs.filter fun x => x.1 != n * 16 + slot) ++
      [(n * 16 + slot, ⟨mget s.relay.cbNums 0 n + 1, set, false⟩)]
    cbNums := mput s.relay.cbNums 0 n (mget s.relay.cbNums 0 n + 1)
    escapes := mput s.relay.escapes [] n [] } }

/-- The version is the one its slot holds. -/
theorem State.versionListed_cb (s : State) (n slot : Nat) (set : List Byte) :
    (s.versionListed n slot set).cb n slot = some ⟨mget s.relay.cbNums 0 n + 1, set, false⟩ := by
  unfold State.cb State.versionListed
  have hnone : (s.relay.cbs.filter fun x => x.1 != n * 16 + slot).find? (fun x => x.1 == n * 16 + slot) = none := by
    simp [List.find?_eq_none]
  simp [List.find?_append, hnone]

/-- A new version is reported and written to the tiers; what follows from it leaves it as it was listed. -/
theorem State.newVersion_keepsVersions (s : State) (n slot : Nat) (set : List Byte) :
    KeepsVersions ((((s.versionListed n slot set).bump (0x5100 + n) 0x0C).raise 0x0320 (unitRegion n) 0 slot))
      (s.newVersion n slot set) := by
  have h := (KeepsVersions.refl (((s.versionListed n slot set).bump (0x5100 + n) 0x0C).raise 0x0320 (unitRegion n) 0 slot)).reports
    (State.pushMeta_silent (Silent.refl _) (setStripe n slot) (2 ^ 28 + (n * 16 + slot) * 256) 256 (.codebook n slot 0)
      (.codebook n slot 1)).toReports
  unfold State.newVersion
  dsimp only
  split
  · exact State.reseal_keepsVersions h n
  · exact h

theorem State.newVersion_listed (s : State) (n slot : Nat) (set : List Byte) :
    KeepsVersions (s.versionListed n slot set) (s.newVersion n slot set) :=
  ((KeepsVersions.refl (s.versionListed n slot set)).same.reports (State.raise_reports (Reports.refl _) ..)).trans
    (s.newVersion_keepsVersions n slot set)

theorem State.newVersion_noted {s : State} (hf : Form s) (hr : s.ev.ring.length < 1024) (n slot : Nat) (set : List Byte) :
    noted (s.newVersion n slot set) 0x0320 (unitRegion n) := by
  obtain ⟨x, hx, hcode, hunit, -⟩ := State.raiseWith_noted (s := (s.versionListed n slot set).bump (0x5100 + n) 0x0C)
    (not_full hf.ring hr) (severityOf 0x0320) false 0x0320 0xFF (unitRegion n) 0 0xFFFFFFFF slot
  exact ⟨x, (s.newVersion_keepsVersions n slot set).ring.subset hx, hcode, hunit⟩

/-- A copy without a failing block passes. -/
theorem State.checkCopy_of_sound {s : State} {lpn : Nat} {dist : Bool} (h : s.copyFault lpn (s.view lpn) dist [] = none) (f : Nat) :
    s.checkCopy lpn dist f [] = s := by
  cases f with
  | zero => rfl
  | succ f => simp [State.checkCopy, h]

/-- The pages of a record that all pass are taken as they are. -/
theorem State.checkBuild_of_sound {s : State} {n : Nat}
    (h : ∀ l ∈ s.sealRecord n, s.copyFault l (s.view l) (!(s.view l).inSprint) [] = none) : s.checkBuild n = s := by
  unfold State.checkBuild
  generalize s.sealRecord n = ls at h
  induction ls with
  | nil => rfl
  | cons l r ih =>
    obtain ⟨hl, hr⟩ := List.forall_mem_cons.1 h
    rw [List.foldl_cons, State.checkCopy_of_sound hl]
    exact ih hr

/-- A build of a region has ended: its request is gone, and its pages and jobs go on. -/
def State.buildClosed (s : State) (id n slot : Nat) : State :=
  let s1 := s.dropItem id
  (({ s1 with relay := { s1.relay with builds := s1.relay.builds.filter fun b => b.region != n } }).reseal n).buildJobs n slot

theorem State.buildClosed_keeps (s : State) (id n slot : Nat) :
    KeepsVersions { s with relay := { s.relay with builds := s.relay.builds.filter fun b => b.region != n } }
      (s.buildClosed id n slot) :=
  State.buildJobs_keepsVersions (State.reseal_keepsVersions (KeepsVersions.refl _).same n) n slot

/-- A build whose blocks all pass makes its version and closes. -/
theorem State.buildEnds_of_sound {s : State} {it : Item} (hb : s.busy it.id = false)
    (h : ∀ l ∈ s.sealRecord it.blk, s.copyFault l (s.view l) (!(s.view l).inSprint) [] = none) :
    s.buildEnds it = (s.newVersion it.blk ((mget s.relay.cbNums 0 it.blk + 1) % 16)
      (buildSet (s.num (0x2100 + it.blk) 3) (s.num (0x5100 + it.blk) 1) (s.num (0x5100 + it.blk) 2) (s.num (0x5100 + it.blk) 3)
        ((s.sealRecord it.blk).map s.buildPage))).buildClosed it.id it.blk ((mget s.relay.cbNums 0 it.blk + 1) % 16) := by
  unfold State.buildEnds
  rw [if_neg (by simp [hb])]
  dsimp only
  rw [State.checkBuild_of_sound h]
  rfl

end Sys2Proof.Machine
end

section
/-! PROOFS. Ends of builds, held writes and slot credits (R12, R37, R65): settles O53. -/

namespace Sys2Proof.Machine

open Sys2Proof.Claims

/-- BUILD_DONE of blocks that pass their checks: the next version is live and reported, and its request has ended. -/
theorem buildDone_spec {s : State} {id : Nat} {it : Item} (hf : Form s) (hi : s.item id = some it) (hk : it.kind = .build)
    (hrun : it.running = true) (hr : ringRoom s) (hb : s.busy id = false)
    (hsound : ∀ l ∈ s.sealRecord it.blk, s.copyFault l (s.view l) (!(s.view l).inSprint) [] = none) :
    let n := it.blk
    let k := mget s.relay.cbNums 0 n + 1
    let set := buildSet (s.num (0x2100 + n) 3) (s.num (0x5100 + n) 1) (s.num (0x5100 + n) 2) (s.num (0x5100 + n) 3)
      ((s.sealRecord n).map s.buildPage)
    ∃ t : State, exec (.buildDone id) s = .next t.onward ∧ t.cb n (k % 16) = some ⟨k, set, false⟩ ∧
      noted t 0x0320 (unitRegion n) ∧ (∀ b ∈ t.relay.builds, b.region ≠ n) ∧ t.map = s.map ∧
      t.tier.sprint = s.tier.sprint ∧ t.tier.dist = s.tier.dist := by
  intro n k set
  have hid : it.id = id := by simpa using List.find?_some hi
  have hexec : exec (.buildDone id) s = .next (s.buildEnds it).onward := by
    show execBuildDone id s = _
    simp [execBuildDone, State.runningItem, hi, hk, hrun]
  have hends := State.buildEnds_of_sound (hid ▸ hb) hsound
  have hlisted := s.newVersion_listed n (k % 16) set
  have hclosed := (s.newVersion n (k % 16) set).buildClosed_keeps it.id n (k % 16)
  obtain ⟨x, hx, hcode, hunit⟩ := State.newVersion_noted hf (Nat.lt_trans hr (by decide)) n (k % 16) set
  refine ⟨s.buildEnds it, hexec, ?_⟩
  rw [hends]
  refine ⟨?_, ⟨x, hclosed.ring.subset hx, hcode, hunit⟩, fun b hb => ?_, hclosed.map.trans hlisted.map,
    hclosed.sprint.trans hlisted.sprint, hclosed.dist.trans hlisted.dist⟩
  · have hcb := s.versionListed_cb n (k % 16) set
    unfold State.cb at hcb ⊢
    rw [← hlisted.cbs] at hcb
    rwa [hclosed.cbs]
  · rw [hclosed.builds] at hb
    simpa using (List.mem_filter.1 hb).2

/-! ### A write that no space backs in time (R37) -/

/-- What the loss of a page and its undone move leave: the counts of 0x1310, and a ring of at most n records more. -/
structure Loses (n : Nat) (z s : State) : Prop where
  counts : ∀ j, 3 < j → j < 256 → s.num 0x1310 j = z.num 0x1310 j
  length : s.ev.ring.length ≤ z.ev.ring.length + n

theorem Loses.frees {m n : Nat} {z s t : State} (h : Loses m z s) (g : Frees n s t) : Loses (m + n) z t :=
  ⟨fun j hj hj' => (g.counts j hj hj').trans (h.counts j hj hj'), by have := h.length; have := g.length; omega⟩

theorem Loses.quiet {m : Nat} {z s t : State} (h : Loses m z s) (g : Quiet s t) (hr : t.ev.ring = s.ev.ring) : Loses m z t :=
  ⟨fun j hj hj' => (g.counts j hj hj').trans (h.counts j hj hj'), hr ▸ h.length⟩

theorem Loses.refl (s : State) : Loses 0 s s := ⟨fun _ _ _ => rfl, Nat.le_refl _⟩

theorem State.undoMove_loses (s : State) (m : Move) : Loses 1 s (s.undoMove m) := by
  have h1 : Loses 0 s (s.returnPrior m) :=
    (Loses.refl s).quiet (State.returnPrior_quiet (Quiet.refl s) m) (s.returnPrior_ring m)
  have h2 : Loses 1 s ((s.returnPrior m).freeDest m) := h1.frees (State.freeDest_frees _ m)
  exact ⟨h2.counts, h2.length⟩

/-- A poisoned page, its copies given back. -/
theorem State.poisonPage_frees (s : State) (lpn : Nat) :
    ∃ t, Frees 2 (s.swapPage lpn { Page.zero with st := 8, owner := (s.page lpn).owner, home := (s.page lpn).home }) t ∧
      s.poisonPage lpn = t.forgetSeal lpn :=
  ⟨_, State.releaseCopies_frees _ lpn (s.page lpn), rfl⟩

theorem State.poisonPage_loses (s : State) (lpn : Nat) : Loses 2 s (s.poisonPage lpn) := by
  obtain ⟨t, ht, he⟩ := s.poisonPage_frees lpn
  have h := ((Loses.refl s).quiet (State.swapPage_quiet (Quiet.refl s) ..) (s.swapPage_ring lpn _)).frees ht
  rw [he]
  exact ⟨h.counts, h.length⟩

theorem State.poisonPage_page {s : State} (hf : Form s) (lpn : Nat) : ((s.poisonPage lpn).page lpn).st = 8 := by
  obtain ⟨t, ht, he⟩ := s.poisonPage_frees lpn
  rw [he, State.page_of_pages (t := t.forgetSeal lpn) (s := t) rfl, State.page_of_pages ht.pages, State.page_swapPage hf]

/-- The page of the move, if it has one, is as the move found it. -/
def State.moveUndone (s : State) (lpn : Nat) : State :=
  match s.moveOn lpn with
  | some m => s.undoMove m
  | none => s

theorem State.moveUndone_loses (s : State) (lpn : Nat) : Loses 1 s (s.moveUndone lpn) := by
  unfold State.moveUndone
  split
  · exact s.undoMove_loses _
  · exact ⟨fun _ _ _ => rfl, Nat.le_succ _⟩

theorem State.moveUndone_form {s : State} (hf : Form s) (lpn : Nat) : Form (s.moveUndone lpn) := by
  unfold State.moveUndone
  split
  · exact (State.undoMove_keeps (Keeps.refl s) _).form hf
  · exact hf

theorem State.losePage_loses (s : State) (lpn : Nat) : Loses 3 s (s.losePage lpn) := by
  have h1 := s.moveUndone_loses lpn
  have h2 := (s.moveUndone lpn).poisonPage_loses lpn
  exact ⟨fun j hj hj' => (h2.counts j hj hj').trans (h1.counts j hj hj'), by
    have := h1.length
    have : (s.losePage lpn).ev.ring.length ≤ _ := h2.length
    omega⟩

/-- A write never backed has its page POISONED, reported and counted. -/
theorem State.unbacked_spec {s : State} (hf : Form s) (hr : ringRoom s) (lpn : Nat) :
    ((s.unbacked lpn).page lpn).st = 8 ∧ (∃ e ∈ (s.unbacked lpn).ev.ring, e.code = 0x0207 ∧ e.page = lpn) ∧
      (s.unbacked lpn).num 0x1310 0x0A = min (s.num 0x1310 0x0A + 1) 0xFFFFFFFFFFFFFFFF := by
  have hl := s.losePage_loses lpn
  have hlf : Form (s.losePage lpn) := (State.losePage_keeps (Keeps.refl s) lpn).form hf
  have hlen := hl.length
  have hroom : (s.losePage lpn).ev.ring.length < 1024 := by
    unfold ringRoom at hr
    omega
  have hrep : Reports (s.losePage lpn) ((s.losePage lpn).raisePage 0x0207 0 0 lpn 0) := State.raisePage_reports (Reports.refl _) ..
  have hrf : Form ((s.losePage lpn).raisePage 0x0207 0 0 lpn 0) :=
    (State.raisePage_keeps (Keeps.refl (s.losePage lpn)) ..).form hlf
  obtain ⟨x, hx, hcode, -, hpage⟩ := State.raiseWith_noted (not_full hlf.ring hroom) (severityOf 0x0207) false 0x0207
    0xFF 0 0 lpn 0
  refine ⟨?_, ⟨x, hx, hcode, hpage⟩, ?_⟩
  · show (((s.losePage lpn).raisePage 0x0207 0 0 lpn 0).page lpn).st = 8
    rw [State.page_of_pages (congrArg (·.pages) hrep.map)]
    exact State.poisonPage_page (State.moveUndone_form hf lpn) lpn
  · have hnum : ((s.losePage lpn).raisePage 0x0207 0 0 lpn 0).num 0x1310 0x0A = s.num 0x1310 0x0A :=
      (hrep.counts 0x0A (by decide) (by decide)).trans (hl.counts 0x0A (by decide) (by decide))
    rw [← hnum]
    exact State.num_setNum _ hrf ..

/-- BACKING_TIMEOUT of a write held for space, with the low mark undercut. -/
theorem backingTimeout_spec {s : State} {id : Nat} {r : Req} (hf : Form s) (hq : s.req id = some r)
    (hw : s.waitsForSpace r = true) (hc : s.core1Runs = true) (hu : s.unregulated = false)
    (hb : s.below (2 * s.num 0x2000 4) = true) (hr : ringRoom s) :
    ∃ t : State, exec (.backingTimeout id) s = .next t.onward ∧ (t.page r.lpn).st = 8 ∧
      (∃ e ∈ t.ev.ring, e.code = 0x0207 ∧ e.page = r.lpn) ∧ (∀ x ∈ t.reqs, x.id ≠ id) ∧
      t.num 0x1310 0x0A = min (s.num 0x1310 0x0A + 1) 0xFFFFFFFFFFFFFFFF := by
  have hexec : exec (.backingTimeout id) s = .next ((s.unbacked r.lpn).writeDone r).onward := by
    show execBackingTimeout id s = _
    simp [execBackingTimeout, State.backingEnds, hc, hu, hb, hq, hw]
  obtain ⟨hst, ⟨x, hx, hevt⟩, hnum⟩ := State.unbacked_spec hf hr r.lpn
  have hd := (s.unbacked r.lpn).writeDone_reports r
  refine ⟨_, hexec, ?_, ⟨x, hd.ring.subset hx, hevt⟩, fun y hy => ?_, ?_⟩
  · rwa [State.page_of_pages (congrArg (·.pages) hd.map)]
  · rw [hd.reqs, State.dropReq_reqs, List.mem_filter] at hy
    simpa [(State.req_mem hq).2] using hy.2
  · exact (hd.counts 0x0A (by decide) (by decide)).trans hnum

/-! ### A slot credit (R12) -/

/-- What the rest of a backed write leaves alone: the block map, the slots in use, the distance tier, and which moves have space. -/
structure KeepsSpace (z s : State) : Prop where
  pages : s.map.pages = z.map.pages
  slots : s.tier.slotsUsed = z.tier.slotsUsed
  dist : s.tier.dist = z.tier.dist
  space : s.relay.moves.map Move.hasSpace = z.relay.moves.map Move.hasSpace

theorem KeepsSpace.refl (s : State) : KeepsSpace s s := ⟨rfl, rfl, rfl, rfl⟩

theorem KeepsSpace.trans {z s t : State} (h : KeepsSpace z s) (g : KeepsSpace s t) : KeepsSpace z t :=
  ⟨g.pages.trans h.pages, g.slots.trans h.slots, g.dist.trans h.dist, g.space.trans h.space⟩

/-- An update of other fields. -/
theorem KeepsSpace.same {z s t : State} (h : KeepsSpace z s) (pages : t.map.pages = s.map.pages := by rfl)
    (slots : t.tier.slotsUsed = s.tier.slotsUsed := by rfl) (dist : t.tier.dist = s.tier.dist := by rfl)
    (moves : t.relay.moves = s.relay.moves := by rfl) : KeepsSpace z t := h.trans ⟨pages, slots, dist, by rw [moves]⟩

theorem KeepsSpace.reports {z s t : State} (h : KeepsSpace z s) (g : Reports s t) : KeepsSpace z t :=
  h.same (by rw [g.map]) g.slots g.dist (by rw [g.relay])

theorem KeepsSpace.queues {z s t : State} (h : KeepsSpace z s) (g : Queues s t) : KeepsSpace z t :=
  h.same (by rw [g.map]) (by rw [g.tier]) (by rw [g.tier]) (by rw [g.relay])

theorem State.waitQueue_keepsSpace {z s : State} (h : KeepsSpace z s) (r : Req) (u : DramUnit) : KeepsSpace z (s.waitQueue r u) := by
  have hc : KeepsSpace z (s.countHeld r) := ite_of (P := KeepsSpace _) h h.same
  have hs : KeepsSpace z (if s.shareHolds u r.write (some r.bib) then s.countHeld r else s) := ite_of (P := KeepsSpace _) hc h
  exact hs.same

theorem State.writeSprint_keepsSpace {z s : State} (h : KeepsSpace z s) (a : Nat) (bs : List Byte) :
    KeepsSpace z (s.writeSprint a bs) := h.same

/-- The bytes of a write go to the sprint tier alone. -/
theorem State.writeContents_keepsSpace {z s : State} (h : KeepsSpace z s) (r : Req) (e : Page) :
    KeepsSpace z (s.writeContents r e) := by
  unfold State.writeContents
  dsimp only
  split
  · exact ite_of (P := KeepsSpace _) (State.writeSprint_keepsSpace h ..) (State.writeSprint_keepsSpace h ..)
  · have h1 : KeepsSpace z (if e.code r.blk = 0 then s.writeSprint (e.sprintAddr r.blk) (List.replicate 2048 0) else s) :=
      ite_of (P := KeepsSpace _) (State.writeSprint_keepsSpace h ..) h
    exact h1.same

/-- Marking a block gives a move no space and takes none. -/
theorem State.markBlock_keepsSpace {z s : State} (h : KeepsSpace z s) (lpn b : Nat) : KeepsSpace z (s.markBlock lpn b) := by
  unfold State.markBlock
  split
  · refine ite_of (P := KeepsSpace _) (h.trans ⟨rfl, rfl, rfl, ?_⟩) h
    refine map_updFirst Move.hasSpace ?_ _
    exact fun _ => rfl
  · exact h

theorem State.sealIfFull_keepsSpace {z s : State} (h : KeepsSpace z s) (lpn : Nat) (a b : Page) (bib : Nat) (port : Option Nat) :
    KeepsSpace z (s.sealIfFull lpn a b bib port) := ite_of (P := KeepsSpace _) (h.queues (State.addItem_queues (Queues.refl s) ..)) h

theorem State.writeDone_keepsSpace {z s : State} (h : KeepsSpace z s) (r : Req) : KeepsSpace z (s.writeDone r) :=
  (KeepsSpace.same (t := s.dropReq r.id) h).reports (s.writeDone_reports r)

/-- A page is backed by a slot of its home stack; the other pages and the distance tier are as before. -/
structure BackedAt (z : State) (lpn home sl : Nat) (s : State) : Prop where
  st : (s.page lpn).st = 1
  slot : (s.page lpn).slot = sl
  homed : (s.page lpn).home = home
  used : slotKey home sl ∈ s.tier.slotsUsed
  others : ∀ k, k ≠ lpn → s.page k = z.page k
  dist : s.tier.dist = z.tier.dist
  space : s.relay.moves.map Move.hasSpace = z.relay.moves.map Move.hasSpace

theorem BackedAt.keeps {z s t : State} {lpn home sl : Nat} (h : BackedAt z lpn home sl s) (g : KeepsSpace s t) :
    BackedAt z lpn home sl t := by
  have hp := State.page_of_pages g.pages
  refine ⟨?_, ?_, ?_, g.slots ▸ h.used, fun k hk => (hp k).trans (h.others k hk), g.dist.trans h.dist, g.space.trans h.space⟩
  · rw [hp]; exact h.st
  · rw [hp]; exact h.slot
  · rw [hp]; exact h.homed

/-- An entry of state SPRINT_RAW that names a slot in use backs its page. -/
theorem State.swapPage_backed {z s : State} {lpn home sl : Nat} {e : Page} (hf : Form s) (hst : e.st = 1) (hslot : e.slot = sl)
    (hhome : e.home = home) (hused : slotKey home sl ∈ s.tier.slotsUsed) (hothers : ∀ k, k ≠ lpn → s.page k = z.page k)
    (hdist : s.tier.dist = z.tier.dist) (hspace : s.relay.moves.map Move.hasSpace = z.relay.moves.map Move.hasSpace) :
    BackedAt z lpn home sl (s.swapPage lpn e) := by
  have g := s.swapPage_silent lpn e
  have hp := State.page_swapPage hf lpn e
  refine ⟨by rw [hp, hst], by rw [hp, hslot], by rw [hp, hhome], ?_, fun k hk => (s.page_swapPage_other e hk).trans (hothers k hk),
    g.dist.trans hdist, ?_⟩
  · rw [g.slots]
    exact hused
  · rw [g.relay]
    exact hspace

/-- The page stays backed while its entry changes in other fields. -/
theorem BackedAt.swapIf {z s : State} {lpn home sl : Nat} (h : BackedAt z lpn home sl s) (hf : Form s) {e : Page} (hst : e.st = 1)
    (hslot : e.slot = sl) (hhome : e.home = home) : BackedAt z lpn home sl (s.swapIf lpn e) := by
  unfold State.swapIf
  split
  · exact h
  · exact State.swapPage_backed hf hst hslot hhome h.used h.others h.dist h.space

/-- A write to a SPRINT_RAW page leaves its state and place (Table 2.9). -/
theorem State.writtenEntry_raw (s : State) (lpn b : Nat) {e : Page} (h : e.st = 1) :
    (s.writtenEntry lpn b e).st = 1 ∧ (s.writtenEntry lpn b e).slot = e.slot ∧ (s.writtenEntry lpn b e).home = e.home := by
  simp [State.writtenEntry, Page.setCode, h]

/-- The write that took a slot enters its queue or waits for it: its page stays backed. -/
theorem State.sprintWrite_backed {z s : State} {r : Req} {home sl : Nat} (h : BackedAt z r.lpn home sl s) (hf : Form s) (e : Page) :
    BackedAt z r.lpn home sl (s.sprintWrite r e) := by
  unfold State.sprintWrite
  dsimp only
  split
  · exact h.keeps (State.waitQueue_keepsSpace (KeepsSpace.refl s) ..)
  · obtain ⟨hst, hslot, hhome⟩ := s.writtenEntry_raw r.lpn r.blk h.st
    have hw : BackedAt z r.lpn home sl (s.writeContents r e) := h.keeps (State.writeContents_keepsSpace (KeepsSpace.refl s) r e)
    have hwf : Form (s.writeContents r e) := (State.writeContents_keeps (Keeps.refl s) r e).form hf
    have hs := hw.swapIf hwf hst (hslot.trans h.slot) (hhome.trans h.homed)
    refine hs.keeps (State.writeDone_keepsSpace (State.sealIfFull_keepsSpace ?_ ..) r)
    have hm := State.markBlock_keepsSpace (KeepsSpace.refl ((s.writeContents r e).swapIf r.lpn (s.writtenEntry r.lpn r.blk (s.page r.lpn))))
      r.lpn r.blk
    refine foldl_of (P := KeepsSpace _) _ (KeepsSpace.same hm) fun t _ g => ?_
    exact g.reports (State.enqueue_silent (Silent.refl t) ..).toReports

/-- The first write of a page outside a vault takes the slot picked for it. -/
theorem State.backWrite_backed {s : State} {r : Req} (hf : Form s) (hv : s.isVault r.lpn = false) (home sl : Nat) :
    BackedAt s r.lpn home sl (s.backWrite r home sl) := by
  have htf : Form (s.takeSlot home sl) := (State.takeSlot_keeps (Keeps.refl s) ..).form hf
  have hused : slotKey home sl ∈ (s.takeSlot home sl).tier.slotsUsed := List.mem_append_right _ (List.mem_singleton_self _)
  have key : ∀ e : Page, e.st = 1 → e.slot = sl → e.home = home →
      BackedAt s r.lpn home sl (((s.takeSlot home sl).swapPage r.lpn e).writeOrXts r e) := by
    intro e hst hslot hhome
    unfold State.writeOrXts
    rw [if_neg (by rw [hst]; decide)]
    have hb : BackedAt s r.lpn home sl ((s.takeSlot home sl).swapPage r.lpn e) :=
      State.swapPage_backed htf hst hslot hhome hused (fun _ _ => rfl) rfl rfl
    exact State.sprintWrite_backed hb ((State.swapPage_keeps (Keeps.refl _) r.lpn e).form htf) e
  unfold State.backWrite
  rw [hv]
  exact key _ rfl rfl rfl

/-- A page that is not IN_TRANSIT is seen as it stands. -/
theorem State.view_of_st {s : State} {lpn : Nat} (h : (s.page lpn).st ≠ 7) : s.view lpn = s.page lpn := by
  unfold State.view State.seen
  exact if_neg h

/-- A write of its partition's UNWRITTEN page outside a vault, in GO, needs a slot. -/
theorem State.dispatchWrite_newPage {s : State} {r : Req} (hgo : s.inGo = true) (hpause : s.pausing = false)
    (hlpn : r.lpn ≠ noPage) (howner : r.entry.owner = r.port) (hpoison : r.poison = false) (hst : (s.page r.lpn).st = 0)
    (hv : s.isVault r.lpn = false) : s.dispatchWrite r = s.newPageWrite r := by
  have hview : s.view r.lpn = s.page r.lpn := State.view_of_st (by rw [hst]; decide)
  have hact : (s.acting r).st = 0 := (congrArg Page.st hview).trans hst
  have hown : (s.acting r).owner = r.port := howner
  simp [State.dispatchWrite, hgo, hpause, hlpn, hown, hpoison, hact, hv]

/-- Such a write takes a free slot when no older one waits for it. -/
theorem State.newPageWrite_backs {s : State} {r : Req} {sl : Nat} (hw : s.withheld r.bib = false)
    (ho : s.slotOlder r (s.homeFor r.lpn) = false) (hp : s.pickSlot (s.homeFor r.lpn) = some sl) :
    s.newPageWrite r = s.backWrite r (s.homeFor r.lpn) sl := by
  simp [State.newPageWrite, hw, ho, hp]

/-- A request taken out of the wait for slots makes no other older. -/
theorem State.slotOlder_hold {s : State} {r : Req} {home : Nat} (h : s.slotOlder r home = false) :
    (s.setStage r .hold).slotOlder r home = false := by
  unfold State.slotOlder at h ⊢
  rw [List.any_eq_false] at h ⊢
  intro x hx
  rcases mem_updFirst hx with hx | ⟨y, -, -, rfl⟩
  · exact h x hx
  · simp

/-- SLOT_CREDIT_GRANT of a write whose stack has a free slot. -/
theorem slotCreditGrant_spec {s : State} {id sl : Nat} {r : Req} (hf : Form s) (hgo : s.inGo = true) (hr : s.req id = some r)
    (hwrite : r.write = true) (hstage : r.stage = .slot) (hpoison : r.poison = false) (hlpn : r.lpn ≠ noPage)
    (hst : (s.page r.lpn).st = 0) (howner : r.entry.owner = r.port) (hv : s.isVault r.lpn = false) (hpause : s.pausing = false)
    (hw : s.withheld r.bib = false) (ho : s.slotOlder r (s.homeFor r.lpn) = false)
    (hp : s.pickSlot (s.homeFor r.lpn) = some sl) (hspace : ∀ m ∈ s.relay.moves, m.hasSpace = true) :
    ∃ t : State, exec (.slotCreditGrant id) s = .next t.onward ∧ (t.page r.lpn).st = 1 ∧ (t.page r.lpn).slot = sl ∧
      (t.page r.lpn).home = s.homeFor r.lpn ∧ slotKey (s.homeFor r.lpn) sl ∈ t.tier.slotsUsed ∧
      (∀ lpn, lpn ≠ r.lpn → t.page lpn = s.page lpn) ∧ t.tier.dist = s.tier.dist := by
  have hback : (s.setStage r .hold).dispatch r = (s.setStage r .hold).backWrite r (s.homeFor r.lpn) sl := by
    unfold State.dispatch
    rw [if_pos hwrite, State.dispatchWrite_newPage (s := s.setStage r .hold) hgo hpause hlpn howner hpoison hst hv]
    exact State.newPageWrite_backs hw (State.slotOlder_hold ho) hp
  have hb : BackedAt (s.setStage r .hold) r.lpn (s.homeFor r.lpn) sl ((s.setStage r .hold).dispatch r) :=
    hback ▸ State.backWrite_backed ((State.setStage_keeps (Keeps.refl s) r .hold).form hf) hv _ sl
  have hmoves : ((s.setStage r .hold).dispatch r).relay.moves.filter (fun m => !m.hasSpace) = [] := by
    refine List.filter_eq_nil_iff.2 fun m hm => ?_
    have hin := List.mem_map_of_mem (f := Move.hasSpace) hm
    rw [hb.space] at hin
    obtain ⟨x, hx, he⟩ := List.mem_map.1 hin
    simp [← he, hspace x hx]
  have hgrant : s.grant id = (s.setStage r .hold).dispatch r := by
    unfold State.grant
    rw [hr]
    dsimp only
    rw [if_pos hstage, hmoves]
    rfl
  have hexec : exec (.slotCreditGrant id) s = .next (s.grant id).onward := congrArg Host.Outcome.next (if_pos hgo)
  exact ⟨_, hgrant ▸ hexec, hb.st, hb.slot, hb.homed, hb.used, hb.others, hb.dist⟩

/-! ### The obligation -/

/-- Settles O53: each command's clause is the lemma about the operation it runs. -/
theorem buildsFailuresAndCredits : Obligations.BuildsFailuresAndCredits := by
  unfold Obligations.BuildsFailuresAndCredits
  refine ⟨fun s id it hf hi hk hrun hr hb hsound => buildDone_spec hf hi hk hrun hr hb hsound, fun s n hc hn hb hh => ?_,
    fun s e hf he hgo hfen hr => ⟨fun hu => ?_, fun hu hnd hfails => ?_⟩, fun s id r hr hw hs hm => ?_, ?_, ?_⟩
  · have hexec : exec (.rebuildRequest n) s = .next (s.requestBuild n s.firmwareBib none).onward :=
      congrArg Host.Outcome.next (if_pos ⟨hc, hn, hb, hh⟩)
    exact ⟨_, hexec, s.requestBuild_spec n s.firmwareBib none⟩
  · have hexec : exec (.relayEngineFailure e) s = .next (s.fenceRelay e).onward := by
      show execRelayEngineFailure e s = _
      simp [execRelayEngineFailure, State.relayFails, hgo, hfen, Nat.not_le.2 he, Nat.not_le.2 (show 1 < s.unfenced from hu)]
    exact ⟨_, hexec, State.fenceRelay_spec hf he (Nat.lt_trans hr (by decide))⟩
  · have hexec : exec (.lastRelayEngineFailure e) s = .next (s.lastFailure e).onward :=
      congrArg Host.Outcome.next (if_pos ⟨he, hgo, by simp [hfen], hu⟩)
    obtain ⟨heng, hnoted, hagain, htier⟩ := State.lastFailure_spec hf (Nat.lt_trans hr (by decide)) hnd hfails
    refine ⟨_, hexec, heng, hnoted, fun i hi hie hrun => ?_, htier⟩
    obtain ⟨x, hx, hid, hwaits, hxe, hxf⟩ := hagain i hi hie hrun
    exact ⟨x, hx, hid, hwaits, hxe.trans hie, hxf⟩
  · exact ⟨s.slotWait id, rfl, State.slotWait_noPromotion hr hw hs hm, State.slotWait_bypass hr hw hs hm,
      State.slotWait_stage hr hw hs hm, State.slotWait_map_tier hr hw hs hm⟩
  · intro s id sl r hf hgo hr hwrite hstage hpoison hlpn hst howner hv hpause hw ho hp hspace
    exact slotCreditGrant_spec hf hgo hr hwrite hstage hpoison hlpn hst howner hv hpause hw ho hp hspace
  · intro s id r hf hq hw hc hu hb hr
    exact backingTimeout_spec hf hq hw hc hu hb hr

end Sys2Proof.Machine
end

section
/-! PROOFS. Reads that end at a relay engine: EXPAND, XTS and BYPASS items (R52, R74, R82, R86). -/

namespace Sys2Proof.Machine

open Sys2Proof.Claims

/-! ### Counts of the relay engines -/

/-- The counts of the relay engines (0x5010) are as they were. -/
structure RelayCounts (z s : State) : Prop where
  count : ∀ j < 256, s.num 0x5010 j = z.num 0x5010 j

theorem RelayCounts.refl (s : State) : RelayCounts s s := ⟨fun _ _ => rfl⟩

theorem RelayCounts.trans {z s t : State} (h : RelayCounts z s) (g : RelayCounts s t) : RelayCounts z t :=
  ⟨fun j hj => (g.count j hj).trans (h.count j hj)⟩

/-- Other fields than the dictionary do not matter. -/
theorem RelayCounts.same {z s t : State} (h : RelayCounts z s) (dict : t.dict = s.dict := by rfl) : RelayCounts z t :=
  ⟨fun j hj => by
    rw [← h.count j hj]
    unfold State.num
    rw [dict]⟩

theorem State.setNum_relayCounts {z s : State} (h : RelayCounts z s) (i j v : Nat)
    (hk : okey i j < 0x501000 ∨ 0x501100 ≤ okey i j) : RelayCounts z (s.setNum i j v) := by
  refine ⟨fun k hk' => (s.num_setNum_other _ _ _ _ _ ?_).trans (h.count k hk')⟩
  unfold okey at *
  omega

theorem State.bump_relayCounts {z s : State} (h : RelayCounts z s) (i j : Nat)
    (hk : okey i j < 0x501000 ∨ 0x501100 ≤ okey i j) : RelayCounts z (s.bump i j) := State.setNum_relayCounts h _ _ _ hk

/-! ### Counts and samples of a read -/

/-- What events, counts of the ports and samples leave alone: the tiers, and the counts of the relay engines. -/
structure Tallies (z s : State) : Prop where
  tier : s.tier = z.tier
  counts : RelayCounts z s

theorem Tallies.refl (s : State) : Tallies s s := ⟨rfl, RelayCounts.refl s⟩

/-- An update of other fields. -/
theorem Tallies.same {z s t : State} (h : Tallies z s) (tier : t.tier = s.tier := by rfl) (dict : t.dict = s.dict := by rfl) :
    Tallies z t := ⟨tier.trans h.tier, h.counts.same dict⟩

theorem State.setNum_tallies {z s : State} (h : Tallies z s) (i j v : Nat) (hk : okey i j < 0x501000 ∨ 0x501100 ≤ okey i j) :
    Tallies z (s.setNum i j v) := ⟨h.tier, State.setNum_relayCounts h.counts i j v hk⟩

theorem State.bump_tallies {z s : State} (h : Tallies z s) (i j : Nat) (hk : okey i j < 0x501000 ∨ 0x501100 ≤ okey i j) :
    Tallies z (s.bump i j) := State.setNum_tallies h _ _ _ hk

theorem State.fire_tallies {z s : State} (h : Tallies z s) (p : Nat) (l : LinkId) (vec : Nat) : Tallies z (s.fire p l vec) :=
  ite_of (P := Tallies _) h (ite_of (P := Tallies _) h.same h.same)

theorem State.fireEvent_tallies {z s : State} (h : Tallies z s) (p : Nat) : Tallies z (s.fireEvent p) :=
  ite_of (P := Tallies _) (State.fire_tallies (State.fire_tallies h ..) ..) (State.fire_tallies h ..)

theorem State.cxlLog_tallies {z s : State} (h : Tallies z s) (e : Evt) : Tallies z (s.cxlLog e) := by
  refine foldl_of (P := Tallies _) _ h fun t p g => ite_of (P := Tallies _) ?_ g
  split
  · exact State.fireEvent_tallies g.same p
  · exact g

theorem State.notify_tallies {z s : State} (h : Tallies z s) (e : Evt) : Tallies z (s.notify e) :=
  ite_of (P := Tallies _) h h.same

theorem State.noteEvt_tallies {z s : State} (h : Tallies z s) (e : Evt) : Tallies z (s.noteEvt e) :=
  ite_of (P := Tallies _) (State.bump_tallies h.same 0x1300 8 (.inl (by decide))) h.same

theorem State.raiseWith_tallies {z s : State} (h : Tallies z s) (sev : Nat) (must : Bool)
    (code port unit aux page detail : Nat) : Tallies z (s.raiseWith sev must code port unit aux page detail) := by
  have hlog := State.cxlLog_tallies (State.noteEvt_tallies h (s.evtOf sev code port unit aux page detail))
    (s.evtOf sev code port unit aux page detail)
  exact ite_of (P := Tallies _) (State.notify_tallies hlog _) hlog

theorem State.resteps_tallies {z s : State} (h : Tallies z s) (b : Nat) : Tallies z (s.resteps b) :=
  ite_of (P := Tallies _) h.same h

theorem State.miss_tallies {z s : State} (h : Tallies z s) (b p : Nat) (leg : Bool) (v : Nat) : Tallies z (s.miss b p leg v) := by
  unfold State.miss
  extract_lets s1 d s2 vec
  have h1 : Tallies z s1 := State.bump_tallies h _ _ (.inr (by unfold okey; omega))
  have h2 : Tallies z s2 := State.raiseWith_tallies (Tallies.same h1) ..
  exact ite_of (P := Tallies _) (ite_of (P := Tallies _) h2 (State.fire_tallies h2 ..)) h1

theorem State.sample_tallies {z s : State} (h : Tallies z s) (b p : Nat) (leg : Bool) (v : Nat) :
    Tallies z (s.sample b p leg v) := by
  unfold State.sample
  extract_lets sh s1 s2 m s3
  have h1 : Tallies z s1 := h.same
  have h2 : Tallies z s2 := State.bump_tallies (State.resteps_tallies h1 b) _ _ (.inr (by unfold okey; omega))
  have h3 : Tallies z s3 := State.setNum_tallies h2 _ _ _ (.inr (by unfold okey; omega))
  exact ite_of (P := Tallies _) (State.miss_tallies h3 ..) h3

theorem State.readSample_tallies {z s : State} (h : Tallies z s) (b p arrival : Nat) : Tallies z (s.readSample b p arrival) :=
  State.sample_tallies h.same ..

/-! ### The end of a CXL read -/

/-- A CXL read on a port that answers leaves, is counted and sampled, and its data goes out last. -/
theorem State.readDone_cxl {s : State} {r : Req} {tag : Nat} (hsrc : r.src = .cxl tag) (hm : s.muted r.port = false)
    (ho : s.onesOnly r.port = false) (data : List Byte) :
    s.readDone r data false =
      (((s.dropReq r.id).bump 0x1310 1).readSample r.bib r.port r.arrival).emit (.cxlData r.port r.link tag data false) := by
  simp [State.readDone, hsrc, hm, ho]

section
variable {s : State} {r : Req} {tag : Nat} (hsrc : r.src = .cxl tag) (hm : s.muted r.port = false) (ho : s.onesOnly r.port = false)
  (data : List Byte)
include hsrc hm ho

theorem State.readDone_lastOut : lastOut s (s.readDone r data false) (.cxlData r.port r.link tag data false) := by
  rw [State.readDone_cxl hsrc hm ho]
  exact ⟨_, (State.readSample_keeps (State.bump_keeps (State.dropReq_keeps (Keeps.refl s) r.id) ..) ..).out, rfl⟩

theorem State.readDone_reports : Reports (s.dropReq r.id) (s.readDone r data false) := by
  rw [State.readDone_cxl hsrc hm ho]
  have hb : Reports (s.dropReq r.id) ((s.dropReq r.id).bump 0x1310 1) := State.bump_reports (Reports.refl _) _ _ (.inl (by decide))
  exact (State.readSample_reports hb r.bib r.port r.arrival).same

theorem State.readDone_tallies : Tallies s (s.readDone r data false) := by
  rw [State.readDone_cxl hsrc hm ho]
  have hd : Tallies s (s.dropReq r.id) := (Tallies.refl s).same
  have hb : Tallies s ((s.dropReq r.id).bump 0x1310 1) := State.bump_tallies hd _ _ (.inl (by decide))
  exact (State.readSample_tallies hb r.bib r.port r.arrival).same

end

section
variable {s : State} {id tag : Nat} {k : ItemKind} {it : Item} {r : Req} (h : serving s id k it r tag)
include h

/-- The read of an item that serves it is answered, and both leave. -/
theorem serving_answered (data : List Byte) : readServed s ((s.dropItem id).readDone r data false) id r tag data := by
  obtain ⟨-, -, -, -, -, -, hsrc, hm, ho⟩ := h
  have hrep := State.readDone_reports (s := s.dropItem id) hsrc hm ho data
  refine ⟨State.readDone_lastOut (s := s.dropItem id) hsrc hm ho data, fun x hx => ?_, fun i hi => ?_,
    (State.readDone_tallies (s := s.dropItem id) hsrc hm ho data).tier, congrArg (·.pages) hrep.map⟩
  · rw [hrep.reqs, State.dropReq_reqs, List.mem_filter] at hx
    simpa using hx.2
  · rw [hrep.relay] at hi
    simpa using (List.mem_filter.1 hi).2

theorem serving_counts (data : List Byte) : RelayCounts s ((s.dropItem id).readDone r data false) := by
  obtain ⟨-, -, -, -, -, -, hsrc, hm, ho⟩ := h
  have hd : RelayCounts s (s.dropItem id) := (RelayCounts.refl s).same
  exact hd.trans (State.readDone_tallies (s := s.dropItem id) hsrc hm ho data).counts

theorem serving_map (data : List Byte) : ((s.dropItem id).readDone r data false).map = s.map := by
  obtain ⟨-, -, -, -, -, -, hsrc, hm, ho⟩ := h
  exact (State.readDone_reports (s := s.dropItem id) hsrc hm ho data).map

theorem serving_id : it.id = id := by
  obtain ⟨hi, -⟩ := h
  simpa using List.find?_some hi

theorem serving_runs : s.runningItem id k = some it := by
  obtain ⟨hi, hk, hrun, -⟩ := h
  simp [State.runningItem, hi, hk, hrun]

theorem serving_req : it.req.bind s.req = some r := by
  obtain ⟨-, -, -, hreq, hr, -⟩ := h
  rw [hreq]
  exact hr

/-- An engine that finds every check passed ends the read with the bytes the block stands for (R52, R74, R82). -/
theorem State.serveRead_of_sound (dist : Bool) (hst : r.entry.st ≠ 6) (hf : s.blockFails r.lpn r.entry r.blk r.rdata = none) :
    s.serveRead it dist =
      (s.dropItem id).readDone r (slice (s.plain r.lpn r.entry r.blk r.rdata) r.off r.len) false := by
  have ⟨_, _, _, _, hr, hstage, _⟩ := h
  unfold State.serveRead
  rw [serving_req h]
  dsimp only
  rw [hf]
  dsimp only
  rw [hr]
  dsimp only
  rw [if_pos hstage, serving_id h]
  unfold State.answerOf
  rw [if_neg hst]

end

/-- EXPAND_DONE of a block that passes its checks. -/
theorem expandDone_spec {s : State} {id tag : Nat} {it : Item} {r : Req} (h : serving s id .expand it r tag)
    (hst : r.entry.st ≠ 6) (hf : s.blockFails r.lpn r.entry r.blk r.rdata = none) :
    ∃ t : State, exec (.expandDone id) s = .next t.onward ∧
      readServed s t id r tag (slice (s.plain r.lpn r.entry r.blk r.rdata) r.off r.len) := by
  have hexec : exec (.expandDone id) s = .next (s.serveRead it false).onward := by
    show execExpandDone id s = _
    simp [execExpandDone, serving_runs h]
  rw [State.serveRead_of_sound h false hst hf] at hexec
  exact ⟨_, hexec, serving_answered h _⟩

/-- XTS_DONE of a read of a vault block whose key is there. -/
theorem xtsDone_spec {s : State} {id tag : Nat} {it : Item} {r : Req} {key : List Byte} (h : serving s id .xts it r tag)
    (hw : r.write = false) (hk : s.vaultKey r.lpn = some key) :
    ∃ t : State, exec (.xtsDone id) s = .next t.onward ∧
      readServed s t id r tag (r.ofUnits (vaultCrypt false key r.lpn r.blk (r.off / 16 * 16) r.rdata)) := by
  have hend : s.xtsEnd it =
      (s.dropItem id).readDone r (r.ofUnits (vaultCrypt false key r.lpn r.blk (r.off / 16 * 16) r.rdata)) false := by
    simp [State.xtsEnd, serving_req h, serving_id h, hk, hw]
  have hexec : exec (.xtsDone id) s = .next (s.xtsEnd it).onward := by
    show execXtsDone id s = _
    simp [execXtsDone, serving_runs h]
  rw [hend] at hexec
  exact ⟨_, hexec, serving_answered h _⟩

/-! ### What a block stands for -/

/-- The region of a page, what its blocks are checked against and what they expand to follow the low subindices of the number
objects and the live codebooks alone. -/
structure SameBlocks (z s : State) : Prop where
  nums : ∀ i j, j < 4 → s.num i j = z.num i j
  cbs : s.relay.cbs = z.relay.cbs

section
variable {z s : State} (h : SameBlocks z s)
include h

theorem SameBlocks.region (lpn : Nat) : s.region lpn = z.region lpn := by
  have hhas : s.regionHas = z.regionHas := by
    funext n k
    simp only [State.regionHas, h.nums _ 1 (by decide), h.nums _ 2 (by decide)]
  unfold State.region State.regionOf
  rw [hhas]

theorem SameBlocks.element (lpn : Nat) : s.element lpn = z.element lpn := by
  unfold State.element
  rw [h.region, h.nums _ 3 (by decide)]

theorem SameBlocks.cb (n v : Nat) : s.cb n v = z.cb n v := by
  unfold State.cb
  rw [h.cbs]

theorem SameBlocks.blockFails (lpn : Nat) (e : Page) (b : Nat) (stored : List Byte) :
    s.blockFails lpn e b stored = z.blockFails lpn e b stored := by
  have hlive : s.liveSlots (z.region lpn) = z.liveSlots (z.region lpn) := by
    simp only [State.liveSlots, h.cb]
  unfold State.blockFails State.checkCtx
  dsimp only
  rw [h.region, h.element, hlive, h.nums _ 1 (by decide)]

theorem SameBlocks.plain (lpn : Nat) (e : Page) (b : Nat) (stored : List Byte) :
    s.plain lpn e b stored = z.plain lpn e b stored := by
  unfold State.plain
  rw [h.element, h.region, h.cb]

end

/-! ### A bypass read (R82) -/

/-- A bypass read is counted, in the counts of the engines and in the use of its page, before its block is checked. -/
def State.bypassCounted (s : State) (r : Req) : State :=
  let s1 := (s.bump 0x5010 6).touchUse r.lpn false r.bib
  s1.setUse r.lpn { s1.use r.lpn with bypasses := (s1.use r.lpn).bypasses + 1 }

theorem State.bypassCounted_blocks (s : State) (r : Req) : SameBlocks s (s.bypassCounted r) :=
  ⟨fun i j hj => s.num_setNum_other _ _ _ _ _ (by unfold okey; omega), rfl⟩

theorem State.bypassCounted_count {s : State} (hf : Form s) (r : Req) :
    (s.bypassCounted r).num 0x5010 6 = min (s.num 0x5010 6 + 1) 0xFFFFFFFFFFFFFFFF := s.num_setNum hf ..

theorem State.use_setUse {s : State} (h : Form s) (lpn : Nat) (u : PageUse) : (s.setUse lpn u).use lpn = u :=
  mget_mput_same _ _ _ _ h.uses

theorem State.bypassCounted_use {s : State} (hf : Form s) (r : Req) :
    ((s.bypassCounted r).use r.lpn).bypasses = (s.use r.lpn).bypasses + 1 := by
  have hb : Form (s.bump 0x5010 6) := (State.bump_keeps (Keeps.refl s) ..).form hf
  have ht : Form ((s.bump 0x5010 6).touchUse r.lpn false r.bib) := (State.touchUse_keeps (Keeps.refl _) ..).form hb
  have hsame : (((s.bump 0x5010 6).touchUse r.lpn false r.bib).use r.lpn).bypasses = (s.use r.lpn).bypasses := by
    unfold State.touchUse
    rw [State.use_setUse hb]
    rfl
  unfold State.bypassCounted
  dsimp only
  rw [State.use_setUse ht, ← hsame]

/-- BYPASS_DONE once the packed granules have arrived, of a block that passes its checks. -/
theorem bypassDone_spec {s : State} {id tag : Nat} {it : Item} {r : Req} (hf : Form s) (h : serving s id .bypass it r tag)
    (hst : r.entry.st ≠ 6) (hq : (s.dramQ (.dist r.entry.channel)).holds r.id = false)
    (hb : s.blockFails r.lpn r.entry r.blk r.rdata = none) :
    ∃ t : State, exec (.bypassDone id) s = .next t.onward ∧
      readServed s t id r tag (slice (s.plain r.lpn r.entry r.blk r.rdata) r.off r.len) ∧
      t.num 0x5010 6 = min (s.num 0x5010 6 + 1) 0xFFFFFFFFFFFFFFFF ∧ (t.use r.lpn).bypasses = (s.use r.lpn).bypasses + 1 := by
  have hc : serving (s.bypassCounted r) id .bypass it r tag := h
  have hblocks := s.bypassCounted_blocks r
  have hend : s.bypassEnd it = ((s.bypassCounted r).dropItem id).readDone r
      (slice (s.plain r.lpn r.entry r.blk r.rdata) r.off r.len) false := by
    rw [← hblocks.plain, ← State.serveRead_of_sound hc true hst ((hblocks.blockFails ..).trans hb)]
    unfold State.bypassEnd
    rw [serving_req h]
    dsimp only
    rw [if_neg (by simp [hq])]
    rfl
  have hexec : exec (.bypassDone id) s = .next (s.bypassEnd it).onward := by
    show execBypassDone id s = _
    simp [execBypassDone, serving_runs h]
  rw [hend] at hexec
  refine ⟨_, hexec, serving_answered hc _, ?_, ?_⟩
  · rw [(serving_counts hc _).count 6 (by decide), State.bypassCounted_count hf]
  · unfold State.use
    rw [serving_map hc]
    exact State.bypassCounted_use hf r

end Sys2Proof.Machine
end

section
/-! PROOFS. Items that start, and UNSEALs (R71, R75, R79): settles O51. -/

namespace Sys2Proof.Machine

open Sys2Proof.Claims

/-! ### An item starts (R71) -/

/-- The items an engine may start: those in its queue whose request is still there and whose time has come. -/
def State.startCands (s : State) (e : Nat) : List Item :=
  s.relay.items.filter fun i => i.engine == some e && !i.running && s.served i && decide (i.age ≤ s.now)

/-- The best item of an engine starts when it may: it has its credits, and no other move of its page stands in its way. -/
theorem State.engineTakes_starts {s : State} {e : Nat} {it : Item} (ho : s.relayOpen e = true)
    (hbest : bestBy s.itemBefore (s.startCands e) = some it) (hc : s.canStart e it = true)
    (hfree : isMove it.kind = true → s.moveOn it.lpn = none ∧ s.recodeHeld it = false) : s.engineTakes e = s.startItem it := by
  have hwaits : ¬ (isMove it.kind = true ∧ ((s.moveOn it.lpn).isSome = true ∨ s.recodeHeld it = true)) := by
    rintro ⟨hk, hw⟩
    obtain ⟨hnone, hrecode⟩ := hfree hk
    simp [hnone, hrecode] at hw
  have htakes : s.engineTakes e = s.startNext e (s.startCands e).length (s.startCands e) := by
    unfold State.engineTakes
    rw [if_neg (by simp [ho])]
    rfl
  rw [htakes]
  cases hcs : s.startCands e with
  | nil => exact nomatch hcs ▸ hbest
  | cons x r =>
    rw [← hcs, show (s.startCands e).length = r.length + 1 by rw [hcs]; rfl]
    unfold State.startNext
    rw [hbest]
    dsimp only
    rw [if_neg hwaits, if_pos hc]

/-- Of the kinds that are no moves, all but a bypass read run from then on with what they read as they start. -/
theorem State.startItem_runs {s : State} {it : Item} (hm : isMove it.kind = false) (hb : it.kind ≠ .bypass) :
    s.startItem it = (s.modItem it.id fun i => { i with running := true }).itemReads it := by
  unfold State.startItem
  rw [if_neg (by simp [hm])]
  split
  · rename_i hk _
    exact absurd hk hb
  · rfl

/-- EXPAND, XTS and COPY_IN read nothing as they start. -/
theorem State.itemReads_none {it : Item} (h : it.kind = .expand ∨ it.kind = .xts ∨ it.kind = .copyIn) (s : State) :
    s.itemReads it = s := by
  unfold State.itemReads
  rcases h with h | h | h <;> rw [h]

/-! ### A promotion starts (R71, R75) -/

/-- The move of a promotion as it starts, without its slot yet. -/
def State.promotion (s : State) (it : Item) : Move :=
  { id := s.nextId, item := { it with running := true }, prior := s.view it.lpn, slot := none, run := none, pooled := false
    cbv := s.newest (s.region it.lpn), marked := [], codes := [], inject := 0, step := 0, srcBad := [], dstBad := [] }

/-- The promotion stands among the moves. -/
def State.promotionListed (s : State) (it : Item) : State :=
  let s1 := s.newId.modItem it.id fun i => { i with running := true }
  { s1 with relay := { s1.relay with moves := s1.relay.moves ++ [s.promotion it] } }

theorem State.startMove_promotion {s : State} {it : Item} (hk : it.kind = .promote) (hst : (s.page it.lpn).st = 3)
    (hp : s.pausing = false) (hi : s.test.inject = none) :
    s.startMove it = (s.promotionListed it).takeSpace (s.promotion it) := by
  have hview : s.view it.lpn = s.page it.lpn := State.view_of_st (by rw [hst]; decide)
  have hfits : moveFits .promote (s.view it.lpn) = true := by simp [moveFits, hview, hst]
  unfold State.startMove
  extract_lets e n v inj m s1 r s2 s3 s4 waits
  have hinj : inj = 0 := by
    dsimp only [inj]
    rw [hi]
  have hm : m = s.promotion it := by
    dsimp only [m]
    rw [hinj]
    rfl
  have hwaits : waits = false := by
    dsimp only [waits]
    rw [hk]
    rfl
  have hs4 : s4 = (s.promotionListed it).takeSpace (s.promotion it) := by
    dsimp only [s4, s3, s2, r, s1]
    rw [hm]
    rfl
  clear_value s4 waits
  rw [if_neg (by simp [hk, e, hfits]), if_neg (by simp [hp]), if_neg (by simp [hk]), if_neg (by simp [hk]), ← hs4]
  split
  · rw [hwaits]
    rfl
  · rfl

/-- A promotion whose stack has a free slot takes it and is journaled. -/
theorem State.takeSpace_promotion {s : State} {it : Item} {sl : Nat} (hk : it.kind = .promote) (hst : (s.page it.lpn).st = 3)
    (hs : s.pickSlot (s.page it.lpn).home = some sl) :
    (s.promotionListed it).takeSpace (s.promotion it) =
      ((s.promotionListed it).takeSlot (s.page it.lpn).home sl).journal { s.promotion it with slot := some sl } := by
  have hprior : (s.promotion it).prior = s.page it.lpn := State.view_of_st (by rw [hst]; decide)
  have hpick : (s.promotionListed it).pickSlot (s.promotion it).prior.home = some sl := by
    rw [hprior]
    exact hs
  have hkind : (s.promotion it).item.kind = .promote := hk
  unfold State.takeSpace
  dsimp only
  rw [if_neg (by simp [State.promotion]), hkind, if_neg (by simp), if_neg (by simp), if_pos (by simp [toSlot]), hpick, hprior]

/-- Beside the move's step and version, a journaled move changes only what its journal entry queues. -/
theorem State.journal_silent (s : State) (m : Move) :
    Silent (s.modMove m.id fun _ => { m with step := 1, cbv := s.newest (s.region m.item.lpn) }) (s.journal m) :=
  State.pushMeta_silent (Silent.refl _) ..

/-- A journaled move stands among the moves. -/
theorem State.journal_listed {s : State} {m : Move} (h : ∃ x ∈ s.relay.moves, x.id = m.id) :
    { m with step := 1, cbv := s.newest (s.region m.item.lpn) } ∈ (s.journal m).relay.moves := by
  obtain ⟨x, hx, hid⟩ := h
  obtain ⟨-, -, -, hmem⟩ := exists_mem_updFirst (p := fun y : Move => y.id == m.id)
    (fun _ => { m with step := 1, cbv := s.newest (s.region m.item.lpn) }) ⟨x, hx, by simp [hid]⟩
  exact (s.journal_silent m).relay ▸ hmem

/-- ITEM_START of a promotion with a free slot. -/
theorem State.startItem_promotion {s : State} {it : Item} {sl : Nat} (hk : it.kind = .promote) (hst : (s.page it.lpn).st = 3)
    (hp : s.pausing = false) (hi : s.test.inject = none) (hs : s.pickSlot (s.page it.lpn).home = some sl) :
    ∃ m : Move, m ∈ (s.startItem it).relay.moves ∧ m.item.lpn = it.lpn ∧ m.slot = some sl ∧ m.prior = s.page it.lpn ∧ m.step = 1 ∧
      (s.startItem it).map.pages = s.map.pages ∧ slotKey (s.page it.lpn).home sl ∈ (s.startItem it).tier.slotsUsed ∧
      (s.startItem it).tier.sprint = s.tier.sprint ∧ (s.startItem it).tier.dist = s.tier.dist := by
  have hstart : s.startItem it =
      ((s.promotionListed it).takeSlot (s.page it.lpn).home sl).journal { s.promotion it with slot := some sl } := by
    rw [← State.takeSpace_promotion hk hst hs, ← State.startMove_promotion hk hst hp hi]
    unfold State.startItem
    rw [hk]
    rfl
  have hj := ((s.promotionListed it).takeSlot (s.page it.lpn).home sl).journal_silent { s.promotion it with slot := some sl }
  have hlisted : s.promotion it ∈ ((s.promotionListed it).takeSlot (s.page it.lpn).home sl).relay.moves :=
    List.mem_append_right _ (List.mem_singleton_self _)
  rw [hstart]
  refine ⟨_, State.journal_listed ⟨_, hlisted, rfl⟩, rfl, rfl, State.view_of_st (by rw [hst]; decide), rfl,
    congrArg (·.pages) hj.map, ?_, hj.sprint, hj.dist⟩
  rw [hj.slots]
  exact List.mem_append_right _ (List.mem_singleton_self _)

/-! ### What granules on their way leave of the counts of the relay engines -/

theorem State.modDramQ_relayCounts {z s : State} (h : RelayCounts z s) (u : DramUnit) (f : DramQ → DramQ) :
    RelayCounts z (s.modDramQ u f) := by
  cases u <;> exact h.same

theorem State.touchUnit_relayCounts {z s : State} (h : RelayCounts z s) (u : DramUnit) : RelayCounts z (s.touchUnit u) := by
  cases u <;> exact h.same

theorem State.enqueue_relayCounts {z s : State} (h : RelayCounts z s) (u : DramUnit) (write : Bool) (granule : Nat)
    (owner : QOwner) (bib port : Option Nat) : RelayCounts z (s.enqueue u write granule owner bib port) := by
  unfold State.enqueue
  extract_lets q e dist merged s0 s1
  have h0 : RelayCounts z s0 := State.touchUnit_relayCounts h.same u
  have h1 : RelayCounts z s1 := State.modDramQ_relayCounts h0 ..
  clear_value s0 s1 merged
  split
  · exact State.modDramQ_relayCounts h0 ..
  · refine ite_of (P := RelayCounts _) (State.modDramQ_relayCounts h0 ..)
      (ite_of (P := RelayCounts _) ?_ (State.modDramQ_relayCounts h0 ..))
    split
    · exact State.bump_relayCounts h1 _ _ (by unfold okey; omega)
    · exact h1

theorem State.stepFlow_relayCounts {z s : State} (h : RelayCounts z s) (id : Nat) : RelayCounts z (s.stepFlow id) := by
  unfold State.stepFlow
  split
  · exact h
  · refine ite_of (P := RelayCounts _) h (ite_of (P := RelayCounts _) (State.enqueue_relayCounts h.same ..) ?_)
    split
    · rename_i b _ _
      exact (State.bump_relayCounts h (0x7040 + b) 8 (.inr (by unfold okey; omega))).same
    · exact h

theorem State.runFlow_relayCounts {z s : State} (h : RelayCounts z s) (f : Flow) : RelayCounts z (s.runFlow f) :=
  foldl_of (P := RelayCounts _) _ h fun _ _ g => State.stepFlow_relayCounts g _

theorem State.addFlow_relayCounts {z s : State} (h : RelayCounts z s) (o : QOwner) (u : DramUnit) (w : Bool) (first n : Nat)
    (bib port : Option Nat) : RelayCounts z (s.addFlow o u w first n bib port) := h.same (State.addFlow_dict ..)

theorem State.metaWrite_relayCounts {z s : State} (h : RelayCounts z s) (c key granule n : Nat) (w0 w1 : LostWrite) :
    RelayCounts z (s.metaWrite c key granule n w0 w1) := by
  unfold State.metaWrite
  extract_lets put s1
  have hput : ∀ t d w, RelayCounts z t → RelayCounts z (put t d w) := fun t d w g =>
    ite_of (P := RelayCounts _) g (ite_of (P := RelayCounts _) (State.addFlow_relayCounts g ..)
      (ite_of (P := RelayCounts _) (ite_of (P := RelayCounts _) g.same g) g))
  have h1 : RelayCounts z s1 := hput _ _ _ (hput _ _ _ h)
  clear_value put s1
  split
  · exact State.addFlow_relayCounts h1 ..
  · exact h1

theorem State.swapPage_relayCounts {z s : State} (h : RelayCounts z s) (lpn : Nat) (e : Page) :
    RelayCounts z (s.swapPage lpn e) :=
  foldl_of (P := RelayCounts _) _ (State.metaWrite_relayCounts h.same ..) fun _ _ g => State.runFlow_relayCounts g _

/-! ### A coded block becomes RAW in its place (R79) -/

/-- Bytes written over a stretch of memory are read back from it. -/
theorem Memory.readN_writeN {m : Memory} (h : m.wf = true) (a : Nat) (bs : List Byte) :
    (m.writeN a bs).readN a bs.length = bs := by
  induction bs generalizing m a with
  | nil => rfl
  | cons x r ih =>
    have hx : ((m.write a x).writeN (a + 1) r).read a = x := by
      rw [Memory.read_writeN_other _ _ _ _ (.inl (Nat.lt_succ_self a)), m.read_write_same a x h]
    show ((m.write a x).writeN (a + 1) r).read a :: ((m.write a x).writeN (a + 1) r).readN (a + 1) r.length = x :: r
    rw [hx, ih (m.write_wf a x h)]

/-- Outside a vault the codes of a page are those of its entry. -/
theorem Page.code_of_st {e : Page} (h : e.st ≠ 6) (b : Nat) : e.code b = nth e.gran 0 b := by
  unfold Page.code Page.codes
  rw [if_neg h]

/-- The entry of a page one of whose blocks has become RAW (Table 2.9). -/
def Page.withRaw (e : Page) (b : Nat) : Page :=
  let e1 := e.setCode b 15
  { e1 with st := if e.st = 4 then 5 else e1.settledState e.st, touched := e.touched || e.st == 7 }

/-- A page with a sprint copy outside a vault (Table 2.8), which may hold coded blocks: SPRINT_CODED, BOTH or BOTH_DIRTY. -/
def Page.sprintCoded (e : Page) : Prop := e.st = 2 ∨ e.st = 4 ∨ e.st = 5

section
variable {e : Page} (h : e.sprintCoded)
include h

theorem Page.sprintCoded_inSprint : e.inSprint = true := by
  rcases h with h | h | h <;> simp [Page.inSprint, h]

theorem Page.sprintCoded_st : e.st ≠ 6 ∧ e.st ≠ 7 := by
  rcases h with h | h | h <;> simp [h]

/-- It stays a page of the sprint tier outside a vault, BOTH_DIRTY when it had a distance copy. -/
theorem Page.withRaw_st (b : Nat) : (e.withRaw b).st ≠ 6 ∧ ((e.withRaw b).st = 5 ↔ e.st = 4 ∨ e.st = 5) := by
  unfold Page.withRaw Page.settledState
  rcases h with h | h | h
  · by_cases hc : (e.setCode b 15).anyCoded <;> simp [h, hc]
  · simp [h]
  · simp [h]

theorem Page.withRaw_code {b : Nat} (hb : b < e.gran.length) : (e.withRaw b).code b = 15 := by
  rw [Page.code_of_st (Page.withRaw_st h b).1]
  exact nth_updAt_same _ _ _ _ hb

theorem Page.withRaw_code_other {b k : Nat} (hk : k ≠ b) : (e.withRaw b).code k = e.code k := by
  rw [Page.code_of_st (Page.withRaw_st h b).1, Page.code_of_st (Page.sprintCoded_st h).1]
  exact nth_updAt_other _ _ _ _ _ hk

end

/-- The rewritten block and the swapped entry, before a move of the page marks the block. -/
def State.rawWritten (s : State) (lpn b : Nat) (stored : List Byte) : State :=
  (s.writeSprint ((s.view lpn).sprintAddr b) (s.plain lpn (s.view lpn) b stored)).swapPage lpn ((s.page lpn).withRaw b)

/-- Marking a block for the coder touches moves alone. -/
theorem State.markBlock_moves (s : State) (lpn b : Nat) :
    ∃ ms, s.markBlock lpn b = { s with relay := { s.relay with moves := ms } } := by
  unfold State.markBlock
  split
  · split
    · exact ⟨_, rfl⟩
    · exact ⟨_, rfl⟩
  · exact ⟨_, rfl⟩

theorem State.rawBlock_rawWritten (s : State) (lpn b : Nat) (stored : List Byte) :
    s.rawBlock lpn b stored = (s.rawWritten lpn b stored).markBlock lpn b := rfl

theorem State.rawWritten_silent (s : State) (lpn b : Nat) (stored : List Byte) :
    Silent ((s.writeSprint ((s.view lpn).sprintAddr b) (s.plain lpn (s.view lpn) b stored)).setPage lpn ((s.page lpn).withRaw b))
      (s.rawWritten lpn b stored) := State.swapPage_silent ..

theorem State.rawWritten_relayCounts (s : State) (lpn b : Nat) (stored : List Byte) :
    RelayCounts s (s.rawWritten lpn b stored) := State.swapPage_relayCounts (RelayCounts.refl s).same ..

theorem State.blockFlows_silent {z s : State} (h : Silent z s) (id lpn : Nat) (dist write : Bool) (e : Page) (blks : List Nat)
    (bib port : Option Nat) : Silent z (s.blockFlows id lpn dist write e blks bib port) :=
  foldl_of (P := Silent _) _ h fun _ _ g => ite_of (P := Silent _) (State.addFlow_silent g ..) (State.addFlow_silent g ..)

theorem State.blockFlows_relayCounts {z s : State} (h : RelayCounts z s) (id lpn : Nat) (dist write : Bool) (e : Page)
    (blks : List Nat) (bib port : Option Nat) : RelayCounts z (s.blockFlows id lpn dist write e blks bib port) :=
  foldl_of (P := RelayCounts _) _ h fun _ _ g =>
    ite_of (P := RelayCounts _) (State.addFlow_relayCounts g ..) (State.addFlow_relayCounts g ..)

/-- The end of an UNSEAL rewrites the block and swaps the entry; nothing else of the bytes and the map changes. -/
theorem State.unsealed_contents (s : State) (it : Item) (stored : List Byte) :
    (s.unsealed it stored).map.pages = (s.setPage it.lpn ((s.page it.lpn).withRaw it.blk)).map.pages ∧
      (s.unsealed it stored).tier.sprint = s.tier.sprint.writeN ((s.view it.lpn).sprintAddr it.blk)
        (s.plain it.lpn (s.view it.lpn) it.blk stored) ∧
      (s.unsealed it stored).tier.dist = s.tier.dist := by
  have hw := s.rawWritten_silent it.lpn it.blk stored
  have ht : Silent ((s.rawBlock it.lpn it.blk stored).bump 0x5010 0x0A) (s.unsealed it stored) :=
    State.blockFlows_silent (Silent.refl _) ..
  obtain ⟨ms, hms⟩ := (s.rawWritten it.lpn it.blk stored).markBlock_moves it.lpn it.blk
  rw [State.rawBlock_rawWritten, hms] at ht
  exact ⟨(congrArg (·.pages) ht.map).trans (congrArg (·.pages) hw.map), ht.sprint.trans hw.sprint, ht.dist.trans hw.dist⟩

/-- The rewritten block reads as the bytes it stood for. -/
theorem State.unsealed_sprintBlock {s : State} (hf : Form s) (it : Item) (stored : List Byte)
    (hp : (s.page it.lpn).sprintCoded) (hblk : it.blk < (s.page it.lpn).gran.length)
    (hbytes : (s.plain it.lpn (s.page it.lpn) it.blk stored).length = 2048) :
    (s.unsealed it stored).sprintBlock ((s.page it.lpn).withRaw it.blk) it.blk =
      s.plain it.lpn (s.page it.lpn) it.blk stored := by
  obtain ⟨-, hsprint, -⟩ := s.unsealed_contents it stored
  rw [State.view_of_st (Page.sprintCoded_st hp).2] at hsprint
  unfold State.sprintBlock
  rw [Page.withRaw_code hp hblk, hsprint, show 64 * codeGranules 15 = 2048 from rfl, ← hbytes]
  exact Memory.readN_writeN hf.sprint ((s.page it.lpn).sprintAddr it.blk) _

/-- An UNSEAL is counted once. -/
theorem State.unsealed_count {s : State} (hf : Form s) (it : Item) (stored : List Byte) :
    (s.unsealed it stored).num 0x5010 0x0A = min (s.num 0x5010 0x0A + 1) 0xFFFFFFFFFFFFFFFF := by
  have hb : Form (s.rawBlock it.lpn it.blk stored) := (State.rawBlock_keeps (Keeps.refl s) ..).form hf
  have hcounts : RelayCounts s (s.rawBlock it.lpn it.blk stored) := by
    obtain ⟨ms, hms⟩ := (s.rawWritten it.lpn it.blk stored).markBlock_moves it.lpn it.blk
    rw [State.rawBlock_rawWritten, hms]
    exact (s.rawWritten_relayCounts ..).same
  have ht : RelayCounts ((s.rawBlock it.lpn it.blk stored).bump 0x5010 0x0A) (s.unsealed it stored) :=
    State.blockFlows_relayCounts (RelayCounts.refl _) ..
  rw [ht.count _ (by decide), ← hcounts.count 0x0A (by decide)]
  exact State.num_setNum _ hb ..

/-- Once its coded granules are read, an UNSEAL whose block passes its checks rewrites it and leaves. -/
theorem State.unsealEnd_of_sound {s : State} {it : Item} (hp : (s.page it.lpn).sprintCoded) (hb : s.busy it.id = false)
    (hc : isCoded ((s.page it.lpn).code it.blk) = true)
    (hf : s.blockFails it.lpn (s.page it.lpn) it.blk (s.sprintBlock (s.page it.lpn) it.blk) = none) :
    s.unsealEnd it = (s.dropItem it.id).unsealed it (s.sprintBlock (s.page it.lpn) it.blk) := by
  have hview : s.view it.lpn = s.page it.lpn := State.view_of_st (Page.sprintCoded_st hp).2
  have hin := Page.sprintCoded_inSprint hp
  unfold State.unsealEnd
  dsimp only
  rw [if_neg (by simp [hb]), hview, if_neg (by simp [hin, hc]), hf]

/-- UNSEAL_DONE of a coded block that passes its checks: it is RAW in its place with the bytes it stood for. -/
theorem unsealDone_spec {s : State} {id : Nat} {it : Item} (hf : Form s) (hi : s.item id = some it) (hk : it.kind = .unseal)
    (hrun : it.running = true) (hblk : it.blk < 32) (hp : (s.page it.lpn).sprintCoded) (hlen : (s.page it.lpn).gran.length = 32)
    (hc : isCoded ((s.page it.lpn).code it.blk) = true) (hb : s.busy id = false)
    (hsound : s.blockFails it.lpn (s.page it.lpn) it.blk (s.sprintBlock (s.page it.lpn) it.blk) = none)
    (hbytes : (s.plain it.lpn (s.page it.lpn) it.blk (s.sprintBlock (s.page it.lpn) it.blk)).length = 2048) :
    ∃ t : State, exec (.unsealDone id) s = .next t.onward ∧ (t.page it.lpn).code it.blk = 15 ∧
      t.sprintBlock (t.page it.lpn) it.blk = s.plain it.lpn (s.page it.lpn) it.blk (s.sprintBlock (s.page it.lpn) it.blk) ∧
      (∀ b, b ≠ it.blk → (t.page it.lpn).code b = (s.page it.lpn).code b) ∧
      ((t.page it.lpn).st = 5 ↔ (s.page it.lpn).st = 4 ∨ (s.page it.lpn).st = 5) ∧
      (∀ lpn, lpn ≠ it.lpn → t.page lpn = s.page lpn) ∧
      t.num 0x5010 0x0A = min (s.num 0x5010 0x0A + 1) 0xFFFFFFFFFFFFFFFF ∧ t.tier.dist = s.tier.dist := by
  have hid : it.id = id := by simpa using List.find?_some hi
  have hexec : exec (.unsealDone id) s = .next (s.unsealEnd it).onward := by
    show execUnsealDone id s = _
    simp [execUnsealDone, State.runningItem, hi, hk, hrun]
  rw [State.unsealEnd_of_sound hp (hid ▸ hb) hc hsound] at hexec
  have hdf : Form (s.dropItem it.id) := (State.dropItem_keeps (Keeps.refl s) it.id).form hf
  obtain ⟨hpages, -, hdist⟩ :=
    (s.dropItem it.id).unsealed_contents it (s.sprintBlock (s.page it.lpn) it.blk)
  have hpage : ((s.dropItem it.id).unsealed it (s.sprintBlock (s.page it.lpn) it.blk)).page it.lpn =
      (s.page it.lpn).withRaw it.blk := (State.page_of_pages hpages _).trans (State.page_setPage _ hdf ..)
  refine ⟨_, hexec, ?_, ?_, fun b hne => ?_, ?_, fun lpn hne => ?_, State.unsealed_count hdf it _, hdist⟩
  · rw [hpage, Page.withRaw_code hp (hlen.symm ▸ hblk)]
  · rw [hpage]
    exact State.unsealed_sprintBlock hdf it _ hp (hlen.symm ▸ hblk) hbytes
  · rw [hpage, Page.withRaw_code_other hp hne]
  · rw [hpage]
    exact (Page.withRaw_st hp it.blk).2
  · exact (State.page_of_pages hpages lpn).trans (State.page_setPage_other _ _ _ _ hne)

/-! ### The obligation -/

/-- Settles O51: each command's clause is the lemma about the operation it runs. -/
theorem relayItemsRun : Obligations.RelayItemsRun := by
  unfold Obligations.RelayItemsRun
  refine ⟨?_, fun s id tag it r h hst hf => expandDone_spec h hst hf, fun s id tag it r key h hw hk => xtsDone_spec h hw hk,
    fun s id tag it r hf h hst hq hb => bypassDone_spec hf h hst hq hb,
    fun s id it hf hi hk hrun hblk hp hlen hc hb => unsealDone_spec hf hi hk hrun hblk hp hlen hc hb⟩
  intro s e it hgo he ho hbest hc
  have hexec : (isMove it.kind = true → s.moveOn it.lpn = none ∧ s.recodeHeld it = false) →
      exec (.itemStart e) s = .next (s.startItem it).onward := fun hfree =>
    State.engineTakes_starts ho hbest hc hfree ▸ congrArg Host.Outcome.next (if_pos ⟨hgo, he⟩)
  refine ⟨fun hm hb => ?_, fun hk => ?_, fun sl _ hk hmove hst hpause hinj hslot => ?_⟩
  · rw [hexec (by simp [hm]), State.startItem_runs hm hb]
  · obtain ⟨hm, hb⟩ : isMove it.kind = false ∧ it.kind ≠ .bypass := by rcases hk with hk | hk | hk <;> simp [hk, isMove]
    rw [hexec (by simp [hm]), State.startItem_runs hm hb, State.itemReads_none hk]
  · obtain ⟨m, hm, hspec⟩ := State.startItem_promotion hk hst hpause hinj hslot
    exact ⟨_, m, hexec fun _ => ⟨hmove, by simp [State.recodeHeld, hk]⟩, hm, hspec⟩

end Sys2Proof.Machine
end

section
/-! PROOFS. The pacer: samples, decays, escalation steps, urgency pins and their budget (R128-R131): settles O55. -/

namespace Sys2Proof.Machine

/-! ### Reports leave the bibs alone -/

@[simp] theorem State.fire_bibs (s : State) (p : Nat) (l : LinkId) (vec : Nat) : (s.fire p l vec).bibs = s.bibs :=
  ite_of (P := fun t => t.bibs = s.bibs) rfl (ite_of (P := fun t => t.bibs = s.bibs) rfl rfl)

@[simp] theorem State.fireEvent_bibs (s : State) (p : Nat) : (s.fireEvent p).bibs = s.bibs :=
  ite_of (P := fun t => t.bibs = s.bibs) ((State.fire_bibs ..).trans (State.fire_bibs ..)) (State.fire_bibs ..)

@[simp] theorem State.cxlLog_bibs (s : State) (e : Evt) : (s.cxlLog e).bibs = s.bibs := by
  refine foldl_of (P := fun t => t.bibs = s.bibs) _ rfl fun t p h => ite_of (P := fun t => t.bibs = s.bibs) ?_ h
  split
  · exact (State.fireEvent_bibs _ p).trans h
  · exact h

@[simp] theorem State.notify_bibs (s : State) (e : Evt) : (s.notify e).bibs = s.bibs :=
  ite_of (P := fun t => t.bibs = s.bibs) rfl rfl

@[simp] theorem State.noteEvt_bibs (s : State) (e : Evt) : (s.noteEvt e).bibs = s.bibs :=
  ite_of (P := fun t => t.bibs = s.bibs) rfl rfl

@[simp] theorem State.raiseWith_bibs (s : State) (sev : Nat) (must : Bool) (code port unit aux page detail : Nat) :
    (s.raiseWith sev must code port unit aux page detail).bibs = s.bibs := by
  have hlog : ((s.noteEvt (s.evtOf sev code port unit aux page detail)).cxlLog
      (s.evtOf sev code port unit aux page detail)).bibs = s.bibs := (State.cxlLog_bibs ..).trans (State.noteEvt_bibs ..)
  exact ite_of (P := fun t => t.bibs = s.bibs) ((State.notify_bibs ..).trans hlog) hlog

/-! ### The record of a bib -/

/-- A bib that exists reads as changed, another as before. -/
theorem State.bib_modBib (s : State) {b : Nat} (f : Bib → Bib) (h : b < s.bibs.length) : (s.modBib b f).bib b = f (s.bib b) :=
  nth_updAt_same _ _ _ _ h

theorem State.bib_modBib_other (s : State) {b k : Nat} (f : Bib → Bib) (h : k ≠ b) : (s.modBib b f).bib k = s.bib k :=
  nth_updAt_other _ _ _ _ _ h

theorem State.bib_of_bibs {s t : State} (h : t.bibs = s.bibs) (b : Nat) : t.bib b = s.bib b := by
  unfold State.bib
  rw [h]

/-- The two running averages of R128: of reads and of legs. -/
def Bib.averages (x : Bib) : Nat × Nat := (x.readAvg, x.legAvg)

/-- A change of other fields of a bib leaves the averages of all bibs. -/
theorem State.modBib_averages (s : State) (b k : Nat) {f : Bib → Bib} (h : ∀ x, (f x).averages = x.averages) :
    ((s.modBib b f).bib k).averages = (s.bib k).averages := nth_updAt_of_eq Bib.averages _ _ _ _ h

/-! ### Escalation steps (R129) -/

/-- A choice is its first value where the condition holds, else its second. -/
theorem ite_cases (p : Prop) [Decidable p] (x y : Nat) : p ∧ (if p then x else y) = x ∨ ¬p ∧ (if p then x else y) = y := by
  by_cases hp : p
  · exact .inl ⟨hp, if_pos hp⟩
  · exact .inr ⟨hp, if_neg hp⟩

/-- How many of three marks r reaches. -/
def marksReached (a b c r : Nat) : Nat :=
  (if a ≤ r then 1 else 0) + (if b ≤ r then 1 else 0) + if c ≤ r then 1 else 0

/-- Of rising marks r reaches the first ones. -/
theorem marksReached_cases {a b c : Nat} (r : Nat) (hab : a ≤ b) (hbc : b ≤ c) :
    r < a ∧ marksReached a b c r = 0 ∨ (a ≤ r ∧ r < b) ∧ marksReached a b c r = 1 ∨
      (b ≤ r ∧ r < c) ∧ marksReached a b c r = 2 ∨ c ≤ r ∧ marksReached a b c r = 3 := by
  have ha := ite_cases (a ≤ r) 1 0
  have hb := ite_cases (b ≤ r) 1 0
  have hc := ite_cases (c ≤ r) 1 0
  unfold marksReached
  omega

theorem nth_mark_le_iff {a b c r i : Nat} (hab : a ≤ b) (hbc : b ≤ c) (hi : i < 3) :
    nth [a, b, c] 0 i ≤ r ↔ i < marksReached a b c r := by
  have hm := marksReached_cases r hab hbc
  match i, hi with
  | 0, _ => show a ≤ r ↔ _; omega
  | 1, _ => show b ≤ r ↔ _; omega
  | 2, _ => show c ≤ r ↔ _; omega

theorem stepsUp_eq {r n : Nat} (h : n ≤ 3) : stepsUp r n = max n (marksReached 50 75 90 r) := by
  have hm := marksReached_cases (a := 50) (b := 75) (c := 90) r (by decide) (by decide)
  unfold stepsUp
  extract_lets n1 n2
  have h1 := ite_cases (n < 1 ∧ r ≥ 50) 1 n
  have h2 := ite_cases (n1 = 1 ∧ r ≥ 75) 2 n1
  have h3 := ite_cases (n2 = 2 ∧ r ≥ 90) 3 n2
  omega

theorem stepsDown_eq {r n : Nat} (h : n ≤ 3) : stepsDown r n = min n (marksReached 40 65 80 r) := by
  have hm := marksReached_cases (a := 40) (b := 65) (c := 80) r (by decide) (by decide)
  unfold stepsDown
  extract_lets n3 n2
  have h3 := ite_cases (n = 3 ∧ r < 80) 2 n
  have h2 := ite_cases (n3 = 2 ∧ r < 65) 1 n3
  have h1 := ite_cases (n2 = 1 ∧ r < 40) 0 n2
  omega

/-- The first loop of R129 passes the marks that r reaches and stops at one that it does not. -/
theorem stepsUp_spec {r n : Nat} (h : n ≤ 3) :
    n ≤ stepsUp r n ∧ stepsUp r n ≤ 3 ∧ (∀ i, n ≤ i → i < stepsUp r n → nth [50, 75, 90] 0 i ≤ r) ∧
      (stepsUp r n < 3 → r < nth [50, 75, 90] 0 (stepsUp r n)) := by
  have hmark : ∀ i < 3, nth [50, 75, 90] 0 i ≤ r ↔ i < marksReached 50 75 90 r := fun i =>
    nth_mark_le_iff (by decide) (by decide)
  have hm := marksReached_cases (a := 50) (b := 75) (c := 90) r (by decide) (by decide)
  rw [stepsUp_eq h]
  refine ⟨by omega, by omega, fun i hni hi => (hmark i (by omega)).2 (by omega), fun hu => ?_⟩
  have := not_congr (hmark _ hu)
  omega

/-- The second loop of R129 falls past the marks that r is under and stops above one that it reaches. -/
theorem stepsDown_spec {r n : Nat} (h : n ≤ 3) :
    stepsDown r n ≤ n ∧ (∀ i, stepsDown r n < i → i ≤ n → r < nth [40, 65, 80] 0 (i - 1)) ∧
      (0 < stepsDown r n → nth [40, 65, 80] 0 (stepsDown r n - 1) ≤ r) := by
  have hmark : ∀ i < 3, nth [40, 65, 80] 0 i ≤ r ↔ i < marksReached 40 65 80 r := fun i =>
    nth_mark_le_iff (by decide) (by decide)
  rw [stepsDown_eq h]
  refine ⟨by omega, fun i hdi hi => ?_, fun hd => (hmark _ (by omega)).2 (by omega)⟩
  have := not_congr (hmark (i - 1) (by omega))
  omega

/-! ### The recomputed steps of a bib -/

theorem State.resteps_averages (s : State) (b k : Nat) : ((s.resteps b).bib k).averages = (s.bib k).averages :=
  ite_of (P := fun t => (t.bib k).averages = (s.bib k).averages) (s.modBib_averages b k fun _ => rfl) rfl

theorem State.resteps_bib_other (s : State) {b k : Nat} (h : k ≠ b) : (s.resteps b).bib k = s.bib k :=
  ite_of (P := fun t => t.bib k = s.bib k) (s.bib_modBib_other _ h) rfl

/-- The steps of a GUARANTEED bib are recomputed from its strain; those of another stay. -/
theorem State.resteps_steps (s : State) {b : Nat} (h : b < s.bibs.length) :
    ((s.resteps b).bib b).steps =
      if s.bibClass b = 0 then stepsDown (s.strain b) (stepsUp (s.strain b) (s.bib b).steps) else (s.bib b).steps := by
  unfold State.resteps
  split
  · exact congrArg Bib.steps (s.bib_modBib _ h)
  · rfl

/-- The strain of a bib depends on its averages and targets alone. -/
theorem State.strain_of_averages {s t : State} {b : Nat} (h : (t.bib b).averages = (s.bib b).averages) (hd : t.dict = s.dict) :
    t.strain b = s.strain b := by
  obtain ⟨hread, hleg⟩ := Prod.mk.inj h
  unfold State.strain State.num
  rw [hread, hleg, hd]

/-! ### A sample (R128) -/

theorem ewma_eq (sh e v : Nat) : ((ewma sh e v : Nat) : Int) = max 0 ((e : Int) + ((v : Int) - e) / 2 ^ sh) := by
  rw [ewma, Int.toNat_eq_max, Int.max_comm]

/-- The bib with its average of one kind moved to a sample. -/
def Bib.sampled (x : Bib) (sh : Nat) (leg : Bool) (v : Nat) : Bib :=
  if leg then { x with legAvg := ewma sh x.legAvg v } else { x with readAvg := ewma sh x.readAvg v }

/-- A miss report changes no average. -/
theorem State.miss_averages (s : State) (b p : Nat) (leg : Bool) (v k : Nat) :
    ((s.miss b p leg v).bib k).averages = (s.bib k).averages := by
  unfold State.miss
  extract_lets s1 d s2 vec
  have h2 : (s2.bib k).averages = (s.bib k).averages :=
    (congrArg Bib.averages (State.bib_of_bibs (State.raiseWith_bibs ..) k)).trans (s1.modBib_averages b k fun _ => rfl)
  refine ite_of (P := fun t => (t.bib k).averages = (s.bib k).averages)
    (ite_of (P := fun t => (t.bib k).averages = (s.bib k).averages) h2 ?_) rfl
  exact (congrArg Bib.averages (State.bib_of_bibs (State.fire_bibs ..) k)).trans h2

theorem State.sample_averages (s : State) {b : Nat} (p : Nat) (leg : Bool) (v : Nat) (h : b < s.bibs.length) :
    ((s.sample b p leg v).bib b).averages = ((s.bib b).sampled (s.num 0x7000 1) leg v).averages := by
  unfold State.sample
  extract_lets sh s1 s2 m s3
  have h1 : s1.bib b = (s.bib b).sampled sh leg v := s.bib_modBib _ h
  have h3 : (s3.bib b).averages = ((s.bib b).sampled sh leg v).averages :=
    (s1.resteps_averages b b).trans (congrArg Bib.averages h1)
  exact ite_of (P := fun t => (t.bib b).averages = _) ((s3.miss_averages ..).trans h3) h3

/-- A sample moves the average of its kind by the shifted difference and leaves the other. -/
theorem State.sample_spec {s : State} (hf : Form s) {b : Nat} (p : Nat) (leg : Bool) (v : Nat) (hb : b < 16) :
    ((if leg then ((s.sample b p leg v).bib b).legAvg else ((s.sample b p leg v).bib b).readAvg : Nat) : Int) =
        max 0 (((if leg then (s.bib b).legAvg else (s.bib b).readAvg : Nat) : Int) +
          ((v : Int) - (if leg then (s.bib b).legAvg else (s.bib b).readAvg : Nat)) / 2 ^ s.num 0x7000 1) ∧
      (if leg then ((s.sample b p leg v).bib b).readAvg else ((s.sample b p leg v).bib b).legAvg) =
        (if leg then (s.bib b).readAvg else (s.bib b).legAvg) := by
  obtain ⟨hread, hleg⟩ := Prod.mk.inj (s.sample_averages p leg v (hf.bibs ▸ hb))
  rw [hread, hleg]
  cases leg
  · exact ⟨ewma_eq .., rfl⟩
  · exact ⟨ewma_eq .., rfl⟩

/-! ### A decay (R128, R129) -/

/-- The bib with one of its averages halved. -/
def Bib.decayed (x : Bib) (leg : Bool) : Bib :=
  if leg then { x with legAvg := x.legAvg / 2 } else { x with readAvg := x.readAvg / 2 }

theorem Bib.decayed_steps (x : Bib) (leg : Bool) : (x.decayed leg).steps = x.steps := by
  cases leg <;> rfl

theorem Bib.decayed_averages (x : Bib) (leg : Bool) :
    (x.decayed leg).averages = (if leg then x.readAvg else x.readAvg / 2, if leg then x.legAvg / 2 else x.legAvg) := by
  cases leg <;> rfl

theorem exec_pacerIdleDecay {s : State} {b : Nat} (leg : Bool) (hgo : s.inGo = true) (hb : b < 16) :
    exec (.pacerIdleDecay b leg) s = .next (s.decay b leg).onward := congrArg Host.Outcome.next (if_pos ⟨hgo, hb⟩)

theorem State.decay_only_bibs (s : State) (b : Nat) (leg : Bool) : { s.decay b leg with bibs := s.bibs } = s :=
  ite_of (P := fun t => { t with bibs := s.bibs } = s) rfl rfl

theorem State.decay_bib_other (s : State) {b k : Nat} (leg : Bool) (h : k ≠ b) : (s.decay b leg).bib k = s.bib k :=
  (State.resteps_bib_other _ h).trans (s.bib_modBib_other _ h)

section
variable {s : State} {b : Nat} (leg : Bool) (h : b < s.bibs.length)
include h

theorem State.decay_averages : ((s.decay b leg).bib b).averages = ((s.bib b).decayed leg).averages :=
  (State.resteps_averages _ b b).trans (congrArg Bib.averages (s.bib_modBib _ h))

/-- The steps after a decay are those of the strain that the decayed averages give. -/
theorem State.decay_steps : ((s.decay b leg).bib b).steps =
    if s.bibClass b = 0 then
      stepsDown ((s.decay b leg).strain b) (stepsUp ((s.decay b leg).strain b) (s.bib b).steps)
    else (s.bib b).steps := by
  have hold : ((s.modBib b fun x => x.decayed leg).bib b).steps = (s.bib b).steps :=
    (congrArg Bib.steps (s.bib_modBib _ h)).trans (Bib.decayed_steps _ leg)
  have hstrain : (s.decay b leg).strain b = (s.modBib b fun x => x.decayed leg).strain b :=
    State.strain_of_averages (State.resteps_averages _ b b) (ite_of (P := fun t => t.dict = s.dict) rfl rfl)
  have hnew := (s.modBib b fun x => x.decayed leg).resteps_steps (b := b) (by rwa [State.modBib_bibs, updAt_length])
  rw [hold, ← hstrain] at hnew
  exact hnew

end

/-- A decay leaves the targets, so the strain it gives is that of the new averages against the targets before. -/
theorem State.decay_strain (s : State) (b : Nat) (leg : Bool) : (s.decay b leg).strain b =
    max (pct ((s.decay b leg).bib b).readAvg (s.num (0x7010 + b) 3)) (pct ((s.decay b leg).bib b).legAvg (s.num (0x7010 + b) 4)) := by
  have hnum : ∀ i j, (s.decay b leg).num i j = s.num i j := fun i j =>
    ite_of (P := fun t => t.num i j = s.num i j) rfl rfl
  rw [State.strain, hnum, hnum]

/-! ### Slices of the urgency budget (R131) -/

/-- A port after a slice boundary, under the budget given. -/
def Port.nextSlice (x : Port) (budget : Nat) : Port :=
  { x with slices := 0 :: x.slices.take 9, suspended := x.suspended && decide (budget ≤ total (0 :: x.slices.take 9)) }

theorem State.urgSliceOf_port {s : State} {p : Nat} (h : p < s.ports.length) :
    (s.urgSliceOf p).port p = (s.port p).nextSlice (s.urgBudget p) := s.port_modPort p _ h

theorem State.urgSliceOf_port_other (s : State) {p q : Nat} (h : q ≠ p) : (s.urgSliceOf p).port q = s.port q :=
  s.port_modPort_other p q _ h

theorem State.urgSlices_only_ports (s : State) (l : List Nat) : { l.foldl State.urgSliceOf s with ports := s.ports } = s :=
  foldl_of (P := fun t => { t with ports := s.ports } = s) l rfl fun _ _ h => h

theorem State.urgSlices_length (s : State) (l : List Nat) : (l.foldl State.urgSliceOf s).ports.length = s.ports.length :=
  foldl_of (P := fun t => t.ports.length = s.ports.length) l rfl fun _ _ h => (updAt_length ..).trans h

theorem State.urgSlices_budget (s : State) (l : List Nat) (p : Nat) : (l.foldl State.urgSliceOf s).urgBudget p = s.urgBudget p :=
  foldl_of (P := fun t => t.urgBudget p = s.urgBudget p) l rfl fun _ _ h => h

/-- The boundary reaches the ports in turn: the first n have taken it, the others not yet. -/
theorem State.urgSlices_port (s : State) {n : Nat} (hn : n ≤ s.ports.length) (p : Nat) :
    ((upto n).foldl State.urgSliceOf s).port p = if p < n then (s.port p).nextSlice (s.urgBudget p) else s.port p := by
  induction n with
  | zero => rfl
  | succ n ih =>
    have ih := ih (by omega)
    rw [upto, List.foldl_append, List.foldl_cons, List.foldl_nil]
    by_cases hp : p = n
    · subst hp
      rw [State.urgSliceOf_port (by rw [s.urgSlices_length]; omega), ih, s.urgSlices_budget, if_neg (by omega), if_pos (by omega)]
    · rw [State.urgSliceOf_port_other _ hp, ih]
      simp only [show p < n + 1 ↔ p < n by omega]

/-! ### The obligation -/

/-- Settles O55: a sample, a decay, a pin change and a slice boundary, each by the lemmas about its operation. -/
theorem pacerRules : Obligations.PacerRules := by
  unfold Obligations.PacerRules
  refine ⟨fun s b p leg v hf hb => State.sample_spec hf p leg v hb, fun s b leg hf hb hgo => ?_, fun s p value hf hp => ?_,
    fun s hf => ?_⟩
  · have hlen : b < s.bibs.length := hf.bibs ▸ hb
    obtain ⟨hread, hleg⟩ := Prod.mk.inj ((State.decay_averages leg hlen).trans (Bib.decayed_averages _ leg))
    have hsteps := State.decay_steps leg hlen
    refine ⟨s.decay b leg, exec_pacerIdleDecay leg hgo hb, s.decay_only_bibs b leg, hread, hleg,
      fun k hk => s.decay_bib_other leg hk, fun hc => by rw [hsteps, if_neg hc], fun hc hle => ?_⟩
    extract_lets share r up down n
    have hr : (s.decay b leg).strain b = r := s.decay_strain b leg
    rw [if_pos hc, hr] at hsteps
    obtain ⟨hup, hu3, hpass, hstop⟩ := stepsUp_spec (r := r) hle
    obtain ⟨hdown, hfall, hhold⟩ := stepsDown_spec (r := r) hu3
    rw [← hsteps] at hdown hfall hhold
    exact ⟨_, hup, hu3, hpass, hstop, hdown, hfall, hhold⟩
  · exact ⟨_, rfl, rfl, s.port_modPort p _ (hf.ports ▸ hp), fun k hk => s.port_modPort_other p k _ hk⟩
  · refine ⟨_, rfl, s.urgSlices_only_ports _, fun p hp => ?_⟩
    rw [s.urgSlices_port (Nat.le_of_eq hf.ports.symm) p, if_pos hp]
    rfl

end Sys2Proof.Machine
end
